-- ==== Sys2Proof/Word.lean ====
section
/-! DEFINITION. The word and byte types and their plainest arithmetic. -/

namespace Sys2Proof

/-- A register or memory word: 32 bits (spec/00_scope.md, Notation). -/
abbrev Word := BitVec 32

/-- A byte of memory. -/
abbrev Byte := BitVec 8

/-- A status code of R90. -/
abbrev Code := BitVec 16

end Sys2Proof
end

