-- ==== Sys2Proof/Syntax.lean ====
section
/-! DEFINITION. The commands the KJ8 takes, one constructor of `Instr` per row of spec/opcode_table.json,
and the plain data their operands are made of. What the outside world or the analog world decides (a pin level,
a sample, a received frame, the result of a self-test) is an operand of the row it belongs to. -/

namespace Sys2Proof

/-- Who writes a register: a host port, or a setup task through STA with the rights of its admitting port (R126). -/
inductive Who
  | host (n : Fin 4)
  | task (t : Fin 256)
  deriving DecidableEq, Repr

/-- A memory with spare rows and columns of its own: an SRAM bank, or the instruction or data memory of an engine
(R390). -/
inductive SpareMem
  | bank (n : Fin 16)
  | engine (e : Fin 16) (data : Bool)
  deriving DecidableEq, Repr

/-- What the self-tests of a boot step found (R50, R51) and whether SRST is closed as BOOT ends (R342). -/
structure BootResult where
  /-- The defective cells that memory BIST found beyond the burned repairs, by their memory (step 3). -/
  defects : List SpareMem
  /-- Engines that failed logic BIST (step 4). -/
  enginesBad : BitVec 16
  logicBad : Option (Fin 26)
  srstClosed : Bool
  deriving DecidableEq, Repr

/-- The count operand of LOOP: CNT with CS = 0, or a register with CS = 1 (R114, R131). -/
inductive LoopCount
  | imm (n : BitVec 12)
  | reg (ga : Fin 32)
  deriving DecidableEq, Repr

/-- How the two copies of one delay-buffer line read (R189). -/
structure BufLine where
  fbrkOk : Bool
  memfOk : Bool
  equal : Bool
  deriving DecidableEq, Repr

/-- A serial encoder frame as received: Start seen in time, NBITS data bits, the SSI parity bit, and the
BiSS-C nE, nW and CRC bits (R300, R301). -/
structure SerialFrame where
  started : Bool
  data : Nat
  parity : Bool
  nE : Bool
  nW : Bool
  crc : BitVec 6
  deriving DecidableEq, Repr

/-- The readback of a safe output at the end of its test (R340, R341). -/
inductive SoutReadback
  | good
  | cannotOpen
  | pinLow
  | darkFailed
  deriving DecidableEq, Repr

/-- A die-temperature judgement of R416 and R417 that has held for its time. -/
inductive DieJudgement
  | above130
  | below128
  | high145
  | spread25
  | below125
  deriving DecidableEq, Repr

/-- A received CAN frame (R368), with its data bytes and whether the two copies of the bit-stream logic
differed (R382). -/
structure CanFrame where
  id : BitVec 29
  xtd : Bool
  rtr : Bool
  fdf : Bool
  brs : Bool
  esi : Bool
  data : List Byte
  cmpErr : Bool
  /-- The stamp of its sync mark (R368). -/
  stamp : Nat
  deriving DecidableEq, Repr

/-- How the transmit entry at the head of the ring ended: sent, with the stamp of its sync mark, failed (R369), or ended
with an error frame because the two copies of the bit-stream logic differed (R382). -/
inductive CanTxResult
  | sent (stamp : Nat)
  | failed
  | cmpErr
  deriving DecidableEq, Repr

/-- How an Ethernet transmit entry ended: sent, with its stamp, or ended with a bad FCS because the two copies of the
bit-stream logic differed (R377, R382). -/
inductive EthTxResult
  | sent (stamp : Nat)
  | cmpErr
  deriving DecidableEq, Repr

/-- A serial frame whose data line stayed low, and its port (R301). -/
structure LateFrame where
  port : Fin 8
  frame : SerialFrame
  deriving DecidableEq, Repr

/-- An update point: a valley or the peak, and the samples of protection paths, each with its channel, that have come
since the last command (R243, R275). -/
structure UpdateMoment where
  peak : Bool
  prot : List (Fin 64 × Int)
  deriving DecidableEq, Repr

/-- What happens at the receiver of a wake source (R63, R374): its level condition begins or ends (on CAN0 and CAN1 the
bus has been dominant for 5 µs); or, on CAN0 and CAN1, a frame passes up to its CRC delimiter, with or without a stuff,
form or CRC error. -/
inductive WakeInput
  | level (active : Bool)
  | frame (f : CanFrame) (bad : Bool)
  deriving DecidableEq, Repr

/-- What happens at the receiver of a source of the wake table (R63, R64). -/
structure WakeEvent where
  source : Fin 23
  input : WakeInput
  deriving DecidableEq, Repr

/-- A bus error or a protocol exception at a CAN controller: the counters and the last error code that
ISO 11898-1 gives after it (R366). -/
structure CanError where
  newTec : Nat
  newRec : Nat
  lec : BitVec 3
  exception : Bool
  deriving DecidableEq, Repr

/-- A received Ethernet frame: its bytes from the destination address up to the FCS, whether the FCS checks,
and whether the two copies of the bit-stream logic differed (R377, R382). -/
structure EthFrame where
  bytes : List Byte
  fcsOk : Bool
  cmpErr : Bool
  /-- The stamp taken at the first bit after the SFD (R377). -/
  stamp : Nat
  deriving DecidableEq, Repr

/-- A block with self-test slices of its own (R386, R387). -/
inductive SliceBlock
  | engine (e : Fin 16)
  | bank (n : Fin 16)
  | dsm (n : Fin 64)
  | conv (c : Fin 24)
  | comp (n : Fin 32)
  | port (n : Fin 8)
  | island (i : Fin 26)
  deriving DecidableEq, Repr

/-- The result of a slice: passed or failed, where the failing cell is (R388, R390, R391), and the offset a converter
slice measured (R396). -/
structure SliceResult where
  failed : Bool
  addr : Word
  kind : BitVec 3
  bit : BitVec 9
  /-- The measured offset of a converter less its committed trim, in codes of 20-bit scale (R396). -/
  offset : Int
  deriving DecidableEq, Repr

/-- What a step of a long operation found: the result of a self-test slice, or trims measured (R388, R395). -/
structure OpStepResult where
  slice : SliceResult
  trims : List Word
  deriving DecidableEq, Repr

/-- A codeword the scrubber or a load reads (R31, R36, R389): of SRAM, by its number; of the instruction or data memory
of an engine; or a line of its delay buffers. -/
inductive MemLoc
  | sram (cw : Nat)
  | localMem (e : Fin 16) (data : Bool) (cw : Fin 8192)
  | buffer (e : Fin 16) (line : Fin 192)
  deriving DecidableEq, Repr

/-- What a scrub read found: nothing, a corrected codeword with the bit that was wrong, or an uncorrectable one (R32, R33,
R36, R37, R390). -/
inductive ScrubResult
  | clean
  | corrected (bit : BitVec 9)
  | uncorrectable
  deriving DecidableEq, Repr

/-- A scrub read: what it found, and the codewords that errors have struck meanwhile, each with the number of its symbols
(R31, R389). -/
structure ScrubRead where
  found : ScrubResult
  struck : List (MemLoc × Nat)
  deriving DecidableEq, Repr

/-- A crossing transfer as its receiver sees it: the 96 protected bits, and the check code sent alongside (R17). -/
structure Transfer where
  word : BitVec 96
  chk : BitVec 16
  deriving DecidableEq, Repr

/-- A crossing, from island to island (R15). -/
structure Crossing where
  src : Fin 26
  dst : Fin 26
  deriving DecidableEq, Repr

/-- A transfer and, for where it fails its checks, its resend (R17, R18). -/
structure CrossingTries where
  first : Transfer
  resent : Transfer
  deriving DecidableEq, Repr

/-- The commands: one constructor per row of spec/opcode_table.json, in the table's order. -/
inductive Instr
  /-- POWER_ON_RESET (R46). VDDK rises or fails, so every domain including Canopy is reset and the KJ8 waits for its supplies. -/
  | powerOnReset
  /-- SUPPLIES_GOOD (R46). After all eight supplies are good, Canopy runs the release sequence and starts BOOT. -/
  | suppliesGood (refinOk xtal : Bool)
  /-- REFIN_RETRY (R46). After REFIN has failed the step-3 check, the check is repeated every 1 ms. -/
  | refinRetry (refinOk : Bool)
  /-- SUPPLY_FAIL (R48). A supply stays below its falling threshold for 10 µs outside SLEEP, and the supply reaction is applied. -/
  | supplyFail (k : Fin 8)
  /-- REF_LOSS (R12). REFIN is absent or off frequency for 1 µs; REFLOSS is set and SAFE is requested. -/
  | refLoss
  /-- CLOCK_FAILURE (R11). A checker finds a bad token interval or no token for 1 µs and declares the island clock failed. -/
  | clockFailure (i : Fin 26)
  /-- CROSSING_FAILURE (R18). A crossing transfer fails its CRC or sequence check and the resend fails too; the reactions of both islands apply. The operands are the transfer and its resend as the receiver sees them, and the receiver judges them (R17). -/
  | crossingFailure (x : Crossing) (t : CrossingTries)
  /-- HEARTBEAT_TIMEOUT (R19). A receiver sees no transfer for 1 µs and declares the crossing failed. -/
  | heartbeatTimeout (src dst : Fin 26)
  /-- PAD_TOGGLE_LOSS (R14). A pad sees no enable-toggle edge for 200 ns and latches low. -/
  | padToggleLoss (pad : Fin 60)
  /-- TBASE_ERR (R24). An island sees an invalid TBASE step; GRAYERR is set and the KJ8 enters SAFE. -/
  | tbaseErr (i : Fin 26)
  /-- BOOT_STEP_COMPLETE (R49). A boot step finishes and the next step begins, or boot ends. -/
  | bootStepComplete (r : BootResult)
  /-- WAKE_SOURCE (R64). A watched wake source fires in SLEEP; the wake is recorded and the R46 sequence runs. The operand tells whether the source's wake condition begins or ends. -/
  | wakeSource (w : WakeEvent)
  /-- RUN_TO_READY_COMPLETE (R41). The last bridge reaches its carrier boundary with all switches off, and the mode becomes READY. -/
  | runToReadyComplete
  /-- SPI_BAD_TRANSACTION (R71). A transaction with an undefined code ends without effect and sets BADTX. -/
  | spiBadTransaction (p : Fin 4) (code : BitVec 8)
  /-- RESPONSE_READ (R73). An RSP transaction reads the head response frame, which is removed only once fully clocked out. -/
  | responseRead (p : Fin 4) (words : Nat)
  /-- EVENT_READ (R73). An EVT transaction reads the head event record, which is removed only once fully clocked out. -/
  | eventRead (p : Fin 4) (words : Nat)
  /-- STATUS (R88). Returns mode, rights, safety status, queue levels, TBASE, boot and port status. -/
  | status (p : Fin 4) (tag : BitVec 8) (arg : Word) (pl : List Word)
  /-- READ (R83). Returns C consecutive words from an address after all checks. -/
  | read (p : Fin 4) (tag : BitVec 8) (arg : Word) (pl : List Word)
  /-- WRITE (R84). Checks every word, then writes the words in ascending address order. -/
  | write (p : Fin 4) (tag : BitVec 8) (arg : Word) (pl : List Word)
  /-- DOORBELL (R85). Raises a source in the port's doorbell range with a payload tag. -/
  | doorbell (p : Fin 4) (tag : BitVec 8) (arg : Word) (pl : List Word)
  /-- IMG_LOAD (R86). Writes words into the single image staging buffer, reserving it at offset 0. -/
  | imgLoad (p : Fin 4) (tag : BitVec 8) (arg : Word) (pl : List Word)
  /-- IMG_COMMIT (R57). Starts a long operation that verifies the staged image and writes it to the non-booted bank. -/
  | imgCommit (p : Fin 4) (tag : BitVec 8) (arg : Word) (pl : List Word)
  /-- TASK_ADMIT (R173). Checks a task descriptor, assigns a task ID and places the task on an engine. -/
  | taskAdmit (p : Fin 4) (tag : BitVec 8) (arg : Word) (pl : List Word)
  /-- TASK_RETIRE (R87). Retires a task at its next period boundary and answers after it. -/
  | taskRetire (p : Fin 4) (tag : BitVec 8) (arg : Word) (pl : List Word)
  /-- TASK_MAILBOX_WRITE (R87). Queues mailbox words to be written into both MBOX copies at the next period boundary. -/
  | taskMailboxWrite (p : Fin 4) (tag : BitVec 8) (arg : Word) (pl : List Word)
  /-- TASK_MAILBOX_READ (R87). Captures mailbox words from the pass-A copy at the next period boundary. -/
  | taskMailboxRead (p : Fin 4) (tag : BitVec 8) (arg : Word) (pl : List Word)
  /-- MODE_REQ (R41). Requests a mode transition, which Firebreak checks and serialises. -/
  | modeReq (p : Fin 4) (tag : BitVec 8) (arg : Word) (pl : List Word)
  /-- NV_COMMIT (R403). Starts a long operation that writes a parameter or calibration bank. -/
  | nvCommit (p : Fin 4) (tag : BitVec 8) (arg : Word) (pl : List Word)
  /-- BIST_RUN (R388). Starts a long operation of self-test on an island, optionally full or burning repairs. -/
  | bistRun (p : Fin 4) (tag : BitVec 8) (arg : Word) (pl : List Word)
  /-- CAL_RUN (R395). Starts a long operation that calibrates converters, comparator DACs or both. -/
  | calRun (p : Fin 4) (tag : BitVec 8) (arg : Word) (pl : List Word)
  /-- SAFE_OPEN (R357). Opens a safety session on an unlocked configuration and returns SID, NONCE and digest. -/
  | safeOpen (p : Fin 4) (tag : BitVec 8) (arg : Word) (pl : List Word)
  /-- SAFE_UNLOCK (R357). Opens an UNLOCK session on a locked configuration. -/
  | safeUnlock (p : Fin 4) (tag : BitVec 8) (hi : BitVec 29) (pl : List Word)
  /-- SAFE_CLOSE (R357). Ends the open safety session named by SID. -/
  | safeClose (p : Fin 4) (tag : BitVec 8) (hi : BitVec 29) (pl : List Word)
  /-- SAFE_SETSEED (R357). Stores the port's seed in the key store. -/
  | safeSetseed (p : Fin 4) (tag : BitVec 8) (hi : BitVec 29) (pl : List Word)
  /-- SAFE_CONFIRM (R358). Confirms a session with the digest, or with digest and HMAC token from the SAFEOWN port. -/
  | safeConfirm (p : Fin 4) (tag : BitVec 8) (arg : Word) (pl : List Word)
  /-- SAFE_COMMIT (R359). Commits an OPEN session to the parameter bank and locks, or completes an UNLOCK session. -/
  | safeCommit (p : Fin 4) (tag : BitVec 8) (arg : Word) (pl : List Word)
  /-- TELEM_SUB (R89). Adds a signal to a telemetry stream with a decimation. -/
  | telemSub (p : Fin 4) (tag : BitVec 8) (arg : Word) (pl : List Word)
  /-- TELEM_UNSUB (R89). Removes a signal from a telemetry stream. -/
  | telemUnsub (p : Fin 4) (tag : BitVec 8) (arg : Word) (pl : List Word)
  /-- OP_STATUS (R94). Returns state and step counts of a long operation token. -/
  | opStatus (p : Fin 4) (tag : BitVec 8) (arg : Word) (pl : List Word)
  /-- OP_ABORT (R95). Stops a long operation at the end of its current step. -/
  | opAbort (p : Fin 4) (tag : BitVec 8) (arg : Word) (pl : List Word)
  /-- LONG_OP_STEP (R93). A step of a long operation ends; waiting requests are served and the next step begins. -/
  | longOpStep (tok : Word) (r : OpStepResult)
  /-- REGISTER_WRITE (R8). A write to a register without its own behaviour is checked field by field and applied whole or rejected. -/
  | registerWrite (w : Who) (addr v : Word)
  /-- QUEUE_ENABLE (R100). Setting or clearing EN of Q16–Q31 checks the ring and resets or discards its indices. -/
  | queueEnable (w : Who) (q : Fin 16) (v : Word)
  /-- EVENT_RAISE (R320). A raise reaches MEMF and enters the pending pool, or is lost and counted in EVT_LOST. -/
  | eventRaise (i : Fin 26)
  /-- EVENT_WRITE_SLOT (R321). At a write slot the arbiter writes or discards the chosen eligible record. -/
  | eventWriteSlot
  /-- MODERATION_WINDOW_CLOSE (R324). A queue's moderation window closes and the waiting records are written as a batch. -/
  | moderationWindowClose (q : Fin 8)
  /-- HOLD_OFF_EXPIRY (R325). A class S group's hold-off ends and its held records become eligible. -/
  | holdOffExpiry (g : Fin 64)
  /-- EVT_DOORBELL_WRITE (R85). A write to EVT.DOORBELL raises a doorbell source in the writer's range. -/
  | evtDoorbellWrite (w : Who) (v : Word)
  /-- PORT_SLEEP_WRITE (R328). A port sets or clears ASLEEP, changing how HPn_IRQ_N follows its queue. -/
  | portSleepWrite (w : Who) (n : Fin 4) (v : Word)
  /-- EVT_QBIND_WRITE (R327). Binding an event queue Q12–Q15 to a task is checked and set. -/
  | evtQbindWrite (w : Who) (q : Fin 4) (v : Word)
  /-- PERIOD_BOUNDARY (R154). A task's period boundary arrives; pending mailbox writes, retirements and axis words take effect and sampling begins. -/
  | periodBoundary (t : Fin 256)
  /-- STEP_RELEASE (R154). Every frame entry has its sample, so the frame is captured and pass A starts. -/
  | stepRelease (t : Fin 256) (arr : List (Option Int))
  /-- SAMPLE_STALE_TIMEOUT (R154). Half a period passes without an entry's sample; the step is released with STALE set. -/
  | sampleStaleTimeout (t : Fin 256) (arr : List (Option Int))
  /-- BUDGET_EXCEEDED (R136). A pass reaches its WCET without STEPEND and stops with a BUDGET fault. -/
  | budgetExceeded (e : Fin 16)
  /-- ADDS (R117). Saturating Q1.31 add. -/
  | adds (e : Fin 16) (gd ga gb : Fin 32)
  /-- SUBS (R117). Saturating Q1.31 subtract. -/
  | subs (e : Fin 16) (gd ga gb : Fin 32)
  /-- NEGS (R117). Q1.31 negate. -/
  | negs (e : Fin 16) (gd ga : Fin 32)
  /-- ABSS (R117). Q1.31 absolute value. -/
  | abss (e : Fin 16) (gd ga : Fin 32)
  /-- MULQ (R117). Rounded Q1.31 multiply. -/
  | mulq (e : Fin 16) (gd ga gb : Fin 32)
  /-- DIVQ (R117). Saturating rounded Q1.31 divide. -/
  | divq (e : Fin 16) (gd ga gb : Fin 32)
  /-- MIN (R117). Minimum of two values. -/
  | min (e : Fin 16) (gd ga gb : Fin 32)
  /-- MAX (R117). Maximum of two values. -/
  | max (e : Fin 16) (gd ga gb : Fin 32)
  /-- CLIPS (R117). Clip to a symmetric bound. -/
  | clips (e : Fin 16) (gd ga gb : Fin 32)
  /-- CLIPR (R117). Clip to a range. -/
  | clipr (e : Fin 16) (gd ga gb gc : Fin 32)
  /-- SHLS (R117). Saturating left shift. -/
  | shls (e : Fin 16) (gd ga : Fin 32) (n : Fin 32)
  /-- SHRQ (R117). Rounded right shift. -/
  | shrq (e : Fin 16) (gd ga : Fin 32) (n : Fin 32)
  /-- SQRTQ (R117). Q1.31 square root. -/
  | sqrtq (e : Fin 16) (gd ga : Fin 32)
  /-- ADDW (R117). Wrapping integer add. -/
  | addw (e : Fin 16) (gd ga gb : Fin 32)
  /-- SUBW (R117). Wrapping integer subtract. -/
  | subw (e : Fin 16) (gd ga gb : Fin 32)
  /-- MULW (R117). Low 32 bits of an integer product. -/
  | mulw (e : Fin 16) (gd ga gb : Fin 32)
  /-- DIVW (R117). Truncating integer divide. -/
  | divw (e : Fin 16) (gd ga gb : Fin 32)
  /-- AND (R117). Bitwise AND. -/
  | and (e : Fin 16) (gd ga gb : Fin 32)
  /-- OR (R117). Bitwise OR. -/
  | or (e : Fin 16) (gd ga gb : Fin 32)
  /-- XOR (R117). Bitwise XOR. -/
  | xor (e : Fin 16) (gd ga gb : Fin 32)
  /-- SHL (R117). Logical left shift. -/
  | shl (e : Fin 16) (gd ga gb : Fin 32)
  /-- SHR (R117). Logical right shift. -/
  | shr (e : Fin 16) (gd ga gb : Fin 32)
  /-- SHRA (R117). Arithmetic right shift. -/
  | shra (e : Fin 16) (gd ga gb : Fin 32)
  /-- CLZ (R117). Count leading zeros. -/
  | clz (e : Fin 16) (gd ga : Fin 32)
  /-- MOV (R117). Register copy. -/
  | mov (e : Fin 16) (gd ga : Fin 32)
  /-- CSEL (R117). Conditional select. -/
  | csel (e : Fin 16) (gd ga gb gc : Fin 32)
  /-- SEQ (R117). Set if equal. -/
  | seq (e : Fin 16) (gd ga gb : Fin 32)
  /-- SLT (R117). Set if less than. -/
  | slt (e : Fin 16) (gd ga gb : Fin 32)
  /-- SLE (R117). Set if less than or equal. -/
  | sle (e : Fin 16) (gd ga gb : Fin 32)
  /-- SLTU (R117). Set if unsigned less than. -/
  | sltu (e : Fin 16) (gd ga gb : Fin 32)
  /-- ADDSI (R118). Saturating add of an immediate. -/
  | addsi (e : Fin 16) (gd ga : Fin 32) (imm : BitVec 16)
  /-- ADDWI (R118). Wrapping add of an immediate. -/
  | addwi (e : Fin 16) (gd ga : Fin 32) (imm : BitVec 16)
  /-- ANDI (R118). AND with an immediate. -/
  | andi (e : Fin 16) (gd ga : Fin 32) (imm : BitVec 16)
  /-- ORI (R118). OR with an immediate. -/
  | ori (e : Fin 16) (gd ga : Fin 32) (imm : BitVec 16)
  /-- XORI (R118). XOR with an immediate. -/
  | xori (e : Fin 16) (gd ga : Fin 32) (imm : BitVec 16)
  /-- MOVI (R118). Load a sign-extended immediate. -/
  | movi (e : Fin 16) (gd : Fin 32) (imm : BitVec 16)
  /-- LUI (R118). Load an immediate into the upper half. -/
  | lui (e : Fin 16) (gd : Fin 32) (imm : BitVec 16)
  /-- SLTI (R118). Set if less than an immediate. -/
  | slti (e : Fin 16) (gd ga : Fin 32) (imm : BitVec 16)
  /-- ACLR (R119). Clear an accumulator. -/
  | aclr (e : Fin 16) (ad : Fin 8)
  /-- MULA (R119). Exact product into an accumulator. -/
  | mula (e : Fin 16) (ad : Fin 8) (ga gb : Fin 32)
  /-- MACA (R119). Multiply-accumulate. -/
  | maca (e : Fin 16) (ad : Fin 8) (ga gb : Fin 32)
  /-- MSUA (R119). Multiply-subtract. -/
  | msua (e : Fin 16) (ad : Fin 8) (ga gb : Fin 32)
  /-- AMOV (R119). Accumulator copy. -/
  | amov (e : Fin 16) (ad src : Fin 8)
  /-- AADD (R119). Accumulator add. -/
  | aadd (e : Fin 16) (ad src : Fin 8)
  /-- ANEG (R119). Accumulator negate. -/
  | aneg (e : Fin 16) (ad src : Fin 8)
  /-- EXT (R119). Extract a shifted, rounded value from an accumulator. -/
  | ext (e : Fin 16) (g : Fin 32) (ad : Fin 8) (sh : BitVec 5)
  /-- ALDQ (R119). Load a Q1.31 value into an accumulator. -/
  | aldq (e : Fin 16) (ad : Fin 8) (ga : Fin 32)
  /-- FADD (R120). binary32 add. -/
  | fadd (e : Fin 16) (gd ga gb : Fin 32)
  /-- FSUB (R120). binary32 subtract. -/
  | fsub (e : Fin 16) (gd ga gb : Fin 32)
  /-- FMUL (R120). binary32 multiply. -/
  | fmul (e : Fin 16) (gd ga gb : Fin 32)
  /-- FDIV (R120). binary32 divide. -/
  | fdiv (e : Fin 16) (gd ga gb : Fin 32)
  /-- FMA (R120). Fused multiply-add. -/
  | fma (e : Fin 16) (gd ga gb : Fin 32)
  /-- FNEG (R120). binary32 negate. -/
  | fneg (e : Fin 16) (gd ga : Fin 32)
  /-- FABS (R120). binary32 absolute value. -/
  | fabs (e : Fin 16) (gd ga : Fin 32)
  /-- FMIN (R120). binary32 minimum. -/
  | fmin (e : Fin 16) (gd ga gb : Fin 32)
  /-- FMAX (R120). binary32 maximum. -/
  | fmax (e : Fin 16) (gd ga gb : Fin 32)
  /-- FSQRT (R120). binary32 square root. -/
  | fsqrt (e : Fin 16) (gd ga : Fin 32)
  /-- FSLT (R120). binary32 less-than test. -/
  | fslt (e : Fin 16) (gd ga gb : Fin 32)
  /-- FSLE (R120). binary32 less-or-equal test. -/
  | fsle (e : Fin 16) (gd ga gb : Fin 32)
  /-- FSEQ (R120). binary32 equality test. -/
  | fseq (e : Fin 16) (gd ga gb : Fin 32)
  /-- FTOQ (R120). binary32 to Q1.31. -/
  | ftoq (e : Fin 16) (gd ga : Fin 32)
  /-- QTOF (R120). Q1.31 to binary32. -/
  | qtof (e : Fin 16) (gd ga : Fin 32)
  /-- FTOI (R120). binary32 to integer. -/
  | ftoi (e : Fin 16) (gd ga : Fin 32)
  /-- ITOF (R120). Integer to binary32. -/
  | itof (e : Fin 16) (gd ga : Fin 32)
  /-- LD32 (R121). Load a type-I word from a segment. -/
  | ld32 (e : Fin 16) (gd ga : Fin 32) (off : BitVec 16)
  /-- LDF (R121). Load a type-F word from a segment. -/
  | ldf (e : Fin 16) (gd ga : Fin 32) (off : BitVec 16)
  /-- ST32 (R124). Store a word to STATE or MBOX, mirrored in pass B and journaled. -/
  | st32 (e : Fin 16) (gd ga : Fin 32) (off : BitVec 16)
  /-- LD16 (R121). Load a sign-extended halfword from CONST. -/
  | ld16 (e : Fin 16) (gd ga : Fin 32) (off : BitVec 16)
  /-- LD16U (R121). Load a zero-extended halfword from CONST. -/
  | ld16u (e : Fin 16) (gd ga : Fin 32) (off : BitVec 16)
  /-- LD8U (R121). Load a zero-extended byte from CONST. -/
  | ld8u (e : Fin 16) (gd ga : Fin 32) (off : BitVec 16)
  /-- LDACC (R124). Load a 16-byte accumulator unit. -/
  | ldacc (e : Fin 16) (ad : Fin 8) (ga : Fin 32) (off : BitVec 16)
  /-- STACC (R124). Store a 16-byte accumulator unit. -/
  | stacc (e : Fin 16) (ad : Fin 8) (ga : Fin 32) (off : BitVec 16)
  /-- LDA (R125). Absolute load, logged in pass A and replayed in pass B. -/
  | lda (e : Fin 16) (gd ga : Fin 32) (off : BitVec 16)
  /-- STA (R125). Absolute store recorded as an output of a setup task. -/
  | sta (e : Fin 16) (gd ga : Fin 32) (off : BitVec 16)
  /-- QLEN (R129). Read the number of entries or free entries of a queue. -/
  | qlen (e : Fin 16) (gd q : Fin 32)
  /-- QRDW (R129). Read a word of a queue entry. -/
  | qrdw (e : Fin 16) (gd q k : Fin 32)
  /-- QPOP (R129). Output advancing QHEAD at release. -/
  | qpop (e : Fin 16) (q : Fin 32)
  /-- QWRW (R129). Output writing a word of the entry at QTAIL. -/
  | qwrw (e : Fin 16) (q k ga : Fin 32)
  /-- QPUSH (R129). Output advancing QTAIL at release. -/
  | qpush (e : Fin 16) (q : Fin 32)
  /-- BEQ (R130). Branch if equal. -/
  | beq (e : Fin 16) (ga gb : Fin 32) (off : BitVec 16)
  /-- BNE (R130). Branch if not equal. -/
  | bne (e : Fin 16) (ga gb : Fin 32) (off : BitVec 16)
  /-- BLT (R130). Branch if signed less than. -/
  | blt (e : Fin 16) (ga gb : Fin 32) (off : BitVec 16)
  /-- BGE (R130). Branch if signed greater or equal. -/
  | bge (e : Fin 16) (ga gb : Fin 32) (off : BitVec 16)
  /-- BLTU (R130). Branch if unsigned less than. -/
  | bltu (e : Fin 16) (ga gb : Fin 32) (off : BitVec 16)
  /-- BGEU (R130). Branch if unsigned greater or equal. -/
  | bgeu (e : Fin 16) (ga gb : Fin 32) (off : BitVec 16)
  /-- BZC (R130). Branch on a comparison with zero. -/
  | bzc (e : Fin 16) (ga cc : Fin 32) (off : BitVec 16)
  /-- JMP (R130). Unconditional jump. -/
  | jmp (e : Fin 16) (off : BitVec 26)
  /-- CALL (R130). Jump, writing the return address to g31. -/
  | call (e : Fin 16) (off : BitVec 26)
  /-- LOOP (R131). Start a hardware loop on LC0 or LC1. -/
  | loop (e : Fin 16) (lv : Bool) (cnt : LoopCount) (len : BitVec 12)
  /-- NOP (R132). No operation. -/
  | nop (e : Fin 16)
  /-- STEPEND (R132). End the pass; after pass A the engine starts pass B, and after pass B the result goes to Pyrya. -/
  | stepend (e : Fin 16)
  /-- MFS (R132). Read a special register. -/
  | mfs (e : Fin 16) (gd gc : Fin 32)
  /-- MTS (R132). Write STW. -/
  | mts (e : Fin 16) (gc ga : Fin 32)
  /-- STWCLR (R132). Clear STW flags by mask. -/
  | stwclr (e : Fin 16) (gc : Fin 32)
  /-- FENCE (R132). Wait for every earlier load to complete. -/
  | fence (e : Fin 16)
  /-- TRAP (R132). Stop the pass with a TRAP fault. -/
  | trap (e : Fin 16) (gc : Fin 32)
  /-- RET (R132). Jump to native g31. -/
  | ret (e : Fin 16)
  /-- JR (R132). Jump to native ga. -/
  | jr (e : Fin 16) (ga : Fin 32)
  /-- LONG_ALU (R133). ALU operation with a 32-bit immediate operand. -/
  | longAlu (e : Fin 16) (fn : BitVec 6) (gd ga gx : Fin 32) (imm : Word)
  /-- LDAL (R133). Absolute load from a 32-bit immediate address. -/
  | ldal (e : Fin 16) (gd : Fin 32) (imm : Word)
  /-- STAL (R133). Absolute store to a 32-bit immediate address. -/
  | stal (e : Fin 16) (ga : Fin 32) (imm : Word)
  /-- MOVL (R133). Load a 32-bit immediate. -/
  | movl (e : Fin 16) (gd : Fin 32) (imm : Word)
  /-- CLARKE (R141). Three-phase Clarke transform with zero sequence. -/
  | clarke (e : Fin 16) (gd ga : Fin 32)
  /-- CLARKE2 (R141). Two-phase Clarke transform. -/
  | clarke2 (e : Fin 16) (gd ga : Fin 32)
  /-- ICLARKE (R141). Inverse Clarke transform. -/
  | iclarke (e : Fin 16) (gd ga : Fin 32)
  /-- PARK (R142). Park transform. -/
  | park (e : Fin 16) (gd ga gb : Fin 32)
  /-- IPARK (R142). Inverse Park transform. -/
  | ipark (e : Fin 16) (gd ga gb : Fin 32)
  /-- SINCOS (R143). Sine and cosine of an angle. -/
  | sincos (e : Fin 16) (gd ga : Fin 32)
  /-- VEC (R143). Magnitude and angle of a vector. -/
  | vec (e : Fin 16) (gd ga : Fin 32)
  /-- ANGADD (R140). Wrapping angle add. -/
  | angadd (e : Fin 16) (gd ga gb : Fin 32)
  /-- SVM7 (R144). Centred space-vector modulation. -/
  | svm7 (e : Fin 16) (gd ga : Fin 32)
  /-- SVM5 (R144). Discontinuous space-vector modulation. -/
  | svm5 (e : Fin 16) (gd ga : Fin 32)
  /-- LIM2 (R145). Limit a vector's magnitude. -/
  | lim2 (e : Fin 16) (gd ga gb : Fin 32)
  /-- LIM2D (R145). Limit a vector with d priority. -/
  | lim2d (e : Fin 16) (gd ga gb : Fin 32)
  /-- PIDQ (R146). PID step with conditional-integration anti-windup. -/
  | pidq (e : Fin 16) (gd ga gb : Fin 32) (ad : Fin 8) (s : BitVec 2)
  /-- SMPGET (R149). Read a frame entry's value. -/
  | smpget (e : Fin 16) (gd k : Fin 32)
  /-- SMPFLG (R149). Read a frame entry's flag word. -/
  | smpflg (e : Fin 16) (gd k : Fin 32)
  /-- SMPSTMP (R147). Read a frame entry's stamp. -/
  | smpstmp (e : Fin 16) (gd k : Fin 32)
  /-- PWM3 (R150). Output the three leg commands of a group. -/
  | pwm3 (e : Fin 16) (ga k : Fin 32)
  /-- PWM1 (R150). Output one leg command. -/
  | pwm1 (e : Fin 16) (ga k leg : Fin 32)
  /-- PWMOFF (R150). Output every switch of a group off. -/
  | pwmoff (e : Fin 16) (k : Fin 32)
  /-- PWMTRIM (R150). Output an edge trim of one switch. -/
  | pwmtrim (e : Fin 16) (ga k sw : Fin 32)
  /-- FLTSET (R152). Output a fault demand on a group. -/
  | fltset (e : Fin 16) (ga k code : Fin 32)
  /-- EVRAISE (R153). Output a raise of an event-table entry. -/
  | evraise (e : Fin 16) (ga k : Fin 32)
  /-- TLMPUT (R153). Output a telemetry value. -/
  | tlmput (e : Fin 16) (ga k : Fin 32)
  /-- PYRYA_VERDICT (R190). Pyrya compares the pass results and accepts the step or gives class W, O or P. -/
  | pyryaVerdict (e : Fin 16) (lines : List BufLine) (canaryOk : Bool)
  /-- VERDICT_TIMEOUT (R191). No pass-B STEPEND by the second boundary gives class O with O_TIMEOUT. -/
  | verdictTimeout (e : Fin 16) (t : Fin 256)
  /-- CANARY_PAIR (R200). After 10 µs without a verdict, Pyrya runs its canary pair through the lane. -/
  | canaryPair (ok : Bool)
  /-- SUSPECT_EXPIRY (R194). One second after the verdict, an engine stops being suspect. -/
  | suspectExpiry (e : Fin 16)
  /-- DEBUG_ENABLE (R205). Setting DBGCTL.EN puts an engine in debug, with pass A only. -/
  | debugEnable (w : Who) (v : Word)
  /-- DEBUG_DISABLE (R208). Clearing EN retires every task that stepped on the debug engine. -/
  | debugDisable (w : Who) (v : Word)
  /-- DEBUG_HALT (R206). Writing HALT = 1 stops the debug engine at its next instruction boundary. -/
  | debugHalt (w : Who) (v : Word)
  /-- DEBUG_RESUME (R206). Writing HALT = 0 resumes the debug engine. -/
  | debugResume (w : Who) (v : Word)
  /-- DEBUG_STEP (R206). Writing STEP = 1 while halted executes one instruction. -/
  | debugStep (w : Who) (v : Word)
  /-- DBGDIV_CLEAR (R207). A W1C of DBGDIV clears it only while EN is 0. -/
  | dbgdivClear (w : Who) (v : Word)
  /-- PRECOPY_COMPLETE (R177). Pre-copy of a task ends, and the commit waits for a gap between steps. -/
  | precopyComplete (t : Fin 256)
  /-- MOVE_COMMIT (R177). With no step in progress, the marked lines and counters move and the task is bound to the destination. -/
  | moveCommit (t : Fin 256)
  /-- AXIS_ENABLE (R210). Setting AXCFG.EN is checked, and the axis enters IDLE. -/
  | axisEnable (w : Who) (n : Fin 8) (v : Word)
  /-- AXIS_DISABLE (R210). Clearing AXCFG.EN returns the axis to OFF. -/
  | axisDisable (w : Who) (n : Fin 8) (v : Word)
  /-- AXIS_START (R215). Writing START to AXCMD starts an IDLE axis in RUN. -/
  | axisStart (w : Who) (n : Fin 8) (v : Word)
  /-- AXIS_STOP (R215). Writing STOP to AXCMD takes the axis to STOP. -/
  | axisStop (w : Who) (n : Fin 8) (v : Word)
  /-- AXIS_EVALUATION (R212). The supervisor evaluates an axis from a released step's telemetry and port status. -/
  | axisEvaluation (n : Fin 8)
  /-- REACQ_TIMEOUT (R234). TREACQ elapses in CATCH or REACQ; REACQFAIL is set and the axis goes to SAFE. -/
  | reacqTimeout (n : Fin 8)
  /-- BRAKE_TIMEOUT (R214). BRKTMO elapses in BRAKE or STOP; BRKFAIL is set and the axis goes to SAFE. -/
  | brakeTimeout (n : Fin 8)
  /-- FE_TIMER_EXPIRY (R230). The following-error timer reaches FETMO, setting FEEXP and declaring feedback loss. -/
  | feTimerExpiry (n : Fin 8)
  /-- CMDIN_SAMPLE (R236). A command input produces a new raw value and its entry value and validity are updated. -/
  | cmdinSample (n : Fin 8) (code : BitVec 16) (high period : Nat)
  /-- CMDIN_EDGE_TIMEOUT (R238). No edge arrives on a DUTY or FREQ input within its timeout. -/
  | cmdinEdgeTimeout (n : Fin 8)
  /-- CARRIER_UPDATE_POINT (R244). At a valley or peak, shadow commands load and trims, refresh and sharing update. -/
  | carrierUpdatePoint (k : Fin 8) (u : UpdateMoment)
  /-- GFLT_FAULT (R252). GFLTn held high for 20 ns latches a switch fault and drives GCMDn low. -/
  | gfltFault (n : Fin 48)
  /-- GFLT_CLASSIFY (R252). A PENDING fault's assertion ends or reaches 4 µs, and its class is written. -/
  | gfltClassify (n : Fin 48) (held : Nat)
  /-- PROTECTION_TRIP (R253). A TRIP or HARD source trips and latches a fault on its phase's side. -/
  | protectionTrip (src : Fin 96) (samples : List Int)
  /-- ASC_TURN_ON (R259). ASCDLY after all-off, the chosen ASC pattern's switches turn on. -/
  | ascTurnOn (k : Fin 8)
  /-- SAFE_STATE_RECHOOSE (R260). Every 1 ms under a demand, Firebreak chooses again between ASC and STO. -/
  | safeStateRechoose (k : Fin 8)
  /-- SWITCH_FAULT_CLEAR (R255). A W1C of SWFLT clears switch latches if every condition holds. -/
  | switchFaultClear (w : Who) (upper : Bool) (v : Word)
  /-- DEMAND_RELEASE (R263). A write to BRREL releases a unit's latched demand. -/
  | demandRelease (w : Who) (v : Word)
  /-- DC_LINK_SAMPLE (R265). A new VDC sample drives the HYST chopper and the overvoltage check. -/
  | dcLinkSample (l : Fin 4) (x : Int) (valid : Bool)
  /-- OVERVOLTAGE_TRIP (R266). OVCMP trips or VDC reaches VOV; BRK is forced on and bridges get demands. -/
  | overvoltageTrip (l : Fin 4)
  /-- OVTRIP_CLEAR (R266). A W1C of OVTRIP clears it only while VDC16 ≤ VOFF. -/
  | ovtripClear (w : Who) (l : Fin 4) (v : Word)
  /-- CHOPPER_PERIOD_START (R265). A PEAK-mode chopper period begins and sets Ipk. -/
  | chopperPeriodStart (l : Fin 4)
  /-- CHOPPER_CURRENT_TRIP (R265). ICMP trips in PEAK mode and BRK falls. -/
  | chopperCurrentTrip (l : Fin 4)
  /-- CHOPPER_PERIOD_LIMIT (R265). 95 % of the chopper period passes and BRK falls. -/
  | chopperPeriodLimit (l : Fin 4)
  /-- CHOPPER_RAMP_UPDATE (R289). Every microsecond the slope-compensated ICMP DAC is updated. -/
  | chopperRampUpdate (l : Fin 4)
  /-- DISCHARGE_GO (R267). Writing GO demands discharge of a link; DSC goes high and V0 is recorded. -/
  | dischargeGo (w : Who) (v : Word)
  /-- DISCHARGE_STOP (R267). Writing STOP ends discharge of a link. -/
  | dischargeStop (w : Who) (v : Word)
  /-- DISCHARGE_SLOW_CHECK (R267). At TCHK the decay is checked; DSCSLOW is set and the winding path starts where allowed. -/
  | dischargeSlowCheck (l : Fin 4)
  /-- DISCHARGE_DONE (R267). VDC has held at or below VSAFE for 10 ms; DSCDONE is set. -/
  | dischargeDone (l : Fin 4)
  /-- DISCHARGE_FAIL (R267). Two seconds pass without DSCDONE; DSCFAIL is set. -/
  | dischargeFail (l : Fin 4)
  /-- DSM_OUTPUT (R274). A control path produces a free-running output into DSM.RES. -/
  | dsmOutput (n : Fin 64) (sum : Nat)
  /-- DSM_STUCK (R276). MDATn holds one level for STUCK clocks; the channel is declared stuck. -/
  | dsmStuck (n : Fin 64) (level : Bool)
  /-- ADC_OUTPUT (R280). A converter produces a free-running output. -/
  | adcOutput (c : Fin 24) (x : Int)
  /-- ADC_TRIGGER (R280). A timer or PWM trigger takes a converter capture. -/
  | adcTrigger (c : Fin 24) (x : Int)
  /-- PLAUSIBILITY_EVALUATION (R285). A plausibility group is judged pass, miss or void; the third miss sets FAIL and DISAGREE. -/
  | plausibilityEvaluation (g : Fin 32) (a b c : Option Int)
  /-- PLAUSIBILITY_FAIL_CLEAR (R285). A W1C of RSTAT.FAIL clears it only after a passing evaluation. -/
  | plausibilityFailClear (w : Who) (v : Word)
  /-- COMPARATOR_CHANGE (R287). A comparator's filtered output changes and CMP_CHANGE may be raised. The operands are the samples of the input that bring the change, the last one apart. -/
  | comparatorChange (n : Fin 32) (earlier : List Int) (last : Int)
  /-- READBACK_START (R290). Setting RDBK.EN routes a DAC to a converter for measurement. -/
  | readbackStart (w : Who) (v : Word)
  /-- RDBK_DONE (R290). A readback measurement completes; DONE is set and RDVAL holds it. -/
  | rdbkDone (x : Int)
  /-- PORT_ENABLE (R293). Setting POS.CFG.EN is checked and the port starts from standstill. -/
  | portEnable (w : Who) (n : Fin 8) (v : Word)
  /-- ENCODER_EDGE (R294). An accepted quadrature edge updates count, speed and direction. -/
  | encoderEdge (n : Fin 8) (a b z : Bool)
  /-- HALL_TRANSITION (R296). A Hall state change counts a sector or sets SEQERR. -/
  | hallTransition (n : Fin 8) (h : Fin 8)
  /-- WIRE_DISAGREEMENT (R295). A pair's legs agree for WIRE ticks; WIREERR is set. -/
  | wireDisagreement (n : Fin 8) (pair : Fin 3)
  /-- INDEX_ARM (R297). Writing ARM arms a ONCE index. -/
  | indexArm (w : Who) (n : Fin 8) (v : Word)
  /-- SERIAL_FRAME_START (R299). A serial encoder frame starts LEAD before the update point. -/
  | serialFrameStart (n : Fin 8)
  /-- SERIAL_FRAME_RECEIVED (R301). A serial frame ends and is judged good or flagged, updating count and speed. -/
  | serialFrameReceived (n : Fin 8) (f : SerialFrame)
  /-- SERIAL_FRAME_TIMEOUT (R301). The data line is not back high within TOUT after the frame, setting SEQERR. -/
  | serialFrameTimeout (x : LateFrame)
  /-- RESOLVER_UPDATE (R302). A triggered capture updates the resolver tracking loop, lock and amplitude check. -/
  | resolverUpdate (n : Fin 8) (s c : Int)
  /-- SPEED_TIMEOUT (R305). TMO passes with no edge or good frame; speed becomes 0 and STILL is set. -/
  | speedTimeout (n : Fin 8)
  /-- HELD_FLAG_EXPIRY (R307). A held error flag clears after its condition has been absent for HOLD. -/
  | heldFlagExpiry (n : Fin 8) (flag : Fin 4)
  /-- COMPARE_WRITE (R312). Enabling or changing a compare runs the behind test, possibly firing at once. -/
  | compareWrite (w : Who) (n : Fin 8) (j : Fin 4) (ctl : Bool) (v : Word)
  /-- EMULATOR_EDGE (R314). An emulator emits a backlog quadrature edge once MINGAP allows. -/
  | emulatorEdge (e : Fin 4)
  /-- STO_INPUT_DEMAND (R334). STO_A or STO_B low for 100 ns demands STO on every unit. -/
  | stoInputDemand (b : Bool)
  /-- STO_INPUT_RELEASE (R334). An STO input high for 100 ns ends its demand. -/
  | stoInputRelease (b : Bool)
  /-- STO_DISCREPANCY (R335). One STO input demands longer than STODISC while the other stays high; STOFLT is set. -/
  | stoDiscrepancy (b : Bool)
  /-- SAFE_INPUT_LEVEL (R336). A safe-input channel's debounced level changes and the pair's demand is updated. -/
  | safeInputLevel (ch : Fin 16) (level : Bool)
  /-- TEST_PULSE_START (R337). A TPO begins its off-pulse and opens the window of its channels. -/
  | testPulseStart (k : Fin 8)
  /-- TEST_PULSE_WINDOW_END (R337). A channel window ends; a channel that never read low gives a stuck fault. -/
  | testPulseWindowEnd (ch : Fin 16) (wentLow : Bool)
  /-- SAFE_INPUT_DISCREPANCY (R338). The channels disagree longer than DISC, and a pair fault latches. -/
  | safeInputDiscrepancy (i : Fin 8)
  /-- SAFE_OUTPUT_TEST (R340). Every TEST ms, an off-pulse or dark test of a safe output runs. -/
  | safeOutputTest (j : Fin 4)
  /-- BRAKE_DROP (R339). TSBC after STO begins, the BRAKE output turns off. -/
  | brakeDrop (j : Fin 4)
  /-- SRST_RELEASE (R342). An SRST press is judged at its release edge. -/
  | srstRelease (held : Nat)
  /-- SRST_STUCK (R342). SRST closed for 10 s sets RSTSTUCK. -/
  | srstStuck
  /-- SRST_UNSTUCK (R342). SRST open for 100 ms clears RSTSTUCK. -/
  | srstUnstuck
  /-- MONITOR_CYCLE (R344). Every 250 µs FBRK evaluates the safe speed, demands and functions of every axis. -/
  | monitorCycle
  /-- PDU_COPY_RECEIVED (R353). A safety PDU copy arrives and is discarded, opens a window, or completes a pair. -/
  | pduCopyReceived (c : Fin 16) (second : Bool) (bytes : List Byte)
  /-- PDU_WINDOW_END (R353). A window ends without a partner; the PDU is accepted and DEGR is set. -/
  | pduWindowEnd (c : Fin 16)
  /-- PDU_DEGRADED_TIMEOUT (R353). DEGR has lasted WD; the connection faults with DEGRTMO. -/
  | pduDegradedTimeout (c : Fin 16)
  /-- PDU_WATCHDOG_TIMEOUT (R354). No PDU is accepted for WD; the connection faults with WDTMO. -/
  | pduWatchdogTimeout (c : Fin 16)
  /-- PDU_TRANSMIT (R351). Every TXPER a TX connection sends one copy on each network. -/
  | pduTransmit (c : Fin 16)
  /-- SESSION_TIMEOUT (R357). A safety session ends 60 s after it opened. -/
  | sessionTimeout
  /-- SUPPLY_RANGE_CHANGE (R416). A supply reading leaves or re-enters its range long enough to change COND. -/
  | supplyRangeChange (k : Fin 8) (out : Bool)
  /-- DIE_TEMPERATURE (R417). A die-temperature condition holds long enough to change COND or raise TJ_HIGH and enter SAFE. -/
  | dieTemperature (j : DieJudgement)
  /-- CAN_ENABLE (R363). Setting CAN.CFG.EN checks the bit timing and starts the controller. -/
  | canEnable (w : Who) (c : Fin 4) (v : Word)
  /-- CAN_FRAME_RECEIVED (R370). A valid CAN frame is routed to safety, filters, ring, HP buffer or doorbell. -/
  | canFrameReceived (c : Fin 4) (f : CanFrame)
  /-- CAN_TRANSMIT_COMPLETE (R369). A transmit entry is sent, fails or is bad; TXST is written and QHEAD advances. -/
  | canTransmitComplete (c : Fin 4) (r : CanTxResult)
  /-- CAN_BUS_ERROR (R366). A bus error changes the error counters and possibly the confinement state. -/
  | canBusError (c : Fin 4) (k : CanError)
  /-- CAN_BUS_OFF_RECOVERY (R366). After 128 occurrences of 11 recessive bits the controller rejoins. -/
  | canBusOffRecovery (c : Fin 4)
  /-- CAN_TX_PUSH (R367). Writing TXPUSH.COUNT advances the transmit QTAIL. -/
  | canTxPush (w : Who) (c : Fin 4) (v : Word)
  /-- CAN_RX_POP (R367). Writing RXPOP.COUNT advances the receive QHEAD. -/
  | canRxPop (w : Who) (c : Fin 4) (v : Word)
  /-- TIME_REFERENCE_SEND (R375). Every PERIOD a time master sends a reference message. -/
  | timeReferenceSend (c : Fin 4) (sent : Option Nat)
  /-- ETH_FRAME_RECEIVED (R377). A received Ethernet frame is dropped or routed to safety, host transport or the ring. -/
  | ethFrameReceived (m : Fin 2) (f : EthFrame)
  /-- ETH_TRANSMIT_COMPLETE (R377). A transmit entry leaves the MAC; the stamp is written and QHEAD advances. -/
  | ethTransmitComplete (m : Fin 2) (r : EthTxResult)
  /-- ETH_LINK (R376). The link goes up or down and ETH_LINK is raised. -/
  | ethLink (m : Fin 2) (up : Bool) (spd : BitVec 2)
  /-- ETH_TX_PUSH (R412). Writing ETH TXPUSH.COUNT advances the transmit QTAIL. -/
  | ethTxPush (w : Who) (m : Fin 2) (v : Word)
  /-- ETH_RX_POP (R412). Writing ETH RXPOP.COUNT advances the receive QHEAD. -/
  | ethRxPop (w : Who) (m : Fin 2) (v : Word)
  /-- MDIO_TRANSACTION (R376). A write to ETH.MDIO starts a clause-22 transaction. -/
  | mdioTransaction (w : Who) (m : Fin 2) (v : Word)
  /-- MDIO_DONE (R376). An MDIO transaction completes after 25.6 µs and BUSY clears. -/
  | mdioDone (m : Fin 2) (data : BitVec 16)
  /-- HOST_TRANSPORT_BIND (R378). Writing HBIND moves a host context onto or off Ethernet. -/
  | hostTransportBind (w : Who) (n : Fin 4) (v : Word)
  /-- PTP_OFFSET_LO_WRITE (R380). A write to PTPOFS_LO is held. -/
  | ptpOffsetLoWrite (w : Who) (v : Word)
  /-- PTP_OFFSET_HI_WRITE (R380). A write to PTPOFS_HI applies the whole offset with the held low half. -/
  | ptpOffsetHiWrite (w : Who) (v : Word)
  /-- SLICE_START (R386). The Percolator starts a self-test slice within the power cap. -/
  | sliceStart (b : SliceBlock)
  /-- SLICE_END (R388). A slice ends, passing or failing with its reaction. -/
  | sliceEnd (b : SliceBlock) (r : SliceResult)
  /-- SCRUB_READ (R389). The scrubber reads a codeword and corrects or counts errors. With it come the codewords that errors have struck meanwhile, and in how many symbols. -/
  | scrubRead (loc : MemLoc) (r : ScrubRead)
  /-- ZEROIZE (R392). Writing ZEROIZE.GO erases the key store and closes NVST. -/
  | zeroize (w : Who) (v : Word)
  /-- SCAN_REQUEST (R393). A scan request is granted, forcing STO and SAFE, or refused. -/
  | scanRequest
  /-- FUSE_SVNUP (R394). FUSECMD OP SVNUP raises the SVN floor by one. -/
  | fuseSvnup (w : Who) (v : Word)
  /-- FUSE_REVOKE (R394). FUSECMD OP REVOKE revokes a key slot. -/
  | fuseRevoke (w : Who) (v : Word)
  /-- FUSE_LIFE (R394). FUSECMD OP LIFE advances the lifecycle state. -/
  | fuseLife (w : Who) (v : Word)
  /-- WEAR_ESTIMATE (R397). Every 100 ms junction temperature is estimated and rainflow damage updated. -/
  | wearEstimate (k : Fin 8) (iBar iRms : Word)
  /-- WEAR_RECORD_SAVE (R398). Hourly, and at SLEEP entry, the wear state is written to the wear records. -/
  | wearRecordSave
  /-- TELEMETRY_SAMPLE (R400). A sample that passes decimation is written into its telemetry stream. -/
  | telemetrySample (st : Fin 4) (sig : BitVec 20) (value : Word)
  /-- TELEMETRY_POP (R400). Writing BGS.TPOP advances a stream's QHEAD. -/
  | telemetryPop (w : Who) (st : Fin 4) (v : Word)
  /-- LOG_PAGE_WRITE (R405). A full page, or 1 s of pending entries, is written to the event log ring. -/
  | logPageWrite
  /-- FRAME_INTEGRITY_FAILURE (R76). A command frame whose opcode is not in the opcode table, or whose length or CRC fails, is answered with E_OPC, E_LEN or E_CRC and has no other effect. -/
  | frameIntegrityFailure (p : Fin 4) (words : List Word) (partialWord : Bool)
  /-- ILLEGAL_INSTRUCTION (R115). An engine fetches a word with a reserved major opcode, undefined FN or non-zero reserved field, or fetches outside its code segment, and the pass stops with ILLOP or CODELIM. -/
  | illegalInstruction (e : Fin 16)
  /-- DSM_PROTECTION_RELEASE (R275). At a modulator clock a DSM protection output releases, leaving its tripped or reset level once p is back inside HI − PHYS or LO + PHYS. The operands are the samples up to that clock, the last one apart. -/
  | dsmProtectionRelease (n : Fin 64) (earlier : List Int) (pv : Int)
  /-- HOST_TRANSPORT_FRAME_SENT (R378). A host-transport frame carrying a response or event records for an Ethernet-bound port leaves the MAC, and its entries leave their queue. -/
  | hostTransportFrameSent (n : Fin 4) (events : Bool) (cnt : Nat)
  /-- SAFE_OUTPUT_TEST_END (R340). An off-pulse or dark test of a safe output ends, its readback is judged, and an output whose on-demand arrived during a dark test turns on. -/
  | safeOutputTestEnd (j : Fin 4) (r : SoutReadback)
  deriving DecidableEq, Repr

end Sys2Proof
end

