-- ==== Sys2Proof/Config.lean ====
section
/-! DEFINITION. What an implementation fixes, and the free values: constants with no body, so that no proof can
depend on what they are. -/

namespace Sys2Proof

/-- A free 32-bit value for every use: the counter `State.freeCtr` picks the next one. It stands for NONCE and SID
(R357), the masks M (R123), the RTC error (R25), ring bytes the spec lays down no content for (R97), and every
result the spec leaves open. Log entry 3. -/
opaque Config.freeWord : Nat → Word

/-- The die identifier of SYS.UID (R409). Log entry 13. -/
opaque Config.uid : BitVec 64

/-- The value of DIR, ARG bit 8 of TASK_MAILBOX, that asks for a read: R82 names the bit and not its coding.
Log entry 4. -/
opaque Config.dirRead : Bool

/-- (ΔT / DTREF)^BETA / NREF in binary32, of R398, whose rounding of the power the spec does not state.
Arguments: ΔT, DTREF, BETA, NREF. Log entry 5. -/
opaque Config.wearPower : Word → Word → Word → Word → Word

/-- The words of an engine's local window (R36, R39) whose place in a segment no rule gives: a function of the address and
of what has been done with the local memories so far. Log entry 87. -/
opaque Config.windowWord : Nat → Nat → Word

/-- The correction trims the part leaves the factory with, as far as the spec states none. Log entry 13. -/
opaque Config.factoryTrim : Nat → Word

/-- What FMIN (false) and FMAX (true) give where an operand is NaN, of the native operands: R120 states no result.
Log entry 17. -/
opaque Config.minMaxNan : Bool → Word → Word → Word

end Sys2Proof
end

