-- ==== Sys2Proof/Machine/RegTypes.lean ====
section
/-! DEFINITION. The shape of a register descriptor: access types of R8, field checks of R9 step 8, and
the addressing of indexed registers (R407). -/

namespace Sys2Proof.Machine

/-- The access types of R8. -/
inductive FTy
  | ro | rw | wo | w1c | w1s | rwc | rwl
  deriving DecidableEq, Repr

/-- A check one field decides by itself (R9 step 8): E_ENUM above a greatest encoding, or E_RANGE outside a range. -/
inductive FChk
  | any
  | enumLe (n : Nat)
  | range (lo hi : Nat)
  deriving DecidableEq, Repr

/-- A field of a register: its low bit, its width, its access type and its own check. -/
structure Fld where
  lo : Nat
  w : Nat
  ty : FTy
  chk : FChk
  deriving DecidableEq, Repr

/-- A register, or a family of them at `base + s1 × i + s2 × j` (R407). Instance `i × n2 + j` has that
address. `rst` is the whole-word reset value: one for all instances, or one per instance. -/
structure Reg where
  base : Nat
  s1 : Nat
  n1 : Nat
  s2 : Nat
  n2 : Nat
  rst : List Nat
  flds : List Fld
  deriving DecidableEq, Repr

/-- A named field of a register. -/
structure FRef where
  reg : Reg
  lo : Nat
  w : Nat
  deriving DecidableEq, Repr

/-- A register block of R406 with its serving island of R434. -/
structure Block where
  base : Nat
  island : Nat
  regs : List Reg
  deriving Repr

/-- The byte address of instance `k` (R407). -/
def Reg.addr (r : Reg) (k : Nat) : Nat := r.base + r.s1 * (k / r.n2) + r.s2 * (k % r.n2)

/-- The reset word of instance `k` (R408). -/
def Reg.resetOf (r : Reg) (k : Nat) : Nat :=
  match r.rst with
  | [v] => v
  | l => l.getD k 0

/-- The instance of `r` mapped at address `a`, if any (R407). -/
def Reg.indexOf (r : Reg) (a : Nat) : Option Nat :=
  if a < r.base then none else
  let d := a - r.base
  let i := if r.s1 = 0 then 0 else min (d / r.s1) (r.n1 - 1)
  let e := d - r.s1 * i
  let j := if r.s2 = 0 then 0 else e / r.s2
  if i < r.n1 ∧ j < r.n2 ∧ e = r.s2 * j then some (i * r.n2 + j) else none

end Sys2Proof.Machine
end

