-- ==== Sys2Proof/Machine/RegMap.lean ====
section
/-! DEFINITION. The register map: one descriptor per register of spec/16_register_map.md (R406 to R412),
with the field layouts of the chapters it names, and one reference per field, named as the manual names it.
Field checks given here are those a single field decides (R9 step 8); the checks that need other fields or
other state stand in the families. -/

namespace Sys2Proof.Machine

/-- `SYS.IDCODE`, offset 0x0000. -/
def SYS.IDCODE : Reg := ⟨0x40000000, 0x0, 1, 0x0, 1, [0x7a108481],
  [⟨20, 12, .ro, .any⟩, ⟨4, 16, .ro, .any⟩, ⟨0, 4, .ro, .any⟩]⟩
def SYS.IDCODE_VENDOR : FRef := ⟨SYS.IDCODE, 20, 12⟩
def SYS.IDCODE_PART : FRef := ⟨SYS.IDCODE, 4, 16⟩
def SYS.IDCODE_FORM : FRef := ⟨SYS.IDCODE, 0, 4⟩
/-- `SYS.REV`, offset 0x0004. -/
def SYS.REV : Reg := ⟨0x40000004, 0x0, 1, 0x0, 1, [0x1001100],
  [⟨24, 8, .ro, .any⟩, ⟨12, 4, .ro, .any⟩, ⟨8, 4, .ro, .any⟩]⟩
def SYS.REV_MAPVER : FRef := ⟨SYS.REV, 24, 8⟩
def SYS.REV_STEP : FRef := ⟨SYS.REV, 12, 4⟩
def SYS.REV_METAL : FRef := ⟨SYS.REV, 8, 4⟩
/-- `SYS.UID_LO`, offset 0x0008. -/
def SYS.UID_LO : Reg := ⟨0x40000008, 0x0, 1, 0x0, 1, [0x0],
  [⟨0, 32, .ro, .any⟩]⟩
def SYS.UID_LO_VAL : FRef := ⟨SYS.UID_LO, 0, 32⟩
/-- `SYS.UID_HI`, offset 0x000C. -/
def SYS.UID_HI : Reg := ⟨0x4000000c, 0x0, 1, 0x0, 1, [0x0],
  [⟨0, 32, .ro, .any⟩]⟩
def SYS.UID_HI_VAL : FRef := ⟨SYS.UID_HI, 0, 32⟩
/-- `SYS.MODE`, offset 0x0020. -/
def SYS.MODE : Reg := ⟨0x40000020, 0x0, 1, 0x0, 1, [0x1],
  [⟨16, 4, .ro, .any⟩, ⟨12, 2, .ro, .any⟩, ⟨8, 3, .ro, .any⟩, ⟨4, 1, .ro, .any⟩, ⟨0, 3, .ro, .any⟩]⟩
def SYS.MODE_CAUSE : FRef := ⟨SYS.MODE, 16, 4⟩
def SYS.MODE_RQPORT : FRef := ⟨SYS.MODE, 12, 2⟩
def SYS.MODE_PREV : FRef := ⟨SYS.MODE, 8, 3⟩
def SYS.MODE_BENCH : FRef := ⟨SYS.MODE, 4, 1⟩
def SYS.MODE_CUR : FRef := ⟨SYS.MODE, 0, 3⟩
/-- `SYS.BOOT`, offset 0x0024. -/
def SYS.BOOT : Reg := ⟨0x40000024, 0x0, 1, 0x0, 1, [0x20000000],
  [⟨29, 3, .ro, .any⟩, ⟨16, 6, .ro, .any⟩, ⟨8, 5, .ro, .any⟩, ⟨7, 1, .ro, .any⟩, ⟨6, 1, .ro, .any⟩, ⟨4, 2, .ro, .any⟩, ⟨2, 2, .ro, .any⟩, ⟨0, 2, .ro, .any⟩]⟩
def SYS.BOOT_LIFE : FRef := ⟨SYS.BOOT, 29, 3⟩
def SYS.BOOT_SVNFLOOR : FRef := ⟨SYS.BOOT, 16, 6⟩
def SYS.BOOT_BISTISL : FRef := ⟨SYS.BOOT, 8, 5⟩
def SYS.BOOT_BISTFAIL : FRef := ⟨SYS.BOOT, 7, 1⟩
def SYS.BOOT_FALLBK : FRef := ⟨SYS.BOOT, 6, 1⟩
def SYS.BOOT_IMG : FRef := ⟨SYS.BOOT, 4, 2⟩
def SYS.BOOT_BCHK : FRef := ⟨SYS.BOOT, 2, 2⟩
def SYS.BOOT_ACHK : FRef := ⟨SYS.BOOT, 0, 2⟩
/-- `SYS.BOOTMEM`, offset 0x0028. -/
def SYS.BOOTMEM : Reg := ⟨0x40000028, 0x0, 1, 0x0, 1, [0x0],
  [⟨16, 16, .ro, .any⟩, ⟨0, 16, .ro, .any⟩]⟩
def SYS.BOOTMEM_ENGOFF : FRef := ⟨SYS.BOOTMEM, 16, 16⟩
def SYS.BOOTMEM_BANKOFF : FRef := ⟨SYS.BOOTMEM, 0, 16⟩
/-- `SYS.SUPPLY`, offset 0x002C. -/
def SYS.SUPPLY : Reg := ⟨0x4000002c, 0x0, 1, 0x0, 1, [0x0],
  [⟨0, 8, .w1c, .any⟩]⟩
def SYS.SUPPLY_UV : FRef := ⟨SYS.SUPPLY, 0, 8⟩
/-- `SYS.ISLCLK`, offset 0x0040. -/
def SYS.ISLCLK : Reg := ⟨0x40000040, 0x0, 1, 0x0, 1, [0x0],
  [⟨0, 26, .w1c, .any⟩]⟩
def SYS.ISLCLK_FAIL : FRef := ⟨SYS.ISLCLK, 0, 26⟩
/-- `SYS.XSTAT`, offset 0x0044. -/
def SYS.XSTAT : Reg := ⟨0x40000044, 0x0, 1, 0x0, 1, [0x0],
  [⟨24, 8, .ro, .any⟩, ⟨16, 1, .w1c, .any⟩, ⟨5, 5, .ro, .any⟩, ⟨0, 5, .ro, .any⟩]⟩
def SYS.XSTAT_RETRIES : FRef := ⟨SYS.XSTAT, 24, 8⟩
def SYS.XSTAT_FAIL : FRef := ⟨SYS.XSTAT, 16, 1⟩
def SYS.XSTAT_DST : FRef := ⟨SYS.XSTAT, 5, 5⟩
def SYS.XSTAT_SRC : FRef := ⟨SYS.XSTAT, 0, 5⟩
/-- `SYS.MEMERR`, offset 0x0048. -/
def SYS.MEMERR : Reg := ⟨0x40000048, 0x0, 1, 0x0, 1, [0x0],
  [⟨31, 1, .w1c, .any⟩, ⟨20, 1, .ro, .any⟩, ⟨16, 4, .ro, .any⟩, ⟨0, 16, .ro, .any⟩]⟩
def SYS.MEMERR_UNC : FRef := ⟨SYS.MEMERR, 31, 1⟩
def SYS.MEMERR_ULOCAL : FRef := ⟨SYS.MEMERR, 20, 1⟩
def SYS.MEMERR_UBANK : FRef := ⟨SYS.MEMERR, 16, 4⟩
def SYS.MEMERR_CORR : FRef := ⟨SYS.MEMERR, 0, 16⟩
/-- `SYS.RDSTAT`, offset 0x004C. -/
def SYS.RDSTAT : Reg := ⟨0x4000004c, 0x0, 1, 0x0, 1, [0x0],
  [⟨16, 16, .w1c, .any⟩, ⟨0, 4, .w1c, .any⟩]⟩
def SYS.RDSTAT_ETORN : FRef := ⟨SYS.RDSTAT, 16, 16⟩
def SYS.RDSTAT_TORN : FRef := ⟨SYS.RDSTAT, 0, 4⟩
/-- `TIME.TBASE_LO`, offset 0x0000. -/
def TIME.TBASE_LO : Reg := ⟨0x40010000, 0x0, 1, 0x0, 1, [0x0],
  [⟨0, 32, .ro, .any⟩]⟩
def TIME.TBASE_LO_VAL : FRef := ⟨TIME.TBASE_LO, 0, 32⟩
/-- `TIME.TBASE_HI`, offset 0x0004. -/
def TIME.TBASE_HI : Reg := ⟨0x40010004, 0x0, 1, 0x0, 1, [0x0],
  [⟨0, 32, .ro, .any⟩]⟩
def TIME.TBASE_HI_VAL : FRef := ⟨TIME.TBASE_HI, 0, 32⟩
/-- `TIME.STAT`, offset 0x0008. -/
def TIME.STAT : Reg := ⟨0x40010008, 0x0, 1, 0x0, 1, [0x0],
  [⟨2, 1, .w1c, .any⟩, ⟨1, 1, .w1c, .any⟩, ⟨0, 1, .w1c, .any⟩]⟩
def TIME.STAT_SLEPT : FRef := ⟨TIME.STAT, 2, 1⟩
def TIME.STAT_REFLOSS : FRef := ⟨TIME.STAT, 1, 1⟩
def TIME.STAT_GRAYERR : FRef := ⟨TIME.STAT, 0, 1⟩
/-- `HOST.RIGHTS`, offset 0x0000 + 0x4 × i, 4 of them. -/
def HOST.RIGHTS : Reg := ⟨0x40020000, 0x4, 4, 0x0, 1, [0x7ff, 0x100, 0x100, 0x100],
  [⟨10, 1, .rwl, .any⟩, ⟨9, 1, .rwl, .any⟩, ⟨8, 1, .rwl, .any⟩, ⟨0, 8, .rwl, .any⟩]⟩
def HOST.RIGHTS_SAFEOWN : FRef := ⟨HOST.RIGHTS, 10, 1⟩
def HOST.RIGHTS_IMAGE : FRef := ⟨HOST.RIGHTS, 9, 1⟩
def HOST.RIGHTS_TELEM : FRef := ⟨HOST.RIGHTS, 8, 1⟩
def HOST.RIGHTS_BRIDGE : FRef := ⟨HOST.RIGHTS, 0, 8⟩
/-- `HOST.PSTAT`, offset 0x0010 + 0x4 × i, 4 of them. -/
def HOST.PSTAT : Reg := ⟨0x40020010, 0x4, 4, 0x0, 1, [0x0],
  [⟨24, 8, .ro, .any⟩, ⟨16, 8, .ro, .any⟩, ⟨9, 1, .w1c, .any⟩, ⟨8, 1, .w1c, .any⟩, ⟨0, 2, .ro, .any⟩]⟩
def HOST.PSTAT_OVFCNT : FRef := ⟨HOST.PSTAT, 24, 8⟩
def HOST.PSTAT_OUTST : FRef := ⟨HOST.PSTAT, 16, 8⟩
def HOST.PSTAT_BADTX : FRef := ⟨HOST.PSTAT, 9, 1⟩
def HOST.PSTAT_OVF : FRef := ⟨HOST.PSTAT, 8, 1⟩
def HOST.PSTAT_LONG : FRef := ⟨HOST.PSTAT, 0, 2⟩
/-- `QUE.QBASE`, offset 0x0000 + 0x20 × i, 32 of them. -/
def QUE.QBASE : Reg := ⟨0x40030000, 0x20, 32, 0x0, 1, [0x1ff0000, 0x1ff0400, 0x1ff0800, 0x1ff0c00, 0x1ff1000, 0x1ff1400, 0x1ff1800, 0x1ff1c00, 0x1ff2000, 0x1ff3000, 0x1ff4000, 0x1ff5000, 0x1ff6000, 0x1ff7000, 0x1ff8000, 0x1ff9000, 0x0, 0x0, 0x0, 0x0, 0x0, 0x0, 0x0, 0x0, 0x0, 0x0, 0x0, 0x0, 0x0, 0x0, 0x0, 0x0],
  [⟨0, 32, .rwc, .any⟩]⟩
def QUE.QBASE_BASE : FRef := ⟨QUE.QBASE, 0, 32⟩
/-- `QUE.QCFG`, offset 0x0004 + 0x20 × i, 32 of them. -/
def QUE.QCFG : Reg := ⟨0x40030004, 0x20, 32, 0x0, 1, [0x80000006, 0x80000006, 0x80000006, 0x80000006, 0x80000006, 0x80000006, 0x80000006, 0x80000006, 0x80000008, 0x80000008, 0x80000008, 0x80000008, 0x80000008, 0x80000008, 0x80000008, 0x80000008, 0x104, 0x104, 0x104, 0x104, 0x104, 0x104, 0x104, 0x104, 0x104, 0x104, 0x104, 0x104, 0x4, 0x4, 0x4, 0x4],
  [⟨31, 1, .rwc, .any⟩, ⟨8, 2, .rwc, .any⟩, ⟨0, 5, .rwc, .range 4 16⟩]⟩
def QUE.QCFG_EN : FRef := ⟨QUE.QCFG, 31, 1⟩
def QUE.QCFG_ENTRY : FRef := ⟨QUE.QCFG, 8, 2⟩
def QUE.QCFG_LOG2N : FRef := ⟨QUE.QCFG, 0, 5⟩
/-- `QUE.QHEAD`, offset 0x0008 + 0x20 × i, 32 of them. -/
def QUE.QHEAD : Reg := ⟨0x40030008, 0x20, 32, 0x0, 1, [0x0],
  [⟨0, 32, .ro, .any⟩]⟩
def QUE.QHEAD_IDX : FRef := ⟨QUE.QHEAD, 0, 32⟩
/-- `QUE.QTAIL`, offset 0x000C + 0x20 × i, 32 of them. -/
def QUE.QTAIL : Reg := ⟨0x4003000c, 0x20, 32, 0x0, 1, [0x0],
  [⟨0, 32, .ro, .any⟩]⟩
def QUE.QTAIL_IDX : FRef := ⟨QUE.QTAIL, 0, 32⟩
/-- `QUE.QSTAT`, offset 0x0010 + 0x20 × i, 32 of them. -/
def QUE.QSTAT : Reg := ⟨0x40030010, 0x20, 32, 0x0, 1, [0x0],
  [⟨16, 16, .w1c, .any⟩, ⟨0, 1, .ro, .any⟩]⟩
def QUE.QSTAT_DROPS : FRef := ⟨QUE.QSTAT, 16, 16⟩
def QUE.QSTAT_FULL : FRef := ⟨QUE.QSTAT, 0, 1⟩
/-- `EVT.DOORBELL`, offset 0x0000. -/
def EVT.DOORBELL : Reg := ⟨0x40040000, 0x0, 1, 0x0, 1, [0x0],
  [⟨20, 8, .wo, .any⟩, ⟨0, 20, .wo, .any⟩]⟩
def EVT.DOORBELL_TAG : FRef := ⟨EVT.DOORBELL, 20, 8⟩
def EVT.DOORBELL_SRC : FRef := ⟨EVT.DOORBELL, 0, 20⟩
/-- `EVT.STAT`, offset 0x0004. -/
def EVT.STAT : Reg := ⟨0x40040004, 0x0, 1, 0x0, 1, [0x0],
  [⟨24, 8, .w1c, .any⟩, ⟨16, 8, .w1c, .any⟩, ⟨0, 11, .ro, .any⟩]⟩
def EVT.STAT_LOST : FRef := ⟨EVT.STAT, 24, 8⟩
def EVT.STAT_DISC : FRef := ⟨EVT.STAT, 16, 8⟩
def EVT.STAT_USED : FRef := ⟨EVT.STAT, 0, 11⟩
/-- `EVT.GRP`, offset 0x0100 + 0x4 × i, 64 of them. -/
def EVT.GRP : Reg := ⟨0x40040100, 0x4, 64, 0x0, 1, [0x8000000],
  [⟨31, 1, .rw, .any⟩, ⟨30, 1, .rw, .any⟩, ⟨24, 4, .rw, .enumLe 8⟩, ⟨0, 16, .rw, .any⟩]⟩
def EVT.GRP_MASK : FRef := ⟨EVT.GRP, 31, 1⟩
def EVT.GRP_CLS : FRef := ⟨EVT.GRP, 30, 1⟩
def EVT.GRP_TGT : FRef := ⟨EVT.GRP, 24, 4⟩
def EVT.GRP_HOLD : FRef := ⟨EVT.GRP, 0, 16⟩
/-- `EVT.QBIND`, offset 0x0200 + 0x4 × i, 4 of them. -/
def EVT.QBIND : Reg := ⟨0x40040200, 0x4, 4, 0x0, 1, [0x0],
  [⟨31, 1, .rw, .any⟩, ⟨0, 8, .rw, .any⟩]⟩
def EVT.QBIND_EN : FRef := ⟨EVT.QBIND, 31, 1⟩
def EVT.QBIND_TASK : FRef := ⟨EVT.QBIND, 0, 8⟩
/-- `EVT.QMOD`, offset 0x0220 + 0x4 × i, 8 of them. -/
def EVT.QMOD : Reg := ⟨0x40040220, 0x4, 8, 0x0, 1, [0x0],
  [⟨0, 10, .rw, .any⟩]⟩
def EVT.QMOD_WIN : FRef := ⟨EVT.QMOD, 0, 10⟩
/-- `EVT.PSLEEP`, offset 0x0240 + 0x4 × i, 4 of them. -/
def EVT.PSLEEP : Reg := ⟨0x40040240, 0x4, 4, 0x0, 1, [0x0],
  [⟨0, 1, .rw, .any⟩]⟩
def EVT.PSLEEP_ASLEEP : FRef := ⟨EVT.PSLEEP, 0, 1⟩
/-- `EVT.PWLO`, offset 0x0250 + 0x8 × i, 4 of them. -/
def EVT.PWLO : Reg := ⟨0x40040250, 0x8, 4, 0x0, 1, [0x0],
  [⟨0, 32, .rw, .any⟩]⟩
def EVT.PWLO_GRP : FRef := ⟨EVT.PWLO, 0, 32⟩
/-- `EVT.PWHI`, offset 0x0254 + 0x8 × i, 4 of them. -/
def EVT.PWHI : Reg := ⟨0x40040254, 0x8, 4, 0x0, 1, [0x0],
  [⟨0, 32, .rw, .any⟩]⟩
def EVT.PWHI_GRP : FRef := ⟨EVT.PWHI, 0, 32⟩
/-- `PLC.STAT`, offset 0x0000. -/
def PLC.STAT : Reg := ⟨0x40050000, 0x0, 1, 0x0, 1, [0x0],
  [⟨16, 8, .ro, .any⟩, ⟨8, 1, .ro, .any⟩, ⟨0, 5, .ro, .any⟩]⟩
def PLC.STAT_LOST : FRef := ⟨PLC.STAT, 16, 8⟩
def PLC.STAT_NOSPARE : FRef := ⟨PLC.STAT, 8, 1⟩
def PLC.STAT_SPARES : FRef := ⟨PLC.STAT, 0, 5⟩
/-- `PLC.HINT`, offset 0x0010 + 0x4 × i, 4 of them. -/
def PLC.HINT : Reg := ⟨0x40050010, 0x4, 4, 0x0, 1, [0x0],
  [⟨16, 16, .rw, .any⟩, ⟨0, 4, .rw, .any⟩]⟩
def PLC.HINT_AVOID : FRef := ⟨PLC.HINT, 16, 16⟩
def PLC.HINT_GROUP : FRef := ⟨PLC.HINT, 0, 4⟩
/-- `PLC.ESTAT`, offset 0x0100 + 0x4 × i, 16 of them. -/
def PLC.ESTAT : Reg := ⟨0x40050100, 0x4, 16, 0x0, 1, [0x0],
  [⟨29, 3, .ro, .any⟩, ⟨26, 3, .ro, .any⟩, ⟨16, 8, .ro, .any⟩, ⟨0, 11, .ro, .any⟩]⟩
def PLC.ESTAT_STATE : FRef := ⟨PLC.ESTAT, 29, 3⟩
def PLC.ESTAT_REASON : FRef := ⟨PLC.ESTAT, 26, 3⟩
def PLC.ESTAT_NTASK : FRef := ⟨PLC.ESTAT, 16, 8⟩
def PLC.ESTAT_UTIL : FRef := ⟨PLC.ESTAT, 0, 11⟩
/-- `PLC.TLOC`, offset 0x1000 + 0x4 × i, 256 of them. -/
def PLC.TLOC : Reg := ⟨0x40051000, 0x4, 256, 0x0, 1, [0x0],
  [⟨31, 1, .ro, .any⟩, ⟨30, 1, .ro, .any⟩, ⟨26, 1, .ro, .any⟩, ⟨25, 1, .ro, .any⟩, ⟨24, 1, .ro, .any⟩, ⟨16, 8, .ro, .any⟩, ⟨12, 4, .ro, .any⟩, ⟨8, 2, .ro, .any⟩, ⟨0, 4, .ro, .any⟩]⟩
def PLC.TLOC_VALID : FRef := ⟨PLC.TLOC, 31, 1⟩
def PLC.TLOC_MOVING : FRef := ⟨PLC.TLOC, 30, 1⟩
def PLC.TLOC_CSRAM : FRef := ⟨PLC.TLOC, 26, 1⟩
def PLC.TLOC_MSRAM : FRef := ⟨PLC.TLOC, 25, 1⟩
def PLC.TLOC_SSRAM : FRef := ⟨PLC.TLOC, 24, 1⟩
def PLC.TLOC_MOVES : FRef := ⟨PLC.TLOC, 16, 8⟩
def PLC.TLOC_GROUP : FRef := ⟨PLC.TLOC, 12, 4⟩
def PLC.TLOC_PORT : FRef := ⟨PLC.TLOC, 8, 2⟩
def PLC.TLOC_ENG : FRef := ⟨PLC.TLOC, 0, 4⟩
/-- `PYR.STAT`, offset 0x0000. -/
def PYR.STAT : Reg := ⟨0x40060000, 0x0, 1, 0x0, 1, [0x0],
  [⟨31, 1, .w1c, .any⟩, ⟨30, 1, .ro, .any⟩, ⟨24, 6, .ro, .any⟩, ⟨16, 8, .ro, .any⟩, ⟨8, 8, .ro, .any⟩, ⟨0, 8, .ro, .any⟩]⟩
def PYR.STAT_DBGDIV : FRef := ⟨PYR.STAT, 31, 1⟩
def PYR.STAT_CANFAIL : FRef := ⟨PYR.STAT, 30, 1⟩
def PYR.STAT_TCHG : FRef := ⟨PYR.STAT, 24, 6⟩
def PYR.STAT_PCNT : FRef := ⟨PYR.STAT, 16, 8⟩
def PYR.STAT_OCNT : FRef := ⟨PYR.STAT, 8, 8⟩
def PYR.STAT_WCNT : FRef := ⟨PYR.STAT, 0, 8⟩
/-- `PYR.ESUSP`, offset 0x0004. -/
def PYR.ESUSP : Reg := ⟨0x40060004, 0x0, 1, 0x0, 1, [0x0],
  [⟨0, 16, .ro, .any⟩]⟩
def PYR.ESUSP_SUSP : FRef := ⟨PYR.ESUSP, 0, 16⟩
/-- `PYR.LAST`, offset 0x0008. -/
def PYR.LAST : Reg := ⟨0x40060008, 0x0, 1, 0x0, 1, [0x0],
  [⟨28, 4, .ro, .any⟩, ⟨24, 4, .ro, .any⟩, ⟨16, 8, .ro, .any⟩, ⟨0, 7, .ro, .any⟩]⟩
def PYR.LAST_CAUSE : FRef := ⟨PYR.LAST, 28, 4⟩
def PYR.LAST_ENG : FRef := ⟨PYR.LAST, 24, 4⟩
def PYR.LAST_TASK : FRef := ⟨PYR.LAST, 16, 8⟩
def PYR.LAST_ITEM : FRef := ⟨PYR.LAST, 0, 7⟩
/-- `PYR.LASTTS_LO`, offset 0x000C. -/
def PYR.LASTTS_LO : Reg := ⟨0x4006000c, 0x0, 1, 0x0, 1, [0x0],
  [⟨0, 32, .ro, .any⟩]⟩
def PYR.LASTTS_LO_VAL : FRef := ⟨PYR.LASTTS_LO, 0, 32⟩
/-- `PYR.LASTTS_HI`, offset 0x0010. -/
def PYR.LASTTS_HI : Reg := ⟨0x40060010, 0x0, 1, 0x0, 1, [0x0],
  [⟨0, 32, .ro, .any⟩]⟩
def PYR.LASTTS_HI_VAL : FRef := ⟨PYR.LASTTS_HI, 0, 32⟩
/-- `PYR.BUFSTAT`, offset 0x0014. -/
def PYR.BUFSTAT : Reg := ⟨0x40060014, 0x0, 1, 0x0, 1, [0x0],
  [⟨0, 16, .ro, .any⟩]⟩
def PYR.BUFSTAT_CORR : FRef := ⟨PYR.BUFSTAT, 0, 16⟩
/-- `PYR.CANARY`, offset 0x0018. -/
def PYR.CANARY : Reg := ⟨0x40060018, 0x0, 1, 0x0, 1, [0x0],
  [⟨0, 7, .ro, .any⟩]⟩
def PYR.CANARY_POS : FRef := ⟨PYR.CANARY, 0, 7⟩
/-- `PYR.DBGCTL`, offset 0x0040. -/
def PYR.DBGCTL : Reg := ⟨0x40060040, 0x0, 1, 0x0, 1, [0x0],
  [⟨16, 1, .rwc, .any⟩, ⟨8, 4, .rwc, .any⟩, ⟨1, 1, .rwc, .any⟩, ⟨0, 1, .rwc, .any⟩]⟩
def PYR.DBGCTL_EN : FRef := ⟨PYR.DBGCTL, 16, 1⟩
def PYR.DBGCTL_ENG : FRef := ⟨PYR.DBGCTL, 8, 4⟩
def PYR.DBGCTL_STEP : FRef := ⟨PYR.DBGCTL, 1, 1⟩
def PYR.DBGCTL_HALT : FRef := ⟨PYR.DBGCTL, 0, 1⟩
/-- `PYR.DBGPC`, offset 0x0044. -/
def PYR.DBGPC : Reg := ⟨0x40060044, 0x0, 1, 0x0, 1, [0x0],
  [⟨31, 1, .ro, .any⟩, ⟨16, 8, .ro, .any⟩, ⟨0, 16, .ro, .any⟩]⟩
def PYR.DBGPC_HALTED : FRef := ⟨PYR.DBGPC, 31, 1⟩
def PYR.DBGPC_TASK : FRef := ⟨PYR.DBGPC, 16, 8⟩
def PYR.DBGPC_PC : FRef := ⟨PYR.DBGPC, 0, 16⟩
/-- `PYR.DBGTAG`, offset 0x0048. -/
def PYR.DBGTAG : Reg := ⟨0x40060048, 0x0, 1, 0x0, 1, [0x0],
  [⟨0, 32, .ro, .any⟩]⟩
def PYR.DBGTAG_TAG : FRef := ⟨PYR.DBGTAG, 0, 32⟩
/-- `PYR.DBGTYP`, offset 0x004C. -/
def PYR.DBGTYP : Reg := ⟨0x4006004c, 0x0, 1, 0x0, 1, [0x0],
  [⟨0, 32, .ro, .any⟩]⟩
def PYR.DBGTYP_TYP : FRef := ⟨PYR.DBGTYP, 0, 32⟩
/-- `PYR.DBGG`, offset 0x0080 + 0x4 × i, 32 of them. -/
def PYR.DBGG : Reg := ⟨0x40060080, 0x4, 32, 0x0, 1, [0x0],
  [⟨0, 32, .ro, .any⟩]⟩
def PYR.DBGG_VAL : FRef := ⟨PYR.DBGG, 0, 32⟩
/-- `GATE.CH`, offset 0x0000 + 0x10 × i, 48 of them. -/
def GATE.CH : Reg := ⟨0x40080000, 0x10, 48, 0x0, 1, [0x0],
  [⟨31, 1, .rwl, .any⟩, ⟨30, 1, .rwl, .any⟩, ⟨0, 17, .rwl, .range 0 128000⟩]⟩
def GATE.CH_EN : FRef := ⟨GATE.CH, 31, 1⟩
def GATE.CH_FLTCODE : FRef := ⟨GATE.CH, 30, 1⟩
def GATE.CH_DEADRISE : FRef := ⟨GATE.CH, 0, 17⟩
/-- `GATE.TRIM`, offset 0x0004 + 0x10 × i, 48 of them. -/
def GATE.TRIM : Reg := ⟨0x40080004, 0x10, 48, 0x0, 1, [0x0],
  [⟨16, 9, .ro, .any⟩, ⟨0, 9, .ro, .any⟩]⟩
def GATE.TRIM_AUTO : FRef := ⟨GATE.TRIM, 16, 9⟩
def GATE.TRIM_TASK : FRef := ⟨GATE.TRIM, 0, 9⟩
/-- `GATE.BRCFG`, offset 0x0400 + 0x20 × i, 8 of them. -/
def GATE.BRCFG : Reg := ⟨0x40080400, 0x20, 8, 0x0, 1, [0x800],
  [⟨29, 3, .rwl, .enumLe 4⟩, ⟨26, 3, .rwl, .any⟩, ⟨16, 8, .rwl, .any⟩, ⟨8, 8, .rwl, .any⟩, ⟨0, 8, .rwl, .any⟩]⟩
def GATE.BRCFG_TOPO : FRef := ⟨GATE.BRCFG, 29, 3⟩
def GATE.BRCFG_MASTER : FRef := ⟨GATE.BRCFG, 26, 3⟩
def GATE.BRCFG_NPCDLY : FRef := ⟨GATE.BRCFG, 16, 8⟩
def GATE.BRCFG_BSN : FRef := ⟨GATE.BRCFG, 8, 8⟩
def GATE.BRCFG_MINPULSE : FRef := ⟨GATE.BRCFG, 0, 8⟩
/-- `GATE.CAR`, offset 0x0404 + 0x20 × i, 8 of them. -/
def GATE.CAR : Reg := ⟨0x40080404, 0x20, 8, 0x0, 1, [0x2710],
  [⟨0, 18, .rwc, .range 1000 200000⟩]⟩
def GATE.CAR_PERIOD : FRef := ⟨GATE.CAR, 0, 18⟩
/-- `GATE.CPH`, offset 0x0408 + 0x20 × i, 8 of them. -/
def GATE.CPH : Reg := ⟨0x40080408, 0x20, 8, 0x0, 1, [0x28000000],
  [⟨24, 8, .rwl, .any⟩, ⟨0, 18, .rwc, .any⟩]⟩
def GATE.CPH_BSPULSE : FRef := ⟨GATE.CPH, 24, 8⟩
def GATE.CPH_PHASE : FRef := ⟨GATE.CPH, 0, 18⟩
/-- `GATE.SHARE`, offset 0x040C + 0x20 × i, 8 of them. -/
def GATE.SHARE : Reg := ⟨0x4008040c, 0x20, 8, 0x0, 1, [0x4],
  [⟨31, 1, .rwc, .any⟩, ⟨16, 6, .rwc, .any⟩, ⟨8, 6, .rwc, .any⟩, ⟨0, 4, .rwc, .range 0 8⟩]⟩
def GATE.SHARE_EN : FRef := ⟨GATE.SHARE, 31, 1⟩
def GATE.SHARE_FSRC : FRef := ⟨GATE.SHARE, 16, 6⟩
def GATE.SHARE_MSRC : FRef := ⟨GATE.SHARE, 8, 6⟩
def GATE.SHARE_KSH : FRef := ⟨GATE.SHARE, 0, 4⟩
/-- `GATE.SWFLT0`, offset 0x0600. -/
def GATE.SWFLT0 : Reg := ⟨0x40080600, 0x0, 1, 0x0, 1, [0x0],
  [⟨0, 32, .w1c, .any⟩]⟩
def GATE.SWFLT0_FLT : FRef := ⟨GATE.SWFLT0, 0, 32⟩
/-- `GATE.SWFLT1`, offset 0x0604. -/
def GATE.SWFLT1 : Reg := ⟨0x40080604, 0x0, 1, 0x0, 1, [0x0],
  [⟨0, 16, .w1c, .any⟩]⟩
def GATE.SWFLT1_FLT : FRef := ⟨GATE.SWFLT1, 0, 16⟩
/-- `GATE.SWCLS`, offset 0x0610 + 0x4 × i, 6 of them. -/
def GATE.SWCLS : Reg := ⟨0x40080610, 0x4, 6, 0x0, 1, [0x0],
  [⟨0, 4, .ro, .any⟩, ⟨4, 4, .ro, .any⟩, ⟨8, 4, .ro, .any⟩, ⟨12, 4, .ro, .any⟩, ⟨16, 4, .ro, .any⟩, ⟨20, 4, .ro, .any⟩, ⟨24, 4, .ro, .any⟩, ⟨28, 4, .ro, .any⟩]⟩
def GATE.SWCLS_CLS0 : FRef := ⟨GATE.SWCLS, 0, 4⟩
def GATE.SWCLS_CLS1 : FRef := ⟨GATE.SWCLS, 4, 4⟩
def GATE.SWCLS_CLS2 : FRef := ⟨GATE.SWCLS, 8, 4⟩
def GATE.SWCLS_CLS3 : FRef := ⟨GATE.SWCLS, 12, 4⟩
def GATE.SWCLS_CLS4 : FRef := ⟨GATE.SWCLS, 16, 4⟩
def GATE.SWCLS_CLS5 : FRef := ⟨GATE.SWCLS, 20, 4⟩
def GATE.SWCLS_CLS6 : FRef := ⟨GATE.SWCLS, 24, 4⟩
def GATE.SWCLS_CLS7 : FRef := ⟨GATE.SWCLS, 28, 4⟩
/-- `DCL.CFG`, offset 0x0000 + 0x40 × i, 4 of them. -/
def DCL.CFG : Reg := ⟨0x400a0000, 0x40, 4, 0x0, 1, [0x0],
  [⟨31, 1, .rwl, .any⟩, ⟨30, 1, .rwl, .any⟩, ⟨24, 6, .rwl, .any⟩, ⟨16, 5, .rwl, .any⟩, ⟨0, 8, .rwl, .any⟩]⟩
def DCL.CFG_EN : FRef := ⟨DCL.CFG, 31, 1⟩
def DCL.CFG_VKIND : FRef := ⟨DCL.CFG, 30, 1⟩
def DCL.CFG_VIDX : FRef := ⟨DCL.CFG, 24, 6⟩
def DCL.CFG_OVCMP : FRef := ⟨DCL.CFG, 16, 5⟩
def DCL.CFG_BRMASK : FRef := ⟨DCL.CFG, 0, 8⟩
/-- `DCL.BRK`, offset 0x0004 + 0x40 × i, 4 of them. -/
def DCL.BRK : Reg := ⟨0x400a0004, 0x40, 4, 0x0, 1, [0x64],
  [⟨30, 2, .rwl, .enumLe 2⟩, ⟨24, 5, .rwl, .any⟩, ⟨16, 8, .rwl, .any⟩, ⟨0, 10, .rwl, .any⟩]⟩
def DCL.BRK_MODE : FRef := ⟨DCL.BRK, 30, 2⟩
def DCL.BRK_ICMP : FRef := ⟨DCL.BRK, 24, 5⟩
def DCL.BRK_KB : FRef := ⟨DCL.BRK, 16, 8⟩
def DCL.BRK_BPER : FRef := ⟨DCL.BRK, 0, 10⟩
/-- `DCL.VTH`, offset 0x0008 + 0x40 × i, 4 of them. -/
def DCL.VTH : Reg := ⟨0x400a0008, 0x40, 4, 0x0, 1, [0x0],
  [⟨16, 16, .rwl, .any⟩, ⟨0, 16, .rwl, .any⟩]⟩
def DCL.VTH_VON : FRef := ⟨DCL.VTH, 16, 16⟩
def DCL.VTH_VOFF : FRef := ⟨DCL.VTH, 0, 16⟩
/-- `DCL.OV`, offset 0x000C + 0x40 × i, 4 of them. -/
def DCL.OV : Reg := ⟨0x400a000c, 0x40, 4, 0x0, 1, [0x0],
  [⟨16, 16, .rwl, .any⟩, ⟨0, 16, .rwl, .any⟩]⟩
def DCL.OV_VOV : FRef := ⟨DCL.OV, 16, 16⟩
def DCL.OV_VSAFE : FRef := ⟨DCL.OV, 0, 16⟩
/-- `DCL.BCUR`, offset 0x0010 + 0x40 × i, 4 of them. -/
def DCL.BCUR : Reg := ⟨0x400a0010, 0x40, 4, 0x0, 1, [0x0],
  [⟨16, 12, .rwl, .any⟩, ⟨0, 12, .rwl, .any⟩]⟩
def DCL.BCUR_IBMAX : FRef := ⟨DCL.BCUR, 16, 12⟩
def DCL.BCUR_IB0 : FRef := ⟨DCL.BCUR, 0, 12⟩
/-- `DCL.DSC`, offset 0x0014 + 0x40 × i, 4 of them. -/
def DCL.DSC : Reg := ⟨0x400a0014, 0x40, 4, 0x0, 1, [0x8801f4],
  [⟨31, 1, .rwl, .any⟩, ⟨28, 3, .rwl, .any⟩, ⟨20, 8, .rwl, .any⟩, ⟨12, 8, .rwl, .any⟩, ⟨0, 12, .rwl, .range 1 2000⟩]⟩
def DCL.DSC_WEN : FRef := ⟨DCL.DSC, 31, 1⟩
def DCL.DSC_WBR : FRef := ⟨DCL.DSC, 28, 3⟩
def DCL.DSC_WSPD : FRef := ⟨DCL.DSC, 20, 8⟩
def DCL.DSC_KCHK : FRef := ⟨DCL.DSC, 12, 8⟩
def DCL.DSC_TCHK : FRef := ⟨DCL.DSC, 0, 12⟩
/-- `DCL.STAT`, offset 0x001C + 0x40 × i, 4 of them. -/
def DCL.STAT : Reg := ⟨0x400a001c, 0x40, 4, 0x0, 1, [0x0],
  [⟨7, 1, .ro, .any⟩, ⟨6, 1, .w1c, .any⟩, ⟨5, 1, .w1c, .any⟩, ⟨4, 1, .w1c, .any⟩, ⟨3, 1, .ro, .any⟩, ⟨2, 1, .ro, .any⟩, ⟨1, 1, .ro, .any⟩, ⟨0, 1, .w1c, .any⟩]⟩
def DCL.STAT_WIND : FRef := ⟨DCL.STAT, 7, 1⟩
def DCL.STAT_DSCFAIL : FRef := ⟨DCL.STAT, 6, 1⟩
def DCL.STAT_DSCDONE : FRef := ⟨DCL.STAT, 5, 1⟩
def DCL.STAT_DSCSLOW : FRef := ⟨DCL.STAT, 4, 1⟩
def DCL.STAT_DSCON : FRef := ⟨DCL.STAT, 3, 1⟩
def DCL.STAT_BRKARM : FRef := ⟨DCL.STAT, 2, 1⟩
def DCL.STAT_BRKON : FRef := ⟨DCL.STAT, 1, 1⟩
def DCL.STAT_OVTRIP : FRef := ⟨DCL.STAT, 0, 1⟩
/-- `DCL.DSCCMD`, offset 0x0200. -/
def DCL.DSCCMD : Reg := ⟨0x400a0200, 0x0, 1, 0x0, 1, [0x0],
  [⟨4, 4, .w1s, .any⟩, ⟨0, 4, .w1s, .any⟩]⟩
def DCL.DSCCMD_STOP : FRef := ⟨DCL.DSCCMD, 4, 4⟩
def DCL.DSCCMD_GO : FRef := ⟨DCL.DSCCMD, 0, 4⟩
/-- `DSM.CLK`, offset 0x0000 + 0x4 × i, 8 of them. -/
def DSM.CLK : Reg := ⟨0x400c0000, 0x4, 8, 0x0, 1, [0x8],
  [⟨31, 1, .rwl, .any⟩, ⟨8, 6, .rwl, .any⟩, ⟨0, 6, .rwl, .range 8 40⟩]⟩
def DSM.CLK_EN : FRef := ⟨DSM.CLK, 31, 1⟩
def DSM.CLK_PH : FRef := ⟨DSM.CLK, 8, 6⟩
def DSM.CLK_DIV : FRef := ⟨DSM.CLK, 0, 6⟩
/-- `DSM.CH`, offset 0x0100 + 0x10 × i, 64 of them. -/
def DSM.CH : Reg := ⟨0x400c0100, 0x10, 64, 0x0, 1, [0x20f4000],
  [⟨31, 1, .rwl, .any⟩, ⟨28, 3, .rwl, .any⟩, ⟨24, 2, .rwl, .any⟩, ⟨16, 8, .rwl, .range 3 255⟩, ⟨8, 8, .rwl, .range 16 255⟩, ⟨0, 6, .rwl, .any⟩]⟩
def DSM.CH_EN : FRef := ⟨DSM.CH, 31, 1⟩
def DSM.CH_CLK : FRef := ⟨DSM.CH, 28, 3⟩
def DSM.CH_ORD : FRef := ⟨DSM.CH, 24, 2⟩
def DSM.CH_OSR : FRef := ⟨DSM.CH, 16, 8⟩
def DSM.CH_STUCK : FRef := ⟨DSM.CH, 8, 8⟩
def DSM.CH_DSKEW : FRef := ⟨DSM.CH, 0, 6⟩
/-- `DSM.GAIN`, offset 0x0104 + 0x10 × i, 64 of them. -/
def DSM.GAIN : Reg := ⟨0x400c0104, 0x10, 64, 0x0, 1, [0x40000000],
  [⟨0, 32, .rwl, .any⟩]⟩
def DSM.GAIN_GAIN : FRef := ⟨DSM.GAIN, 0, 32⟩
/-- `DSM.OFF`, offset 0x0108 + 0x10 × i, 64 of them. -/
def DSM.OFF : Reg := ⟨0x400c0108, 0x10, 64, 0x0, 1, [0x0],
  [⟨0, 32, .rwl, .any⟩]⟩
def DSM.OFF_OFF : FRef := ⟨DSM.OFF, 0, 32⟩
/-- `DSM.PTH`, offset 0x010C + 0x10 × i, 64 of them. -/
def DSM.PTH : Reg := ⟨0x400c010c, 0x10, 64, 0x0, 1, [0x20e001],
  [⟨16, 8, .rwl, .any⟩, ⟨8, 8, .rwl, .any⟩, ⟨0, 3, .rwl, .any⟩]⟩
def DSM.PTH_HI : FRef := ⟨DSM.PTH, 16, 8⟩
def DSM.PTH_LO : FRef := ⟨DSM.PTH, 8, 8⟩
def DSM.PTH_PHYS : FRef := ⟨DSM.PTH, 0, 3⟩
/-- `DSM.RES`, offset 0x0800 + 0x4 × i, 64 of them. -/
def DSM.RES : Reg := ⟨0x400c0800, 0x4, 64, 0x0, 1, [0x0],
  [⟨0, 32, .ro, .any⟩]⟩
def DSM.RES_VAL : FRef := ⟨DSM.RES, 0, 32⟩
/-- `DSM.STAT`, offset 0x0C00 + 0x4 × i, 64 of them. -/
def DSM.STAT : Reg := ⟨0x400c0c00, 0x4, 64, 0x0, 1, [0x30000000],
  [⟨31, 1, .ro, .any⟩, ⟨30, 1, .w1c, .any⟩, ⟨29, 1, .ro, .any⟩, ⟨28, 1, .ro, .any⟩, ⟨27, 1, .ro, .any⟩]⟩
def DSM.STAT_VALID : FRef := ⟨DSM.STAT, 31, 1⟩
def DSM.STAT_STUCK : FRef := ⟨DSM.STAT, 30, 1⟩
def DSM.STAT_PHI : FRef := ⟨DSM.STAT, 29, 1⟩
def DSM.STAT_PLO : FRef := ⟨DSM.STAT, 28, 1⟩
def DSM.STAT_SPARE : FRef := ⟨DSM.STAT, 27, 1⟩
/-- `DSM.RGRP`, offset 0x1000 + 0x8 × i, 32 of them. -/
def DSM.RGRP : Reg := ⟨0x400c1000, 0x8, 32, 0x0, 1, [0x0],
  [⟨31, 1, .rwl, .any⟩, ⟨30, 1, .rwl, .any⟩, ⟨27, 3, .rwl, .any⟩, ⟨14, 7, .rwl, .enumLe 87⟩, ⟨7, 7, .rwl, .enumLe 87⟩, ⟨0, 7, .rwl, .enumLe 87⟩]⟩
def DSM.RGRP_EN : FRef := ⟨DSM.RGRP, 31, 1⟩
def DSM.RGRP_TYPE : FRef := ⟨DSM.RGRP, 30, 1⟩
def DSM.RGRP_BR : FRef := ⟨DSM.RGRP, 27, 3⟩
def DSM.RGRP_C : FRef := ⟨DSM.RGRP, 14, 7⟩
def DSM.RGRP_B : FRef := ⟨DSM.RGRP, 7, 7⟩
def DSM.RGRP_A : FRef := ⟨DSM.RGRP, 0, 7⟩
/-- `DSM.RTOL`, offset 0x1004 + 0x8 × i, 32 of them. -/
def DSM.RTOL : Reg := ⟨0x400c1004, 0x8, 32, 0x0, 1, [0xccd],
  [⟨0, 16, .rwl, .any⟩]⟩
def DSM.RTOL_TOL : FRef := ⟨DSM.RTOL, 0, 16⟩
/-- `DSM.RSTAT`, offset 0x1200. -/
def DSM.RSTAT : Reg := ⟨0x400c1200, 0x0, 1, 0x0, 1, [0x0],
  [⟨0, 32, .w1c, .any⟩]⟩
def DSM.RSTAT_FAIL : FRef := ⟨DSM.RSTAT, 0, 32⟩
/-- `ADC.CFG`, offset 0x0000 + 0x10 × i, 24 of them. -/
def ADC.CFG : Reg := ⟨0x400d0000, 0x10, 24, 0x0, 1, [0x3f0000],
  [⟨30, 2, .rwl, .any⟩, ⟨29, 1, .rwl, .any⟩, ⟨22, 6, .rwl, .enumLe 47⟩, ⟨16, 6, .rwl, .any⟩]⟩
def ADC.CFG_MODE : FRef := ⟨ADC.CFG, 30, 2⟩
def ADC.CFG_PAIR : FRef := ⟨ADC.CFG, 29, 1⟩
def ADC.CFG_INP : FRef := ⟨ADC.CFG, 22, 6⟩
def ADC.CFG_INN : FRef := ⟨ADC.CFG, 16, 6⟩
/-- `ADC.TRG`, offset 0x0004 + 0x10 × i, 24 of them. -/
def ADC.TRG : Reg := ⟨0x400d0004, 0x10, 24, 0x0, 1, [0x0],
  [⟨30, 2, .rwc, .enumLe 2⟩, ⟨27, 3, .rwc, .any⟩, ⟨25, 2, .rwc, .enumLe 2⟩, ⟨0, 16, .rwc, .any⟩]⟩
def ADC.TRG_SRC : FRef := ⟨ADC.TRG, 30, 2⟩
def ADC.TRG_BR : FRef := ⟨ADC.TRG, 27, 3⟩
def ADC.TRG_EVT : FRef := ⟨ADC.TRG, 25, 2⟩
def ADC.TRG_DELAY : FRef := ⟨ADC.TRG, 0, 16⟩
/-- `ADC.TPER`, offset 0x0008 + 0x10 × i, 24 of them. -/
def ADC.TPER : Reg := ⟨0x400d0008, 0x10, 24, 0x0, 1, [0x4e20],
  [⟨0, 24, .rwc, .any⟩]⟩
def ADC.TPER_PER : FRef := ⟨ADC.TPER, 0, 24⟩
/-- `ADC.TPH`, offset 0x000C + 0x10 × i, 24 of them. -/
def ADC.TPH : Reg := ⟨0x400d000c, 0x10, 24, 0x0, 1, [0x0],
  [⟨0, 24, .rwc, .any⟩]⟩
def ADC.TPH_PH : FRef := ⟨ADC.TPH, 0, 24⟩
/-- `ADC.RES`, offset 0x0400 + 0x8 × i, 24 of them. -/
def ADC.RES : Reg := ⟨0x400d0400, 0x8, 24, 0x0, 1, [0x0],
  [⟨0, 32, .ro, .any⟩]⟩
def ADC.RES_VAL : FRef := ⟨ADC.RES, 0, 32⟩
/-- `ADC.RST`, offset 0x0404 + 0x8 × i, 24 of them. -/
def ADC.RST : Reg := ⟨0x400d0404, 0x8, 24, 0x0, 1, [0x0],
  [⟨31, 1, .ro, .any⟩, ⟨30, 1, .ro, .any⟩, ⟨29, 1, .ro, .any⟩]⟩
def ADC.RST_VALID : FRef := ⟨ADC.RST, 31, 1⟩
def ADC.RST_HALF : FRef := ⟨ADC.RST, 30, 1⟩
def ADC.RST_LATE : FRef := ⟨ADC.RST, 29, 1⟩
/-- `CMP.CFG`, offset 0x0000 + 0x10 × i, 32 of them. -/
def CMP.CFG : Reg := ⟨0x400e0000, 0x10, 32, 0x0, 1, [0x844],
  [⟨31, 1, .rwl, .any⟩, ⟨30, 1, .rwl, .any⟩, ⟨29, 1, .rwl, .any⟩, ⟨21, 6, .rwl, .enumLe 47⟩, ⟨11, 5, .rwl, .range 1 31⟩, ⟨6, 5, .rwl, .any⟩, ⟨0, 4, .rwl, .any⟩]⟩
def CMP.CFG_EN : FRef := ⟨CMP.CFG, 31, 1⟩
def CMP.CFG_RST : FRef := ⟨CMP.CFG, 30, 1⟩
def CMP.CFG_EVEN : FRef := ⟨CMP.CFG, 29, 1⟩
def CMP.CFG_AIN : FRef := ⟨CMP.CFG, 21, 6⟩
def CMP.CFG_FM : FRef := ⟨CMP.CFG, 11, 5⟩
def CMP.CFG_FN : FRef := ⟨CMP.CFG, 6, 5⟩
def CMP.CFG_HYS : FRef := ⟨CMP.CFG, 0, 4⟩
/-- `CMP.TH`, offset 0x0004 + 0x10 × i, 32 of them. -/
def CMP.TH : Reg := ⟨0x400e0004, 0x10, 32, 0x0, 1, [0xfff0000],
  [⟨16, 12, .rwl, .any⟩, ⟨0, 12, .rwl, .any⟩]⟩
def CMP.TH_HI : FRef := ⟨CMP.TH, 16, 12⟩
def CMP.TH_LO : FRef := ⟨CMP.TH, 0, 12⟩
/-- `CMP.ZERO`, offset 0x0008 + 0x10 × i, 32 of them. -/
def CMP.ZERO : Reg := ⟨0x400e0008, 0x10, 32, 0x0, 1, [0x800],
  [⟨0, 12, .rwl, .any⟩]⟩
def CMP.ZERO_ZERO : FRef := ⟨CMP.ZERO, 0, 12⟩
/-- `CMP.RAMP`, offset 0x0400 + 0x4 × i, 4 of them. -/
def CMP.RAMP : Reg := ⟨0x400e0400, 0x4, 4, 0x0, 1, [0x0],
  [⟨0, 12, .rwl, .any⟩]⟩
def CMP.RAMP_SLOPE : FRef := ⟨CMP.RAMP, 0, 12⟩
/-- `CMP.RDBK`, offset 0x0500. -/
def CMP.RDBK : Reg := ⟨0x400e0500, 0x0, 1, 0x0, 1, [0x0],
  [⟨31, 1, .rwc, .any⟩, ⟨30, 1, .rwc, .any⟩, ⟨29, 1, .ro, .any⟩, ⟨24, 5, .rwc, .any⟩, ⟨16, 5, .rwc, .range 0 23⟩]⟩
def CMP.RDBK_EN : FRef := ⟨CMP.RDBK, 31, 1⟩
def CMP.RDBK_SIDE : FRef := ⟨CMP.RDBK, 30, 1⟩
def CMP.RDBK_DONE : FRef := ⟨CMP.RDBK, 29, 1⟩
def CMP.RDBK_CMP : FRef := ⟨CMP.RDBK, 24, 5⟩
def CMP.RDBK_CONV : FRef := ⟨CMP.RDBK, 16, 5⟩
/-- `CMP.RDVAL`, offset 0x0504. -/
def CMP.RDVAL : Reg := ⟨0x400e0504, 0x0, 1, 0x0, 1, [0x0],
  [⟨0, 32, .ro, .any⟩]⟩
def CMP.RDVAL_VAL : FRef := ⟨CMP.RDVAL, 0, 32⟩
/-- `CMP.STAT`, offset 0x0600 + 0x4 × i, 2 of them. -/
def CMP.STAT : Reg := ⟨0x400e0600, 0x4, 2, 0x0, 1, [0x0],
  [⟨0, 32, .ro, .any⟩]⟩
def CMP.STAT_VAL : FRef := ⟨CMP.STAT, 0, 32⟩
/-- `POS.CFG`, offset 0x0000 + 0x80 × i, 8 of them. -/
def POS.CFG : Reg := ⟨0x40100000, 0x80, 8, 0x0, 1, [0x204ff0],
  [⟨31, 1, .rwl, .any⟩, ⟨28, 3, .rwl, .enumLe 5⟩, ⟨27, 1, .rwl, .any⟩, ⟨25, 2, .rwl, .enumLe 2⟩, ⟨24, 1, .rwl, .any⟩, ⟨20, 4, .rwl, .any⟩, ⟨12, 8, .rwl, .range 2 255⟩, ⟨4, 8, .rwl, .range 1 255⟩]⟩
def POS.CFG_EN : FRef := ⟨POS.CFG, 31, 1⟩
def POS.CFG_MODE : FRef := ⟨POS.CFG, 28, 3⟩
def POS.CFG_DIR : FRef := ⟨POS.CFG, 27, 1⟩
def POS.CFG_IDX : FRef := ⟨POS.CFG, 25, 2⟩
def POS.CFG_ZQUAL : FRef := ⟨POS.CFG, 24, 1⟩
def POS.CFG_GLITCH : FRef := ⟨POS.CFG, 20, 4⟩
def POS.CFG_WIRE : FRef := ⟨POS.CFG, 12, 8⟩
def POS.CFG_HOLD : FRef := ⟨POS.CFG, 4, 8⟩
/-- `POS.REV`, offset 0x0004 + 0x80 × i, 8 of them. -/
def POS.REV : Reg := ⟨0x40100004, 0x80, 8, 0x0, 1, [0xfff],
  [⟨24, 6, .rwl, .any⟩, ⟨0, 24, .rwl, .any⟩]⟩
def POS.REV_PP : FRef := ⟨POS.REV, 24, 6⟩
def POS.REV_CPR : FRef := ⟨POS.REV, 0, 24⟩
/-- `POS.EOFF`, offset 0x0008 + 0x80 × i, 8 of them. -/
def POS.EOFF : Reg := ⟨0x40100008, 0x80, 8, 0x0, 1, [0x0],
  [⟨0, 32, .rwl, .any⟩]⟩
def POS.EOFF_OFF : FRef := ⟨POS.EOFF, 0, 32⟩
/-- `POS.SPDFS`, offset 0x000C + 0x80 × i, 8 of them. -/
def POS.SPDFS : Reg := ⟨0x4010000c, 0x80, 8, 0x0, 1, [0x100000],
  [⟨0, 32, .rwl, .any⟩]⟩
def POS.SPDFS_FS : FRef := ⟨POS.SPDFS, 0, 32⟩
/-- `POS.SPDTMO`, offset 0x0010 + 0x80 × i, 8 of them. -/
def POS.SPDTMO : Reg := ⟨0x40100010, 0x80, 8, 0x0, 1, [0x3e8],
  [⟨16, 3, .rwl, .range 0 4⟩, ⟨0, 16, .rwl, .any⟩]⟩
def POS.SPDTMO_AVG : FRef := ⟨POS.SPDTMO, 16, 3⟩
def POS.SPDTMO_TMO : FRef := ⟨POS.SPDTMO, 0, 16⟩
/-- `POS.SER`, offset 0x0014 + 0x80 × i, 8 of them. -/
def POS.SER : Reg := ⟨0x40100014, 0x80, 8, 0x0, 1, [0x6180a140],
  [⟨26, 6, .rwl, .range 8 40⟩, ⟨21, 5, .rwl, .any⟩, ⟨20, 1, .rwl, .any⟩, ⟨19, 1, .rwl, .any⟩, ⟨11, 8, .rwl, .range 10 255⟩, ⟨4, 7, .rwl, .range 1 127⟩]⟩
def POS.SER_NBITS : FRef := ⟨POS.SER, 26, 6⟩
def POS.SER_STBITS : FRef := ⟨POS.SER, 21, 5⟩
def POS.SER_GRAY : FRef := ⟨POS.SER, 20, 1⟩
def POS.SER_PAR : FRef := ⟨POS.SER, 19, 1⟩
def POS.SER_DIV : FRef := ⟨POS.SER, 11, 8⟩
def POS.SER_TOUT : FRef := ⟨POS.SER, 4, 7⟩
/-- `POS.SERT`, offset 0x0018 + 0x80 × i, 8 of them. -/
def POS.SERT : Reg := ⟨0x40100018, 0x80, 8, 0x0, 1, [0x0],
  [⟨31, 1, .rwl, .any⟩, ⟨28, 3, .rwl, .any⟩, ⟨8, 18, .rwl, .any⟩, ⟨0, 8, .rwl, .any⟩]⟩
def POS.SERT_PEAK : FRef := ⟨POS.SERT, 31, 1⟩
def POS.SERT_BR : FRef := ⟨POS.SERT, 28, 3⟩
def POS.SERT_LEAD : FRef := ⟨POS.SERT, 8, 18⟩
def POS.SERT_SKEW : FRef := ⟨POS.SERT, 0, 8⟩
/-- `POS.RSLV`, offset 0x001C + 0x80 × i, 8 of them. -/
def POS.RSLV : Reg := ⟨0x4010001c, 0x80, 8, 0x0, 1, [0x48438],
  [⟨30, 2, .rwl, .any⟩, ⟨25, 5, .rwl, .range 0 23⟩, ⟨20, 5, .rwl, .range 0 23⟩, ⟨16, 4, .rwl, .any⟩, ⟨12, 4, .rwl, .any⟩, ⟨6, 6, .rwl, .any⟩, ⟨0, 6, .rwl, .any⟩]⟩
def POS.RSLV_EXC : FRef := ⟨POS.RSLV, 30, 2⟩
def POS.RSLV_CSIN : FRef := ⟨POS.RSLV, 25, 5⟩
def POS.RSLV_CCOS : FRef := ⟨POS.RSLV, 20, 5⟩
def POS.RSLV_KPS : FRef := ⟨POS.RSLV, 16, 4⟩
def POS.RSLV_KIS : FRef := ⟨POS.RSLV, 12, 4⟩
def POS.RSLV_AMIN : FRef := ⟨POS.RSLV, 6, 6⟩
def POS.RSLV_AMAX : FRef := ⟨POS.RSLV, 0, 6⟩
/-- `POS.IDXVAL`, offset 0x0020 + 0x80 × i, 8 of them. -/
def POS.IDXVAL : Reg := ⟨0x40100020, 0x80, 8, 0x0, 1, [0x0],
  [⟨0, 32, .rwl, .any⟩]⟩
def POS.IDXVAL_VAL : FRef := ⟨POS.IDXVAL, 0, 32⟩
/-- `POS.CMD`, offset 0x0024 + 0x80 × i, 8 of them. -/
def POS.CMD : Reg := ⟨0x40100024, 0x80, 8, 0x0, 1, [0x0],
  [⟨0, 1, .w1s, .any⟩]⟩
def POS.CMD_ARM : FRef := ⟨POS.CMD, 0, 1⟩
/-- `POS.CNT`, offset 0x0028 + 0x80 × i, 8 of them. -/
def POS.CNT : Reg := ⟨0x40100028, 0x80, 8, 0x0, 1, [0x0],
  [⟨0, 32, .ro, .any⟩]⟩
def POS.CNT_VAL : FRef := ⟨POS.CNT, 0, 32⟩
/-- `POS.SPEED`, offset 0x002C + 0x80 × i, 8 of them. -/
def POS.SPEED : Reg := ⟨0x4010002c, 0x80, 8, 0x0, 1, [0x0],
  [⟨0, 32, .ro, .any⟩]⟩
def POS.SPEED_VAL : FRef := ⟨POS.SPEED, 0, 32⟩
/-- `POS.ANG`, offset 0x0030 + 0x80 × i, 8 of them. -/
def POS.ANG : Reg := ⟨0x40100030, 0x80, 8, 0x0, 1, [0x0],
  [⟨0, 32, .ro, .any⟩]⟩
def POS.ANG_VAL : FRef := ⟨POS.ANG, 0, 32⟩
/-- `POS.STAT`, offset 0x0034 + 0x80 × i, 8 of them. -/
def POS.STAT : Reg := ⟨0x40100034, 0x80, 8, 0x0, 1, [0x10000],
  [⟨17, 1, .ro, .any⟩, ⟨16, 1, .ro, .any⟩, ⟨12, 4, .ro, .any⟩, ⟨8, 4, .w1c, .any⟩, ⟨7, 1, .ro, .any⟩, ⟨6, 1, .w1c, .any⟩, ⟨5, 1, .w1c, .any⟩, ⟨4, 1, .w1c, .any⟩, ⟨3, 1, .w1c, .any⟩, ⟨2, 1, .w1c, .any⟩, ⟨1, 1, .ro, .any⟩, ⟨0, 1, .ro, .any⟩]⟩
def POS.STAT_SPDSAT : FRef := ⟨POS.STAT, 17, 1⟩
def POS.STAT_STILL : FRef := ⟨POS.STAT, 16, 1⟩
def POS.STAT_CMPBEHIND : FRef := ⟨POS.STAT, 12, 4⟩
def POS.STAT_CMPFIRED : FRef := ⟨POS.STAT, 8, 4⟩
def POS.STAT_ARMED : FRef := ⟨POS.STAT, 7, 1⟩
def POS.STAT_IDXDONE : FRef := ⟨POS.STAT, 6, 1⟩
def POS.STAT_ENCERR : FRef := ⟨POS.STAT, 5, 1⟩
def POS.STAT_WIREERR : FRef := ⟨POS.STAT, 4, 1⟩
def POS.STAT_CRCERR : FRef := ⟨POS.STAT, 3, 1⟩
def POS.STAT_SEQERR : FRef := ⟨POS.STAT, 2, 1⟩
def POS.STAT_DIR : FRef := ⟨POS.STAT, 1, 1⟩
def POS.STAT_SPD_VALID : FRef := ⟨POS.STAT, 0, 1⟩
/-- `POS.CMPV`, offset 0x0040 + 0x80 × i, 8 of them, and + 0x8 × j, 4 each. -/
def POS.CMPV : Reg := ⟨0x40100040, 0x80, 8, 0x8, 4, [0x0],
  [⟨0, 32, .rw, .any⟩]⟩
def POS.CMPV_VAL : FRef := ⟨POS.CMPV, 0, 32⟩
/-- `POS.CMPC`, offset 0x0044 + 0x80 × i, 8 of them, and + 0x8 × j, 4 each. -/
def POS.CMPC : Reg := ⟨0x40100044, 0x80, 8, 0x8, 4, [0x0],
  [⟨31, 1, .rw, .any⟩, ⟨29, 2, .rw, .enumLe 2⟩, ⟨28, 1, .rw, .any⟩]⟩
def POS.CMPC_EN : FRef := ⟨POS.CMPC, 31, 1⟩
def POS.CMPC_DIRSEL : FRef := ⟨POS.CMPC, 29, 2⟩
def POS.CMPC_IMM : FRef := ⟨POS.CMPC, 28, 1⟩
/-- `POS.CMPTS`, offset 0x0060 + 0x80 × i, 8 of them, and + 0x4 × j, 4 each. -/
def POS.CMPTS : Reg := ⟨0x40100060, 0x80, 8, 0x4, 4, [0x0],
  [⟨0, 32, .ro, .any⟩]⟩
def POS.CMPTS_TS : FRef := ⟨POS.CMPTS, 0, 32⟩
/-- `POS.EMUCFG`, offset 0x0800 + 0x10 × i, 4 of them. -/
def POS.EMUCFG : Reg := ⟨0x40100800, 0x10, 4, 0x0, 1, [0x51000],
  [⟨31, 1, .rwl, .any⟩, ⟨28, 3, .rwl, .any⟩, ⟨26, 2, .rwl, .enumLe 2⟩, ⟨16, 8, .rwl, .range 5 255⟩, ⟨0, 16, .rwl, .any⟩]⟩
def POS.EMUCFG_EN : FRef := ⟨POS.EMUCFG, 31, 1⟩
def POS.EMUCFG_SRC : FRef := ⟨POS.EMUCFG, 28, 3⟩
def POS.EMUCFG_ZMODE : FRef := ⟨POS.EMUCFG, 26, 2⟩
def POS.EMUCFG_MINGAP : FRef := ⟨POS.EMUCFG, 16, 8⟩
def POS.EMUCFG_ZCPR : FRef := ⟨POS.EMUCFG, 0, 16⟩
/-- `POS.EMUDIV`, offset 0x0804 + 0x10 × i, 4 of them. -/
def POS.EMUDIV : Reg := ⟨0x40100804, 0x10, 4, 0x0, 1, [0x10001],
  [⟨16, 16, .rwl, .any⟩, ⟨0, 16, .rwl, .any⟩]⟩
def POS.EMUDIV_N : FRef := ⟨POS.EMUDIV, 16, 16⟩
def POS.EMUDIV_M : FRef := ⟨POS.EMUDIV, 0, 16⟩
/-- `POS.EMUST`, offset 0x0808 + 0x10 × i, 4 of them. -/
def POS.EMUST : Reg := ⟨0x40100808, 0x10, 4, 0x0, 1, [0x0],
  [⟨2, 1, .ro, .any⟩, ⟨1, 1, .w1c, .any⟩, ⟨0, 1, .w1c, .any⟩]⟩
def POS.EMUST_HOLD : FRef := ⟨POS.EMUST, 2, 1⟩
def POS.EMUST_SKIP : FRef := ⟨POS.EMUST, 1, 1⟩
def POS.EMUST_OVF : FRef := ⟨POS.EMUST, 0, 1⟩
/-- `POS.EXC`, offset 0x0900 + 0x4 × i, 4 of them. -/
def POS.EXC : Reg := ⟨0x40100900, 0x4, 4, 0x0, 1, [0x1004e20],
  [⟨31, 1, .rwl, .any⟩, ⟨17, 8, .rwl, .any⟩, ⟨0, 17, .rwl, .range 10000 100000⟩]⟩
def POS.EXC_EN : FRef := ⟨POS.EXC, 31, 1⟩
def POS.EXC_AMP : FRef := ⟨POS.EXC, 17, 8⟩
def POS.EXC_PER : FRef := ⟨POS.EXC, 0, 17⟩
/-- `CTL.AXCFG`, offset 0x0000 + 0x40 × i, 8 of them. -/
def CTL.AXCFG : Reg := ⟨0x40120000, 0x40, 8, 0x0, 1, [0x0],
  [⟨31, 1, .rwc, .any⟩, ⟨30, 1, .rwc, .any⟩, ⟨28, 2, .rwc, .enumLe 2⟩, ⟨27, 1, .rwc, .any⟩, ⟨24, 3, .rwc, .any⟩, ⟨21, 3, .rwc, .any⟩, ⟨19, 2, .rwc, .enumLe 1⟩, ⟨16, 1, .rwc, .any⟩, ⟨8, 8, .rwc, .any⟩, ⟨0, 3, .rwc, .any⟩]⟩
def CTL.AXCFG_EN : FRef := ⟨CTL.AXCFG, 31, 1⟩
def CTL.AXCFG_SS1 : FRef := ⟨CTL.AXCFG, 30, 1⟩
def CTL.AXCFG_ALT : FRef := ⟨CTL.AXCFG, 28, 2⟩
def CTL.AXCFG_SLESS : FRef := ⟨CTL.AXCFG, 27, 1⟩
def CTL.AXCFG_ALTPORT : FRef := ⟨CTL.AXCFG, 24, 3⟩
def CTL.AXCFG_PORT : FRef := ⟨CTL.AXCFG, 21, 3⟩
def CTL.AXCFG_CMDSRC : FRef := ⟨CTL.AXCFG, 19, 2⟩
def CTL.AXCFG_NPC : FRef := ⟨CTL.AXCFG, 16, 1⟩
def CTL.AXCFG_TASK : FRef := ⟨CTL.AXCFG, 8, 8⟩
def CTL.AXCFG_BR : FRef := ⟨CTL.AXCFG, 0, 3⟩
/-- `CTL.AXTLM`, offset 0x0004 + 0x40 × i, 8 of them. -/
def CTL.AXTLM : Reg := ⟨0x40120004, 0x40, 8, 0x0, 1, [0x0],
  [⟨31, 1, .rwc, .any⟩, ⟨24, 5, .rwc, .any⟩, ⟨23, 1, .rwc, .any⟩, ⟨16, 5, .rwc, .any⟩, ⟨15, 1, .rwc, .any⟩, ⟨8, 5, .rwc, .any⟩, ⟨7, 1, .rwc, .any⟩, ⟨0, 5, .rwc, .any⟩]⟩
def CTL.AXTLM_VMAGEN : FRef := ⟨CTL.AXTLM, 31, 1⟩
def CTL.AXTLM_VMAG : FRef := ⟨CTL.AXTLM, 24, 5⟩
def CTL.AXTLM_LQEN : FRef := ⟨CTL.AXTLM, 23, 1⟩
def CTL.AXTLM_LQ : FRef := ⟨CTL.AXTLM, 16, 5⟩
def CTL.AXTLM_SPDEN : FRef := ⟨CTL.AXTLM, 15, 1⟩
def CTL.AXTLM_SPD : FRef := ⟨CTL.AXTLM, 8, 5⟩
def CTL.AXTLM_FEEN : FRef := ⟨CTL.AXTLM, 7, 1⟩
def CTL.AXTLM_FE : FRef := ⟨CTL.AXTLM, 0, 5⟩
/-- `CTL.AXMB`, offset 0x0008 + 0x40 × i, 8 of them. -/
def CTL.AXMB : Reg := ⟨0x40120008, 0x40, 8, 0x0, 1, [0x0],
  [⟨0, 10, .rwc, .any⟩]⟩
def CTL.AXMB_MBOFF : FRef := ⟨CTL.AXMB, 0, 10⟩
/-- `CTL.AXRATE`, offset 0x000C + 0x40 × i, 8 of them. -/
def CTL.AXRATE : Reg := ⟨0x4012000c, 0x40, 8, 0x0, 1, [0xccd],
  [⟨16, 16, .rwc, .any⟩, ⟨0, 16, .rwc, .any⟩]⟩
def CTL.AXRATE_RAMPRATE : FRef := ⟨CTL.AXRATE, 16, 16⟩
def CTL.AXRATE_VSTALE : FRef := ⟨CTL.AXRATE, 0, 16⟩
/-- `CTL.AXLIM`, offset 0x0010 + 0x40 × i, 8 of them. -/
def CTL.AXLIM : Reg := ⟨0x40120010, 0x40, 8, 0x0, 1, [0x10006000],
  [⟨16, 16, .rwc, .any⟩, ⟨0, 16, .rwc, .any⟩]⟩
def CTL.AXLIM_FELIM : FRef := ⟨CTL.AXLIM, 16, 16⟩
def CTL.AXLIM_LQMIN : FRef := ⟨CTL.AXLIM, 0, 16⟩
/-- `CTL.AXSPD`, offset 0x0014 + 0x40 × i, 8 of them. -/
def CTL.AXSPD : Reg := ⟨0x40120014, 0x40, 8, 0x0, 1, [0x6660052],
  [⟨16, 16, .rwc, .any⟩, ⟨0, 16, .rwc, .any⟩]⟩
def CTL.AXSPD_CATCHSPD : FRef := ⟨CTL.AXSPD, 16, 16⟩
def CTL.AXSPD_STANDSPD : FRef := ⟨CTL.AXSPD, 0, 16⟩
/-- `CTL.AXTIM`, offset 0x0018 + 0x40 × i, 8 of them. -/
def CTL.AXTIM : Reg := ⟨0x40120018, 0x40, 8, 0x0, 1, [0x6443214],
  [⟨20, 12, .rwc, .any⟩, ⟨16, 4, .rwc, .any⟩, ⟨8, 8, .rwc, .any⟩, ⟨0, 8, .rwc, .any⟩]⟩
def CTL.AXTIM_FETMO : FRef := ⟨CTL.AXTIM, 20, 12⟩
def CTL.AXTIM_CONFN : FRef := ⟨CTL.AXTIM, 16, 4⟩
def CTL.AXTIM_BRKTMO : FRef := ⟨CTL.AXTIM, 8, 8⟩
def CTL.AXTIM_TREACQ : FRef := ⟨CTL.AXTIM, 0, 8⟩
/-- `CTL.AXSAMP`, offset 0x001C + 0x40 × i, 8 of them. -/
def CTL.AXSAMP : Reg := ⟨0x4012001c, 0x40, 8, 0x0, 1, [0x140064],
  [⟨24, 8, .rwc, .any⟩, ⟨20, 1, .rwc, .any⟩, ⟨16, 4, .rwc, .any⟩, ⟨8, 8, .rwc, .any⟩, ⟨0, 8, .rwc, .any⟩]⟩
def CTL.AXSAMP_XBR : FRef := ⟨CTL.AXSAMP, 24, 8⟩
def CTL.AXSAMP_SKIPREACT : FRef := ⟨CTL.AXSAMP, 20, 1⟩
def CTL.AXSAMP_SKIPMAX : FRef := ⟨CTL.AXSAMP, 16, 4⟩
def CTL.AXSAMP_DLY : FRef := ⟨CTL.AXSAMP, 8, 8⟩
def CTL.AXSAMP_GUARD : FRef := ⟨CTL.AXSAMP, 0, 8⟩
/-- `CTL.AXCMD`, offset 0x0020 + 0x40 × i, 8 of them. -/
def CTL.AXCMD : Reg := ⟨0x40120020, 0x40, 8, 0x0, 1, [0x0],
  [⟨1, 1, .w1s, .any⟩, ⟨0, 1, .w1s, .any⟩]⟩
def CTL.AXCMD_STOP : FRef := ⟨CTL.AXCMD, 1, 1⟩
def CTL.AXCMD_START : FRef := ⟨CTL.AXCMD, 0, 1⟩
/-- `CTL.AXHREF`, offset 0x0024 + 0x40 × i, 8 of them. -/
def CTL.AXHREF : Reg := ⟨0x40120024, 0x40, 8, 0x0, 1, [0x0],
  [⟨0, 32, .rw, .any⟩]⟩
def CTL.AXHREF_REF : FRef := ⟨CTL.AXHREF, 0, 32⟩
/-- `CTL.AXST`, offset 0x0028 + 0x40 × i, 8 of them. -/
def CTL.AXST : Reg := ⟨0x40120028, 0x40, 8, 0x0, 1, [0x0],
  [⟨28, 4, .ro, .any⟩, ⟨16, 8, .ro, .any⟩, ⟨8, 1, .w1c, .any⟩, ⟨7, 1, .ro, .any⟩, ⟨6, 1, .w1c, .any⟩, ⟨5, 1, .w1c, .any⟩, ⟨4, 1, .w1c, .any⟩, ⟨3, 1, .w1c, .any⟩, ⟨2, 1, .w1c, .any⟩, ⟨1, 1, .w1c, .any⟩]⟩
def CTL.AXST_STATE : FRef := ⟨CTL.AXST, 28, 4⟩
def CTL.AXST_SKIPRUN : FRef := ⟨CTL.AXST, 16, 8⟩
def CTL.AXST_CMDLOSS : FRef := ⟨CTL.AXST, 8, 1⟩
def CTL.AXST_ALTACT : FRef := ⟨CTL.AXST, 7, 1⟩
def CTL.AXST_BRKFAIL : FRef := ⟨CTL.AXST, 6, 1⟩
def CTL.AXST_REACQFAIL : FRef := ⟨CTL.AXST, 5, 1⟩
def CTL.AXST_LOCKLOST : FRef := ⟨CTL.AXST, 4, 1⟩
def CTL.AXST_FBLOST : FRef := ⟨CTL.AXST, 3, 1⟩
def CTL.AXST_FEEXP : FRef := ⟨CTL.AXST, 2, 1⟩
def CTL.AXST_SKIPLIM : FRef := ⟨CTL.AXST, 1, 1⟩
/-- `CTL.CMDCFG`, offset 0x0400 + 0x20 × i, 8 of them. -/
def CTL.CMDCFG : Reg := ⟨0x40120400, 0x20, 8, 0x0, 1, [0xa00],
  [⟨24, 5, .rwc, .any⟩, ⟨20, 2, .rwc, .enumLe 2⟩, ⟨19, 1, .rwc, .any⟩, ⟨16, 3, .rwc, .any⟩, ⟨8, 8, .rwc, .any⟩, ⟨0, 2, .rwc, .any⟩]⟩
def CTL.CMDCFG_SH : FRef := ⟨CTL.CMDCFG, 24, 5⟩
def CTL.CMDCFG_REACT : FRef := ⟨CTL.CMDCFG, 20, 2⟩
def CTL.CMDCFG_ZEROOK : FRef := ⟨CTL.CMDCFG, 19, 1⟩
def CTL.CMDCFG_FILT : FRef := ⟨CTL.CMDCFG, 16, 3⟩
def CTL.CMDCFG_TMO : FRef := ⟨CTL.CMDCFG, 8, 8⟩
def CTL.CMDCFG_MODE : FRef := ⟨CTL.CMDCFG, 0, 2⟩
/-- `CTL.CMDOFF`, offset 0x0404 + 0x20 × i, 8 of them. -/
def CTL.CMDOFF : Reg := ⟨0x40120404, 0x20, 8, 0x0, 1, [0x0],
  [⟨0, 32, .rwc, .any⟩]⟩
def CTL.CMDOFF_X0 : FRef := ⟨CTL.CMDOFF, 0, 32⟩
/-- `CTL.CMDGAIN`, offset 0x0408 + 0x20 × i, 8 of them. -/
def CTL.CMDGAIN : Reg := ⟨0x40120408, 0x20, 8, 0x0, 1, [0x0],
  [⟨0, 32, .rwc, .any⟩]⟩
def CTL.CMDGAIN_GAIN : FRef := ⟨CTL.CMDGAIN, 0, 32⟩
/-- `CTL.CMDLIM`, offset 0x040C + 0x20 × i, 8 of them. -/
def CTL.CMDLIM : Reg := ⟨0x4012040c, 0x20, 8, 0x0, 1, [0xffff0000],
  [⟨16, 16, .rwc, .any⟩, ⟨0, 16, .rwc, .any⟩]⟩
def CTL.CMDLIM_HILIM : FRef := ⟨CTL.CMDLIM, 16, 16⟩
def CTL.CMDLIM_LOLIM : FRef := ⟨CTL.CMDLIM, 0, 16⟩
/-- `CTL.CMDST`, offset 0x0410 + 0x20 × i, 8 of them. -/
def CTL.CMDST : Reg := ⟨0x40120410, 0x20, 8, 0x0, 1, [0x0],
  [⟨31, 1, .ro, .any⟩, ⟨30, 1, .w1c, .any⟩, ⟨29, 1, .ro, .any⟩, ⟨0, 16, .ro, .any⟩]⟩
def CTL.CMDST_VALID : FRef := ⟨CTL.CMDST, 31, 1⟩
def CTL.CMDST_LOSS : FRef := ⟨CTL.CMDST, 30, 1⟩
def CTL.CMDST_CLIP : FRef := ⟨CTL.CMDST, 29, 1⟩
def CTL.CMDST_RAW : FRef := ⟨CTL.CMDST, 0, 16⟩
/-- `CTL.TFLT`, offset 0x4000 + 0x8 × i, 256 of them. -/
def CTL.TFLT : Reg := ⟨0x40124000, 0x8, 256, 0x0, 1, [0x0],
  [⟨30, 2, .ro, .any⟩, ⟨24, 4, .ro, .any⟩, ⟨0, 16, .ro, .any⟩]⟩
def CTL.TFLT_PASS : FRef := ⟨CTL.TFLT, 30, 2⟩
def CTL.TFLT_CNT : FRef := ⟨CTL.TFLT, 24, 4⟩
def CTL.TFLT_PC : FRef := ⟨CTL.TFLT, 0, 16⟩
/-- `CTL.TFCD`, offset 0x4004 + 0x8 × i, 256 of them. -/
def CTL.TFCD : Reg := ⟨0x40124004, 0x8, 256, 0x0, 1, [0x0],
  [⟨24, 8, .ro, .any⟩, ⟨0, 16, .ro, .any⟩]⟩
def CTL.TFCD_CAUSE : FRef := ⟨CTL.TFCD, 24, 8⟩
def CTL.TFCD_ERR : FRef := ⟨CTL.TFCD, 0, 16⟩
/-- `CTL.TRUN`, offset 0x4800 + 0x4 × i, 256 of them. -/
def CTL.TRUN : Reg := ⟨0x40124800, 0x4, 256, 0x0, 1, [0x0],
  [⟨24, 8, .ro, .any⟩, ⟨22, 2, .ro, .any⟩, ⟨0, 16, .ro, .any⟩]⟩
def CTL.TRUN_LATE : FRef := ⟨CTL.TRUN, 24, 8⟩
def CTL.TRUN_SEND : FRef := ⟨CTL.TRUN, 22, 2⟩
def CTL.TRUN_RUNLEFT : FRef := ⟨CTL.TRUN, 0, 16⟩
/-- `CTL.TREAS`, offset 0x4C00 + 0x4 × i, 256 of them. -/
def CTL.TREAS : Reg := ⟨0x40124c00, 0x4, 256, 0x0, 1, [0x0],
  [⟨24, 2, .ro, .any⟩, ⟨16, 3, .ro, .any⟩, ⟨0, 16, .ro, .any⟩]⟩
def CTL.TREAS_CODE : FRef := ⟨CTL.TREAS, 24, 2⟩
def CTL.TREAS_GROUP : FRef := ⟨CTL.TREAS, 16, 3⟩
def CTL.TREAS_REASON : FRef := ⟨CTL.TREAS, 0, 16⟩
/-- `SAFE.STAT`, offset 0x0000. -/
def SAFE.STAT : Reg := ⟨0x40140000, 0x0, 1, 0x0, 1, [0xe000000],
  [⟨31, 1, .ro, .any⟩, ⟨30, 1, .ro, .any⟩, ⟨29, 1, .ro, .any⟩, ⟨28, 1, .ro, .any⟩, ⟨25, 3, .ro, .any⟩, ⟨24, 1, .ro, .any⟩, ⟨23, 1, .ro, .any⟩, ⟨22, 1, .ro, .any⟩, ⟨21, 1, .w1c, .any⟩, ⟨20, 1, .ro, .any⟩, ⟨0, 8, .ro, .any⟩]⟩
def SAFE.STAT_GUAR : FRef := ⟨SAFE.STAT, 31, 1⟩
def SAFE.STAT_LOCKED : FRef := ⟨SAFE.STAT, 30, 1⟩
def SAFE.STAT_RSTOK : FRef := ⟨SAFE.STAT, 29, 1⟩
def SAFE.STAT_SESS : FRef := ⟨SAFE.STAT, 28, 1⟩
def SAFE.STAT_GWHY : FRef := ⟨SAFE.STAT, 25, 3⟩
def SAFE.STAT_STOFLT : FRef := ⟨SAFE.STAT, 24, 1⟩
def SAFE.STAT_STOA : FRef := ⟨SAFE.STAT, 23, 1⟩
def SAFE.STAT_STOB : FRef := ⟨SAFE.STAT, 22, 1⟩
def SAFE.STAT_RSTHELD : FRef := ⟨SAFE.STAT, 21, 1⟩
def SAFE.STAT_RSTSTUCK : FRef := ⟨SAFE.STAT, 20, 1⟩
def SAFE.STAT_ACT : FRef := ⟨SAFE.STAT, 0, 8⟩
/-- `SAFE.GCFG`, offset 0x0004. -/
def SAFE.GCFG : Reg := ⟨0x40140004, 0x0, 1, 0x0, 1, [0x140001],
  [⟨30, 2, .rwl, .enumLe 2⟩, ⟨29, 1, .rwl, .any⟩, ⟨16, 8, .rwl, .range 1 255⟩, ⟨0, 2, .rwl, .any⟩]⟩
def SAFE.GCFG_GREACT : FRef := ⟨SAFE.GCFG, 30, 2⟩
def SAFE.GCFG_DEVSAFE : FRef := ⟨SAFE.GCFG, 29, 1⟩
def SAFE.GCFG_STODISC : FRef := ⟨SAFE.GCFG, 16, 8⟩
def SAFE.GCFG_NV : FRef := ⟨SAFE.GCFG, 0, 2⟩
/-- `SAFE.TPO`, offset 0x0008. -/
def SAFE.TPO : Reg := ⟨0x40140008, 0x0, 1, 0x0, 1, [0x7d0064],
  [⟨24, 8, .rwl, .any⟩, ⟨14, 10, .rwl, .range 100 1000⟩, ⟨0, 8, .rwl, .range 10 255⟩]⟩
def SAFE.TPO_EN : FRef := ⟨SAFE.TPO, 24, 8⟩
def SAFE.TPO_TPW : FRef := ⟨SAFE.TPO, 14, 10⟩
def SAFE.TPO_TPP : FRef := ⟨SAFE.TPO, 0, 8⟩
/-- `SAFE.SIN`, offset 0x0010 + 0x4 × i, 8 of them. -/
def SAFE.SIN : Reg := ⟨0x40140010, 0x4, 8, 0x0, 1, [0x8800502],
  [⟨31, 1, .rwl, .any⟩, ⟨30, 1, .rwl, .any⟩, ⟨24, 4, .rwl, .enumLe 8⟩, ⟨20, 4, .rwl, .enumLe 8⟩, ⟨8, 6, .rwl, .range 1 50⟩, ⟨0, 6, .rwl, .range 1 50⟩]⟩
def SAFE.SIN_EN : FRef := ⟨SAFE.SIN, 31, 1⟩
def SAFE.SIN_TYPE : FRef := ⟨SAFE.SIN, 30, 1⟩
def SAFE.SIN_TPA : FRef := ⟨SAFE.SIN, 24, 4⟩
def SAFE.SIN_TPB : FRef := ⟨SAFE.SIN, 20, 4⟩
def SAFE.SIN_FILT : FRef := ⟨SAFE.SIN, 8, 6⟩
def SAFE.SIN_DISC : FRef := ⟨SAFE.SIN, 0, 6⟩
/-- `SAFE.MAP`, offset 0x0030 + 0x4 × i, 8 of them. -/
def SAFE.MAP : Reg := ⟨0x40140030, 0x4, 8, 0x0, 1, [0x0],
  [⟨28, 4, .rwl, .enumLe 6⟩, ⟨26, 2, .rwl, .any⟩, ⟨0, 8, .rwl, .any⟩]⟩
def SAFE.MAP_FN : FRef := ⟨SAFE.MAP, 28, 4⟩
def SAFE.MAP_LSEL : FRef := ⟨SAFE.MAP, 26, 2⟩
def SAFE.MAP_MASK : FRef := ⟨SAFE.MAP, 0, 8⟩
/-- `SAFE.SINST`, offset 0x0050 + 0x4 × i, 8 of them. -/
def SAFE.SINST : Reg := ⟨0x40140050, 0x4, 8, 0x0, 1, [0x80000000],
  [⟨31, 1, .ro, .any⟩, ⟨30, 1, .ro, .any⟩, ⟨28, 2, .ro, .any⟩, ⟨27, 1, .ro, .any⟩, ⟨26, 1, .ro, .any⟩]⟩
def SAFE.SINST_DEMAND : FRef := ⟨SAFE.SINST, 31, 1⟩
def SAFE.SINST_PAIRFLT : FRef := ⟨SAFE.SINST, 30, 1⟩
def SAFE.SINST_FCAUSE : FRef := ⟨SAFE.SINST, 28, 2⟩
def SAFE.SINST_LEVA : FRef := ⟨SAFE.SINST, 27, 1⟩
def SAFE.SINST_LEVB : FRef := ⟨SAFE.SINST, 26, 1⟩
/-- `SAFE.SOUT`, offset 0x0070 + 0x4 × i, 4 of them. -/
def SAFE.SOUT : Reg := ⟨0x40140070, 0x4, 4, 0x0, 1, [0xc864],
  [⟨30, 2, .rwl, .enumLe 2⟩, ⟨27, 3, .rwl, .any⟩, ⟨8, 9, .rwl, .range 50 400⟩, ⟨0, 8, .rwl, .range 10 100⟩]⟩
def SAFE.SOUT_SRC : FRef := ⟨SAFE.SOUT, 30, 2⟩
def SAFE.SOUT_AX : FRef := ⟨SAFE.SOUT, 27, 3⟩
def SAFE.SOUT_OPW : FRef := ⟨SAFE.SOUT, 8, 9⟩
def SAFE.SOUT_TEST : FRef := ⟨SAFE.SOUT, 0, 8⟩
/-- `SAFE.SOUTST`, offset 0x0080 + 0x4 × i, 4 of them. -/
def SAFE.SOUTST : Reg := ⟨0x40140080, 0x4, 4, 0x0, 1, [0x0],
  [⟨31, 1, .ro, .any⟩, ⟨30, 1, .ro, .any⟩, ⟨28, 2, .ro, .any⟩, ⟨27, 1, .ro, .any⟩]⟩
def SAFE.SOUTST_ON : FRef := ⟨SAFE.SOUTST, 31, 1⟩
def SAFE.SOUTST_FLT : FRef := ⟨SAFE.SOUTST, 30, 1⟩
def SAFE.SOUTST_FCAUSE : FRef := ⟨SAFE.SOUTST, 28, 2⟩
def SAFE.SOUTST_TESTING : FRef := ⟨SAFE.SOUTST, 27, 1⟩
/-- `SAFE.FN`, offset 0x0100 + 0x20 × i, 8 of them. -/
def SAFE.FN : Reg := ⟨0x40140100, 0x20, 8, 0x0, 1, [0x666],
  [⟨31, 1, .rwl, .any⟩, ⟨28, 3, .rwl, .any⟩, ⟨27, 1, .rwl, .any⟩, ⟨24, 3, .rwl, .any⟩, ⟨23, 1, .rwl, .any⟩, ⟨22, 1, .rwl, .any⟩, ⟨0, 16, .rwl, .any⟩]⟩
def SAFE.FN_EN : FRef := ⟨SAFE.FN, 31, 1⟩
def SAFE.FN_PORT : FRef := ⟨SAFE.FN, 28, 3⟩
def SAFE.FN_P2EN : FRef := ⟨SAFE.FN, 27, 1⟩
def SAFE.FN_PORT2 : FRef := ⟨SAFE.FN, 24, 3⟩
def SAFE.FN_SS1R : FRef := ⟨SAFE.FN, 23, 1⟩
def SAFE.FN_REACT : FRef := ⟨SAFE.FN, 22, 1⟩
def SAFE.FN_PTOL : FRef := ⟨SAFE.FN, 0, 16⟩
/-- `SAFE.SS1`, offset 0x0104 + 0x20 × i, 8 of them. -/
def SAFE.SS1 : Reg := ⟨0x40140104, 0x20, 8, 0x0, 1, [0x13880000],
  [⟨16, 16, .rwl, .any⟩, ⟨0, 16, .rwl, .any⟩]⟩
def SAFE.SS1_T : FRef := ⟨SAFE.SS1, 16, 16⟩
def SAFE.SS1_DEC : FRef := ⟨SAFE.SS1, 0, 16⟩
/-- `SAFE.SS1B`, offset 0x0108 + 0x20 × i, 8 of them. -/
def SAFE.SS1B : Reg := ⟨0x40140108, 0x20, 8, 0x0, 1, [0x520333],
  [⟨16, 16, .rwl, .any⟩, ⟨0, 16, .rwl, .any⟩]⟩
def SAFE.SS1B_VZERO : FRef := ⟨SAFE.SS1B, 16, 16⟩
def SAFE.SS1B_TOL : FRef := ⟨SAFE.SS1B, 0, 16⟩
/-- `SAFE.SLSA`, offset 0x010C + 0x20 × i, 8 of them. -/
def SAFE.SLSA : Reg := ⟨0x4014010c, 0x20, 8, 0x0, 1, [0xccd0ccd],
  [⟨16, 16, .rwl, .any⟩, ⟨0, 16, .rwl, .any⟩]⟩
def SAFE.SLSA_L1 : FRef := ⟨SAFE.SLSA, 16, 16⟩
def SAFE.SLSA_L0 : FRef := ⟨SAFE.SLSA, 0, 16⟩
/-- `SAFE.SLSB`, offset 0x0110 + 0x20 × i, 8 of them. -/
def SAFE.SLSB : Reg := ⟨0x40140110, 0x20, 8, 0x0, 1, [0xccd0ccd],
  [⟨16, 16, .rwl, .any⟩, ⟨0, 16, .rwl, .any⟩]⟩
def SAFE.SLSB_L3 : FRef := ⟨SAFE.SLSB, 16, 16⟩
def SAFE.SLSB_L2 : FRef := ⟨SAFE.SLSB, 0, 16⟩
/-- `SAFE.SLDI`, offset 0x0114 + 0x20 × i, 8 of them. -/
def SAFE.SLDI : Reg := ⟨0x40140114, 0x20, 8, 0x0, 1, [0x3e800010],
  [⟨20, 12, .rwl, .any⟩, ⟨10, 10, .rwl, .range 0 1000⟩, ⟨0, 10, .rwl, .range 1 1023⟩]⟩
def SAFE.SLDI_TTR : FRef := ⟨SAFE.SLDI, 20, 12⟩
def SAFE.SLDI_TSBC : FRef := ⟨SAFE.SLDI, 10, 10⟩
def SAFE.SLDI_DTOL : FRef := ⟨SAFE.SLDI, 0, 10⟩
/-- `SAFE.FST`, offset 0x011C + 0x20 × i, 8 of them. -/
def SAFE.FST : Reg := ⟨0x4014011c, 0x20, 8, 0x0, 1, [0x0],
  [⟨31, 1, .ro, .any⟩, ⟨30, 1, .ro, .any⟩, ⟨29, 1, .ro, .any⟩, ⟨28, 1, .ro, .any⟩, ⟨27, 1, .ro, .any⟩, ⟨26, 1, .ro, .any⟩, ⟨16, 4, .ro, .any⟩, ⟨0, 16, .ro, .any⟩]⟩
def SAFE.FST_STO : FRef := ⟨SAFE.FST, 31, 1⟩
def SAFE.FST_SS1 : FRef := ⟨SAFE.FST, 30, 1⟩
def SAFE.FST_SLS : FRef := ⟨SAFE.FST, 29, 1⟩
def SAFE.FST_SDI : FRef := ⟨SAFE.FST, 28, 1⟩
def SAFE.FST_LATCH : FRef := ⟨SAFE.FST, 27, 1⟩
def SAFE.FST_SPDFLT : FRef := ⟨SAFE.FST, 26, 1⟩
def SAFE.FST_VCAUSE : FRef := ⟨SAFE.FST, 16, 4⟩
def SAFE.FST_VS : FRef := ⟨SAFE.FST, 0, 16⟩
/-- `SAFE.CONN`, offset 0x0200 + 0x10 × i, 16 of them. -/
def SAFE.CONN : Reg := ⟨0x40140200, 0x10, 16, 0x0, 1, [0x0],
  [⟨31, 1, .rwl, .any⟩, ⟨30, 1, .rwl, .any⟩, ⟨27, 3, .rwl, .enumLe 4⟩, ⟨26, 1, .rwl, .any⟩, ⟨16, 8, .rwl, .any⟩, ⟨0, 16, .rwl, .any⟩]⟩
def SAFE.CONN_EN : FRef := ⟨SAFE.CONN, 31, 1⟩
def SAFE.CONN_DIR : FRef := ⟨SAFE.CONN, 30, 1⟩
def SAFE.CONN_NETS : FRef := ⟨SAFE.CONN, 27, 3⟩
def SAFE.CONN_REACT : FRef := ⟨SAFE.CONN, 26, 1⟩
def SAFE.CONN_MAP : FRef := ⟨SAFE.CONN, 16, 8⟩
def SAFE.CONN_ID : FRef := ⟨SAFE.CONN, 0, 16⟩
/-- `SAFE.CTIM`, offset 0x0204 + 0x10 × i, 16 of them. -/
def SAFE.CTIM : Reg := ⟨0x40140204, 0x10, 16, 0x0, 1, [0x14140a00],
  [⟨24, 8, .rwl, .range 2 255⟩, ⟨16, 8, .rwl, .range 1 100⟩, ⟨8, 8, .rwl, .range 1 255⟩, ⟨0, 3, .rwl, .any⟩]⟩
def SAFE.CTIM_WD : FRef := ⟨SAFE.CTIM, 24, 8⟩
def SAFE.CTIM_WIN : FRef := ⟨SAFE.CTIM, 16, 8⟩
def SAFE.CTIM_TXPER : FRef := ⟨SAFE.CTIM, 8, 8⟩
def SAFE.CTIM_TXAX : FRef := ⟨SAFE.CTIM, 0, 3⟩
/-- `SAFE.CSEED`, offset 0x0208 + 0x10 × i, 16 of them. -/
def SAFE.CSEED : Reg := ⟨0x40140208, 0x10, 16, 0x0, 1, [0x0],
  [⟨0, 32, .rwl, .any⟩]⟩
def SAFE.CSEED_SEED : FRef := ⟨SAFE.CSEED, 0, 32⟩
/-- `SAFE.CST`, offset 0x020C + 0x10 × i, 16 of them. -/
def SAFE.CST : Reg := ⟨0x4014020c, 0x10, 16, 0x0, 1, [0x0],
  [⟨31, 1, .ro, .any⟩, ⟨30, 1, .ro, .any⟩, ⟨29, 1, .ro, .any⟩, ⟨27, 2, .ro, .any⟩, ⟨16, 8, .ro, .any⟩, ⟨0, 16, .ro, .any⟩]⟩
def SAFE.CST_OK : FRef := ⟨SAFE.CST, 31, 1⟩
def SAFE.CST_DEGR : FRef := ⟨SAFE.CST, 30, 1⟩
def SAFE.CST_FAULT : FRef := ⟨SAFE.CST, 29, 1⟩
def SAFE.CST_FCAUSE : FRef := ⟨SAFE.CST, 27, 2⟩
def SAFE.CST_BADCNT : FRef := ⟨SAFE.CST, 16, 8⟩
def SAFE.CST_SEQLO : FRef := ⟨SAFE.CST, 0, 16⟩
/-- `SAFE.SESS`, offset 0x0300. -/
def SAFE.SESS : Reg := ⟨0x40140300, 0x0, 1, 0x0, 1, [0x0],
  [⟨31, 1, .ro, .any⟩, ⟨30, 1, .ro, .any⟩, ⟨29, 1, .ro, .any⟩, ⟨27, 2, .ro, .any⟩, ⟨24, 2, .ro, .any⟩, ⟨16, 8, .ro, .any⟩, ⟨0, 16, .ro, .any⟩]⟩
def SAFE.SESS_OPEN : FRef := ⟨SAFE.SESS, 31, 1⟩
def SAFE.SESS_UNLOCK : FRef := ⟨SAFE.SESS, 30, 1⟩
def SAFE.SESS_CONF : FRef := ⟨SAFE.SESS, 29, 1⟩
def SAFE.SESS_FAILS : FRef := ⟨SAFE.SESS, 27, 2⟩
def SAFE.SESS_OWNER : FRef := ⟨SAFE.SESS, 24, 2⟩
def SAFE.SESS_SEEDS : FRef := ⟨SAFE.SESS, 16, 8⟩
def SAFE.SESS_SID : FRef := ⟨SAFE.SESS, 0, 16⟩
/-- `CAN.CFG`, offset 0x0000 + 0x1000 × i, 4 of them. -/
def CAN.CFG : Reg := ⟨0x40160000, 0x1000, 4, 0x0, 1, [0x800000],
  [⟨31, 1, .rw, .any⟩, ⟨28, 3, .rwc, .enumLe 3⟩, ⟨27, 1, .rwc, .any⟩, ⟨26, 1, .rwc, .any⟩, ⟨25, 1, .rwc, .any⟩, ⟨24, 1, .rwc, .any⟩, ⟨23, 1, .rwc, .any⟩, ⟨22, 1, .rwc, .any⟩, ⟨21, 1, .rwc, .any⟩, ⟨16, 4, .rwc, .any⟩, ⟨0, 11, .rwc, .range 0 2032⟩]⟩
def CAN.CFG_EN : FRef := ⟨CAN.CFG, 31, 1⟩
def CAN.CFG_MODE : FRef := ⟨CAN.CFG, 28, 3⟩
def CAN.CFG_FDOE : FRef := ⟨CAN.CFG, 27, 1⟩
def CAN.CFG_BRSE : FRef := ⟨CAN.CFG, 26, 1⟩
def CAN.CFG_TRIPLE : FRef := ⟨CAN.CFG, 25, 1⟩
def CAN.CFG_ONESHOT : FRef := ⟨CAN.CFG, 24, 1⟩
def CAN.CFG_AUTOREC : FRef := ⟨CAN.CFG, 23, 1⟩
def CAN.CFG_PXHD : FRef := ⟨CAN.CFG, 22, 1⟩
def CAN.CFG_NOMATCH : FRef := ⟨CAN.CFG, 21, 1⟩
def CAN.CFG_HPORTS : FRef := ⟨CAN.CFG, 16, 4⟩
def CAN.CFG_SAFEID : FRef := ⟨CAN.CFG, 0, 11⟩
/-- `CAN.NBT`, offset 0x0004 + 0x1000 × i, 4 of them. -/
def CAN.NBT : Reg := ⟨0x40160004, 0x1000, 4, 0x0, 1, [0x3f1f1f],
  [⟨23, 9, .rwc, .any⟩, ⟨15, 8, .rwc, .any⟩, ⟨8, 7, .rwc, .any⟩, ⟨0, 7, .rwc, .any⟩]⟩
def CAN.NBT_NBRP : FRef := ⟨CAN.NBT, 23, 9⟩
def CAN.NBT_NTSEG1 : FRef := ⟨CAN.NBT, 15, 8⟩
def CAN.NBT_NTSEG2 : FRef := ⟨CAN.NBT, 8, 7⟩
def CAN.NBT_NSJW : FRef := ⟨CAN.NBT, 0, 7⟩
/-- `CAN.DBT`, offset 0x0008 + 0x1000 × i, 4 of them. -/
def CAN.DBT : Reg := ⟨0x40160008, 0x1000, 4, 0x0, 1, [0x38ce400],
  [⟨27, 5, .rwc, .any⟩, ⟨22, 5, .rwc, .any⟩, ⟨18, 4, .rwc, .any⟩, ⟨14, 4, .rwc, .any⟩, ⟨13, 1, .rwc, .any⟩, ⟨6, 7, .rwc, .any⟩]⟩
def CAN.DBT_DBRP : FRef := ⟨CAN.DBT, 27, 5⟩
def CAN.DBT_DTSEG1 : FRef := ⟨CAN.DBT, 22, 5⟩
def CAN.DBT_DTSEG2 : FRef := ⟨CAN.DBT, 18, 4⟩
def CAN.DBT_DSJW : FRef := ⟨CAN.DBT, 14, 4⟩
def CAN.DBT_TDCEN : FRef := ⟨CAN.DBT, 13, 1⟩
def CAN.DBT_TDCO : FRef := ⟨CAN.DBT, 6, 7⟩
/-- `CAN.STAT`, offset 0x000C + 0x1000 × i, 4 of them. -/
def CAN.STAT : Reg := ⟨0x4016000c, 0x1000, 4, 0x0, 1, [0x0],
  [⟨24, 8, .ro, .any⟩, ⟨23, 1, .ro, .any⟩, ⟨16, 7, .ro, .any⟩, ⟨14, 2, .ro, .any⟩, ⟨11, 3, .ro, .any⟩, ⟨10, 1, .w1c, .any⟩, ⟨9, 1, .w1c, .any⟩, ⟨8, 1, .w1c, .any⟩, ⟨7, 1, .w1c, .any⟩, ⟨6, 1, .ro, .any⟩, ⟨0, 6, .ro, .any⟩]⟩
def CAN.STAT_TEC : FRef := ⟨CAN.STAT, 24, 8⟩
def CAN.STAT_RP : FRef := ⟨CAN.STAT, 23, 1⟩
def CAN.STAT_REC : FRef := ⟨CAN.STAT, 16, 7⟩
def CAN.STAT_FCS : FRef := ⟨CAN.STAT, 14, 2⟩
def CAN.STAT_LEC : FRef := ⟨CAN.STAT, 11, 3⟩
def CAN.STAT_PXE : FRef := ⟨CAN.STAT, 10, 1⟩
def CAN.STAT_HPOVR : FRef := ⟨CAN.STAT, 9, 1⟩
def CAN.STAT_HPNEW : FRef := ⟨CAN.STAT, 8, 1⟩
def CAN.STAT_CMPERR : FRef := ⟨CAN.STAT, 7, 1⟩
def CAN.STAT_TSVALID : FRef := ⟨CAN.STAT, 6, 1⟩
def CAN.STAT_HPSEQ : FRef := ⟨CAN.STAT, 0, 6⟩
/-- `CAN.TREF`, offset 0x0010 + 0x1000 × i, 4 of them. -/
def CAN.TREF : Reg := ⟨0x40160010, 0x1000, 4, 0x0, 1, [0xa0000],
  [⟨30, 2, .rwc, .enumLe 2⟩, ⟨16, 12, .rwc, .range 1 4095⟩, ⟨0, 11, .rwc, .any⟩]⟩
def CAN.TREF_ROLE : FRef := ⟨CAN.TREF, 30, 2⟩
def CAN.TREF_PERIOD : FRef := ⟨CAN.TREF, 16, 12⟩
def CAN.TREF_ID : FRef := ⟨CAN.TREF, 0, 11⟩
/-- `CAN.TOFS_LO`, offset 0x0014 + 0x1000 × i, 4 of them. -/
def CAN.TOFS_LO : Reg := ⟨0x40160014, 0x1000, 4, 0x0, 1, [0x0],
  [⟨0, 32, .ro, .any⟩]⟩
def CAN.TOFS_LO_VAL : FRef := ⟨CAN.TOFS_LO, 0, 32⟩
/-- `CAN.TOFS_HI`, offset 0x0018 + 0x1000 × i, 4 of them. -/
def CAN.TOFS_HI : Reg := ⟨0x40160018, 0x1000, 4, 0x0, 1, [0x0],
  [⟨0, 32, .ro, .any⟩]⟩
def CAN.TOFS_HI_VAL : FRef := ⟨CAN.TOFS_HI, 0, 32⟩
/-- `CAN.TXBUF`, offset 0x001C + 0x1000 × i, 4 of them. -/
def CAN.TXBUF : Reg := ⟨0x4016001c, 0x1000, 4, 0x0, 1, [0x0],
  [⟨0, 32, .rwc, .any⟩]⟩
def CAN.TXBUF_BASE : FRef := ⟨CAN.TXBUF, 0, 32⟩
/-- `CAN.RXBUF`, offset 0x0020 + 0x1000 × i, 4 of them. -/
def CAN.RXBUF : Reg := ⟨0x40160020, 0x1000, 4, 0x0, 1, [0x0],
  [⟨0, 32, .rwc, .any⟩]⟩
def CAN.RXBUF_BASE : FRef := ⟨CAN.RXBUF, 0, 32⟩
/-- `CAN.TXPUSH`, offset 0x0024 + 0x1000 × i, 4 of them. -/
def CAN.TXPUSH : Reg := ⟨0x40160024, 0x1000, 4, 0x0, 1, [0x0],
  [⟨0, 8, .wo, .any⟩]⟩
def CAN.TXPUSH_COUNT : FRef := ⟨CAN.TXPUSH, 0, 8⟩
/-- `CAN.RXPOP`, offset 0x0028 + 0x1000 × i, 4 of them. -/
def CAN.RXPOP : Reg := ⟨0x40160028, 0x1000, 4, 0x0, 1, [0x0],
  [⟨0, 8, .wo, .any⟩]⟩
def CAN.RXPOP_COUNT : FRef := ⟨CAN.RXPOP, 0, 8⟩
/-- `CAN.HPB`, offset 0x0100 + 0x1000 × i, 4 of them, and + 0x4 × j, 20 each. -/
def CAN.HPB : Reg := ⟨0x40160100, 0x1000, 4, 0x4, 20, [0x0],
  [⟨0, 32, .ro, .any⟩]⟩
def CAN.HPB_WORD : FRef := ⟨CAN.HPB, 0, 32⟩
/-- `CAN.FLTCFG`, offset 0x0400 + 0x1000 × i, 4 of them, and + 0x10 × j, 64 each. -/
def CAN.FLTCFG : Reg := ⟨0x40160400, 0x1000, 4, 0x10, 64, [0x0],
  [⟨29, 3, .rwc, .enumLe 5⟩, ⟨27, 2, .rwc, .enumLe 2⟩, ⟨26, 1, .rwc, .any⟩, ⟨0, 16, .rwc, .any⟩]⟩
def CAN.FLTCFG_ACT : FRef := ⟨CAN.FLTCFG, 29, 3⟩
def CAN.FLTCFG_TYPE : FRef := ⟨CAN.FLTCFG, 27, 2⟩
def CAN.FLTCFG_XTD : FRef := ⟨CAN.FLTCFG, 26, 1⟩
def CAN.FLTCFG_DBOFF : FRef := ⟨CAN.FLTCFG, 0, 16⟩
/-- `CAN.FLTID1`, offset 0x0404 + 0x1000 × i, 4 of them, and + 0x10 × j, 64 each. -/
def CAN.FLTID1 : Reg := ⟨0x40160404, 0x1000, 4, 0x10, 64, [0x0],
  [⟨0, 29, .rwc, .any⟩]⟩
def CAN.FLTID1_ID : FRef := ⟨CAN.FLTID1, 0, 29⟩
/-- `CAN.FLTID2`, offset 0x0408 + 0x1000 × i, 4 of them, and + 0x10 × j, 64 each. -/
def CAN.FLTID2 : Reg := ⟨0x40160408, 0x1000, 4, 0x10, 64, [0x0],
  [⟨0, 29, .rwc, .any⟩]⟩
def CAN.FLTID2_ID : FRef := ⟨CAN.FLTID2, 0, 29⟩
/-- `CAN.FLTRSV`, offset 0x040C + 0x1000 × i, 4 of them, and + 0x10 × j, 64 each. -/
def CAN.FLTRSV : Reg := ⟨0x4016040c, 0x1000, 4, 0x10, 64, [0x0],
  []⟩
/-- `ETH.CFG`, offset 0x0000 + 0x400 × i, 2 of them. -/
def ETH.CFG : Reg := ⟨0x40170000, 0x400, 2, 0x0, 1, [0x0],
  [⟨31, 1, .rw, .any⟩, ⟨29, 2, .rwc, .any⟩, ⟨28, 1, .rwc, .any⟩, ⟨27, 1, .rwc, .any⟩, ⟨16, 4, .rwc, .any⟩]⟩
def ETH.CFG_EN : FRef := ⟨ETH.CFG, 31, 1⟩
def ETH.CFG_SPEED : FRef := ⟨ETH.CFG, 29, 2⟩
def ETH.CFG_MCAST : FRef := ⟨ETH.CFG, 28, 1⟩
def ETH.CFG_PROMISC : FRef := ⟨ETH.CFG, 27, 1⟩
def ETH.CFG_HPORTS : FRef := ⟨ETH.CFG, 16, 4⟩
/-- `ETH.MACL`, offset 0x0004 + 0x400 × i, 2 of them. -/
def ETH.MACL : Reg := ⟨0x40170004, 0x400, 2, 0x0, 1, [0x0],
  [⟨0, 32, .rwc, .any⟩]⟩
def ETH.MACL_VAL : FRef := ⟨ETH.MACL, 0, 32⟩
/-- `ETH.MACH`, offset 0x0008 + 0x400 × i, 2 of them. -/
def ETH.MACH : Reg := ⟨0x40170008, 0x400, 2, 0x0, 1, [0x0],
  [⟨0, 16, .rwc, .any⟩]⟩
def ETH.MACH_VAL : FRef := ⟨ETH.MACH, 0, 16⟩
/-- `ETH.ETYPE`, offset 0x000C + 0x400 × i, 2 of them. -/
def ETH.ETYPE : Reg := ⟨0x4017000c, 0x400, 2, 0x0, 1, [0x88b588b6],
  [⟨16, 16, .rwc, .any⟩, ⟨0, 16, .rwc, .any⟩]⟩
def ETH.ETYPE_HOSTET : FRef := ⟨ETH.ETYPE, 16, 16⟩
def ETH.ETYPE_SAFEET : FRef := ⟨ETH.ETYPE, 0, 16⟩
/-- `ETH.SDSTL`, offset 0x0010 + 0x400 × i, 2 of them. -/
def ETH.SDSTL : Reg := ⟨0x40170010, 0x400, 2, 0x0, 1, [0x0],
  [⟨0, 32, .rwc, .any⟩]⟩
def ETH.SDSTL_VAL : FRef := ⟨ETH.SDSTL, 0, 32⟩
/-- `ETH.SDSTH`, offset 0x0014 + 0x400 × i, 2 of them. -/
def ETH.SDSTH : Reg := ⟨0x40170014, 0x400, 2, 0x0, 1, [0x0],
  [⟨0, 16, .rwc, .any⟩]⟩
def ETH.SDSTH_VAL : FRef := ⟨ETH.SDSTH, 0, 16⟩
/-- `ETH.STAT`, offset 0x0018 + 0x400 × i, 2 of them. -/
def ETH.STAT : Reg := ⟨0x40170018, 0x400, 2, 0x0, 1, [0x0],
  [⟨31, 1, .ro, .any⟩, ⟨29, 2, .ro, .any⟩, ⟨28, 1, .w1c, .any⟩, ⟨8, 8, .ro, .any⟩, ⟨0, 8, .ro, .any⟩]⟩
def ETH.STAT_LINK : FRef := ⟨ETH.STAT, 31, 1⟩
def ETH.STAT_SPD : FRef := ⟨ETH.STAT, 29, 2⟩
def ETH.STAT_CMPERR : FRef := ⟨ETH.STAT, 28, 1⟩
def ETH.STAT_FCSERR : FRef := ⟨ETH.STAT, 8, 8⟩
def ETH.STAT_DROP : FRef := ⟨ETH.STAT, 0, 8⟩
/-- `ETH.TXBUF`, offset 0x001C + 0x400 × i, 2 of them. -/
def ETH.TXBUF : Reg := ⟨0x4017001c, 0x400, 2, 0x0, 1, [0x0],
  [⟨0, 32, .rwc, .any⟩]⟩
def ETH.TXBUF_BASE : FRef := ⟨ETH.TXBUF, 0, 32⟩
/-- `ETH.RXBUF`, offset 0x0020 + 0x400 × i, 2 of them. -/
def ETH.RXBUF : Reg := ⟨0x40170020, 0x400, 2, 0x0, 1, [0x0],
  [⟨0, 32, .rwc, .any⟩]⟩
def ETH.RXBUF_BASE : FRef := ⟨ETH.RXBUF, 0, 32⟩
/-- `ETH.TXPUSH`, offset 0x0024 + 0x400 × i, 2 of them. -/
def ETH.TXPUSH : Reg := ⟨0x40170024, 0x400, 2, 0x0, 1, [0x0],
  [⟨0, 8, .wo, .any⟩]⟩
def ETH.TXPUSH_COUNT : FRef := ⟨ETH.TXPUSH, 0, 8⟩
/-- `ETH.RXPOP`, offset 0x0028 + 0x400 × i, 2 of them. -/
def ETH.RXPOP : Reg := ⟨0x40170028, 0x400, 2, 0x0, 1, [0x0],
  [⟨0, 8, .wo, .any⟩]⟩
def ETH.RXPOP_COUNT : FRef := ⟨ETH.RXPOP, 0, 8⟩
/-- `ETH.MDIO`, offset 0x002C + 0x400 × i, 2 of them. -/
def ETH.MDIO : Reg := ⟨0x4017002c, 0x400, 2, 0x0, 1, [0x0],
  [⟨31, 1, .ro, .any⟩, ⟨30, 1, .rw, .any⟩, ⟨21, 5, .rw, .any⟩, ⟨16, 5, .rw, .any⟩, ⟨0, 16, .rw, .any⟩]⟩
def ETH.MDIO_BUSY : FRef := ⟨ETH.MDIO, 31, 1⟩
def ETH.MDIO_OP : FRef := ⟨ETH.MDIO, 30, 1⟩
def ETH.MDIO_PHY : FRef := ⟨ETH.MDIO, 21, 5⟩
def ETH.MDIO_REG : FRef := ⟨ETH.MDIO, 16, 5⟩
def ETH.MDIO_DATA : FRef := ⟨ETH.MDIO, 0, 16⟩
/-- `ETH.HBIND`, offset 0x1000 + 0x10 × i, 4 of them. -/
def ETH.HBIND : Reg := ⟨0x40171000, 0x10, 4, 0x0, 1, [0x0],
  [⟨31, 1, .rw, .any⟩, ⟨30, 1, .rw, .any⟩, ⟨0, 16, .rw, .any⟩]⟩
def ETH.HBIND_EN : FRef := ⟨ETH.HBIND, 31, 1⟩
def ETH.HBIND_MAC : FRef := ⟨ETH.HBIND, 30, 1⟩
def ETH.HBIND_PEERH : FRef := ⟨ETH.HBIND, 0, 16⟩
/-- `ETH.HPEER`, offset 0x1004 + 0x10 × i, 4 of them. -/
def ETH.HPEER : Reg := ⟨0x40171004, 0x10, 4, 0x0, 1, [0x0],
  [⟨0, 32, .rw, .any⟩]⟩
def ETH.HPEER_PEERL : FRef := ⟨ETH.HPEER, 0, 32⟩
/-- `ETH.PTPOFS_LO`, offset 0x1080. -/
def ETH.PTPOFS_LO : Reg := ⟨0x40171080, 0x0, 1, 0x0, 1, [0x0],
  [⟨0, 32, .rw, .any⟩]⟩
def ETH.PTPOFS_LO_VAL : FRef := ⟨ETH.PTPOFS_LO, 0, 32⟩
/-- `ETH.PTPOFS_HI`, offset 0x1084. -/
def ETH.PTPOFS_HI : Reg := ⟨0x40171084, 0x0, 1, 0x0, 1, [0x0],
  [⟨0, 32, .rw, .any⟩]⟩
def ETH.PTPOFS_HI_VAL : FRef := ⟨ETH.PTPOFS_HI, 0, 32⟩
/-- `ETH.PTPRATE`, offset 0x1088. -/
def ETH.PTPRATE : Reg := ⟨0x40171088, 0x0, 1, 0x0, 1, [0x0],
  [⟨0, 32, .rw, .any⟩]⟩
def ETH.PTPRATE_VAL : FRef := ⟨ETH.PTPRATE, 0, 32⟩
/-- `BGS.PWRCAP`, offset 0x0000. -/
def BGS.PWRCAP : Reg := ⟨0x40180000, 0x0, 1, 0x0, 1, [0x1e],
  [⟨0, 6, .rw, .range 0 40⟩]⟩
def BGS.PWRCAP_CAP : FRef := ⟨BGS.PWRCAP, 0, 6⟩
/-- `BGS.STAT`, offset 0x0004. -/
def BGS.STAT : Reg := ⟨0x40180004, 0x0, 1, 0x0, 1, [0x1f00],
  [⟨20, 12, .ro, .any⟩, ⟨16, 2, .ro, .any⟩, ⟨8, 5, .ro, .any⟩, ⟨0, 1, .ro, .any⟩]⟩
def BGS.STAT_CYCMS : FRef := ⟨BGS.STAT, 20, 12⟩
def BGS.STAT_ENGT : FRef := ⟨BGS.STAT, 16, 2⟩
def BGS.STAT_ISL : FRef := ⟨BGS.STAT, 8, 5⟩
def BGS.STAT_THROT : FRef := ⟨BGS.STAT, 0, 1⟩
/-- `BGS.FAILREC0`, offset 0x0008. -/
def BGS.FAILREC0 : Reg := ⟨0x40180008, 0x0, 1, 0x0, 1, [0x0],
  [⟨0, 32, .ro, .any⟩]⟩
def BGS.FAILREC0_ADDR : FRef := ⟨BGS.FAILREC0, 0, 32⟩
/-- `BGS.FAILREC1`, offset 0x000C. -/
def BGS.FAILREC1 : Reg := ⟨0x4018000c, 0x0, 1, 0x0, 1, [0x0],
  [⟨31, 1, .w1c, .any⟩, ⟨28, 3, .ro, .any⟩, ⟨26, 2, .ro, .any⟩, ⟨21, 5, .ro, .any⟩, ⟨0, 9, .ro, .any⟩]⟩
def BGS.FAILREC1_VALID : FRef := ⟨BGS.FAILREC1, 31, 1⟩
def BGS.FAILREC1_KIND : FRef := ⟨BGS.FAILREC1, 28, 3⟩
def BGS.FAILREC1_STATE : FRef := ⟨BGS.FAILREC1, 26, 2⟩
def BGS.FAILREC1_ISL : FRef := ⟨BGS.FAILREC1, 21, 5⟩
def BGS.FAILREC1_BIT : FRef := ⟨BGS.FAILREC1, 0, 9⟩
/-- `BGS.FAILCNT`, offset 0x0010. -/
def BGS.FAILCNT : Reg := ⟨0x40180010, 0x0, 1, 0x0, 1, [0x0],
  [⟨0, 16, .ro, .any⟩]⟩
def BGS.FAILCNT_CNT : FRef := ⟨BGS.FAILCNT, 0, 16⟩
/-- `BGS.CALCFG`, offset 0x0014. -/
def BGS.CALCFG : Reg := ⟨0x40180014, 0x0, 1, 0x0, 1, [0x40],
  [⟨31, 1, .rw, .any⟩, ⟨0, 8, .rw, .any⟩]⟩
def BGS.CALCFG_AUTO : FRef := ⟨BGS.CALCFG, 31, 1⟩
def BGS.CALCFG_DRIFTLIM : FRef := ⟨BGS.CALCFG, 0, 8⟩
/-- `BGS.CALSTAT`, offset 0x0018. -/
def BGS.CALSTAT : Reg := ⟨0x40180018, 0x0, 1, 0x0, 1, [0x0],
  [⟨3, 1, .ro, .any⟩, ⟨2, 1, .ro, .any⟩, ⟨1, 1, .w1c, .any⟩, ⟨0, 1, .ro, .any⟩]⟩
def BGS.CALSTAT_CMP : FRef := ⟨BGS.CALSTAT, 3, 1⟩
def BGS.CALSTAT_CONV : FRef := ⟨BGS.CALSTAT, 2, 1⟩
def BGS.CALSTAT_DRIFT : FRef := ⟨BGS.CALSTAT, 1, 1⟩
def BGS.CALSTAT_DEFAULT : FRef := ⟨BGS.CALSTAT, 0, 1⟩
/-- `BGS.TPOP`, offset 0x0020 + 0x4 × i, 4 of them. -/
def BGS.TPOP : Reg := ⟨0x40180020, 0x4, 4, 0x0, 1, [0x0],
  [⟨0, 16, .wo, .any⟩]⟩
def BGS.TPOP_COUNT : FRef := ⟨BGS.TPOP, 0, 16⟩
/-- `BGS.WCFG`, offset 0x0100 + 0x40 × i, 8 of them. -/
def BGS.WCFG : Reg := ⟨0x40180100, 0x40, 8, 0x0, 1, [0xc0],
  [⟨31, 1, .rw, .any⟩, ⟨28, 3, .rw, .any⟩, ⟨23, 5, .rw, .range 0 23⟩, ⟨0, 8, .rw, .any⟩]⟩
def BGS.WCFG_EN : FRef := ⟨BGS.WCFG, 31, 1⟩
def BGS.WCFG_AX : FRef := ⟨BGS.WCFG, 28, 3⟩
def BGS.WCFG_NTC : FRef := ⟨BGS.WCFG, 23, 5⟩
def BGS.WCFG_WARN : FRef := ⟨BGS.WCFG, 0, 8⟩
/-- `BGS.WTOFF`, offset 0x0104 + 0x40 × i, 8 of them. -/
def BGS.WTOFF : Reg := ⟨0x40180104, 0x40, 8, 0x0, 1, [0x0],
  [⟨0, 32, .rw, .any⟩]⟩
def BGS.WTOFF_VAL : FRef := ⟨BGS.WTOFF, 0, 32⟩
/-- `BGS.WTGAIN`, offset 0x0108 + 0x40 × i, 8 of them. -/
def BGS.WTGAIN : Reg := ⟨0x40180108, 0x40, 8, 0x0, 1, [0x0],
  [⟨0, 32, .rw, .any⟩]⟩
def BGS.WTGAIN_VAL : FRef := ⟨BGS.WTGAIN, 0, 32⟩
/-- `BGS.WK1`, offset 0x010C + 0x40 × i, 8 of them. -/
def BGS.WK1 : Reg := ⟨0x4018010c, 0x40, 8, 0x0, 1, [0x0],
  [⟨0, 32, .rw, .any⟩]⟩
def BGS.WK1_VAL : FRef := ⟨BGS.WK1, 0, 32⟩
/-- `BGS.WK2`, offset 0x0110 + 0x40 × i, 8 of them. -/
def BGS.WK2 : Reg := ⟨0x40180110, 0x40, 8, 0x0, 1, [0x0],
  [⟨0, 32, .rw, .any⟩]⟩
def BGS.WK2_VAL : FRef := ⟨BGS.WK2, 0, 32⟩
/-- `BGS.WK3`, offset 0x0114 + 0x40 × i, 8 of them. -/
def BGS.WK3 : Reg := ⟨0x40180114, 0x40, 8, 0x0, 1, [0x0],
  [⟨0, 32, .rw, .any⟩]⟩
def BGS.WK3_VAL : FRef := ⟨BGS.WK3, 0, 32⟩
/-- `BGS.WRTH`, offset 0x0118 + 0x40 × i, 8 of them. -/
def BGS.WRTH : Reg := ⟨0x40180118, 0x40, 8, 0x0, 1, [0x0],
  [⟨0, 32, .rw, .any⟩]⟩
def BGS.WRTH_VAL : FRef := ⟨BGS.WRTH, 0, 32⟩
/-- `BGS.WBETA`, offset 0x011C + 0x40 × i, 8 of them. -/
def BGS.WBETA : Reg := ⟨0x4018011c, 0x40, 8, 0x0, 1, [0x0],
  [⟨0, 32, .rw, .any⟩]⟩
def BGS.WBETA_VAL : FRef := ⟨BGS.WBETA, 0, 32⟩
/-- `BGS.WDTREF`, offset 0x0120 + 0x40 × i, 8 of them. -/
def BGS.WDTREF : Reg := ⟨0x40180120, 0x40, 8, 0x0, 1, [0x0],
  [⟨0, 32, .rw, .any⟩]⟩
def BGS.WDTREF_VAL : FRef := ⟨BGS.WDTREF, 0, 32⟩
/-- `BGS.WNREF`, offset 0x0124 + 0x40 × i, 8 of them. -/
def BGS.WNREF : Reg := ⟨0x40180124, 0x40, 8, 0x0, 1, [0x0],
  [⟨0, 32, .rw, .any⟩]⟩
def BGS.WNREF_VAL : FRef := ⟨BGS.WNREF, 0, 32⟩
/-- `BGS.WTJ`, offset 0x0128 + 0x40 × i, 8 of them. -/
def BGS.WTJ : Reg := ⟨0x40180128, 0x40, 8, 0x0, 1, [0x0],
  [⟨0, 32, .ro, .any⟩]⟩
def BGS.WTJ_VAL : FRef := ⟨BGS.WTJ, 0, 32⟩
/-- `BGS.WDMG`, offset 0x012C + 0x40 × i, 8 of them. -/
def BGS.WDMG : Reg := ⟨0x4018012c, 0x40, 8, 0x0, 1, [0x0],
  [⟨0, 32, .ro, .any⟩]⟩
def BGS.WDMG_VAL : FRef := ⟨BGS.WDMG, 0, 32⟩
/-- `NVS.BANKSTAT`, offset 0x0000. -/
def NVS.BANKSTAT : Reg := ⟨0x40190000, 0x0, 1, 0x0, 1, [0x0],
  [⟨4, 2, .ro, .any⟩, ⟨3, 1, .ro, .any⟩, ⟨1, 2, .ro, .any⟩, ⟨0, 1, .ro, .any⟩]⟩
def NVS.BANKSTAT_CVAL : FRef := ⟨NVS.BANKSTAT, 4, 2⟩
def NVS.BANKSTAT_CWIN : FRef := ⟨NVS.BANKSTAT, 3, 1⟩
def NVS.BANKSTAT_PVAL : FRef := ⟨NVS.BANKSTAT, 1, 2⟩
def NVS.BANKSTAT_PWIN : FRef := ⟨NVS.BANKSTAT, 0, 1⟩
/-- `NVS.PSEQ`, offset 0x0004. -/
def NVS.PSEQ : Reg := ⟨0x40190004, 0x0, 1, 0x0, 1, [0x0],
  [⟨0, 32, .ro, .any⟩]⟩
def NVS.PSEQ_SEQ : FRef := ⟨NVS.PSEQ, 0, 32⟩
/-- `NVS.CSEQ`, offset 0x0008. -/
def NVS.CSEQ : Reg := ⟨0x40190008, 0x0, 1, 0x0, 1, [0x0],
  [⟨0, 32, .ro, .any⟩]⟩
def NVS.CSEQ_SEQ : FRef := ⟨NVS.CSEQ, 0, 32⟩
/-- `NVS.USRC`, offset 0x0010. -/
def NVS.USRC : Reg := ⟨0x40190010, 0x0, 1, 0x0, 1, [0x0],
  [⟨0, 32, .rw, .any⟩]⟩
def NVS.USRC_ADDR : FRef := ⟨NVS.USRC, 0, 32⟩
/-- `NVS.ULEN`, offset 0x0014. -/
def NVS.ULEN : Reg := ⟨0x40190014, 0x0, 1, 0x0, 1, [0x0],
  [⟨0, 32, .rw, .any⟩]⟩
def NVS.ULEN_LEN : FRef := ⟨NVS.ULEN, 0, 32⟩
/-- `NVS.LOGGRP_LO`, offset 0x0020. -/
def NVS.LOGGRP_LO : Reg := ⟨0x40190020, 0x0, 1, 0x0, 1, [0xff],
  [⟨0, 32, .rw, .any⟩]⟩
def NVS.LOGGRP_LO_GRP : FRef := ⟨NVS.LOGGRP_LO, 0, 32⟩
/-- `NVS.LOGGRP_HI`, offset 0x0024. -/
def NVS.LOGGRP_HI : Reg := ⟨0x40190024, 0x0, 1, 0x0, 1, [0x0],
  [⟨0, 32, .rw, .any⟩]⟩
def NVS.LOGGRP_HI_GRP : FRef := ⟨NVS.LOGGRP_HI, 0, 32⟩
/-- `NVS.FUSECMD`, offset 0x0040. -/
def NVS.FUSECMD : Reg := ⟨0x40190040, 0x0, 1, 0x0, 1, [0x0],
  [⟨30, 2, .wo, .any⟩, ⟨16, 2, .wo, .any⟩, ⟨0, 3, .wo, .any⟩]⟩
def NVS.FUSECMD_OP : FRef := ⟨NVS.FUSECMD, 30, 2⟩
def NVS.FUSECMD_SLOT : FRef := ⟨NVS.FUSECMD, 16, 2⟩
def NVS.FUSECMD_TARGET : FRef := ⟨NVS.FUSECMD, 0, 3⟩
/-- `NVS.FUSESTAT`, offset 0x0044. -/
def NVS.FUSESTAT : Reg := ⟨0x40190044, 0x0, 1, 0x0, 1, [0x0],
  [⟨16, 10, .ro, .any⟩, ⟨0, 4, .ro, .any⟩]⟩
def NVS.FUSESTAT_REPUSED : FRef := ⟨NVS.FUSESTAT, 16, 10⟩
def NVS.FUSESTAT_REVOKED : FRef := ⟨NVS.FUSESTAT, 0, 4⟩
/-- `NVS.ZEROIZE`, offset 0x0050. -/
def NVS.ZEROIZE : Reg := ⟨0x40190050, 0x0, 1, 0x0, 1, [0x0],
  [⟨0, 1, .w1s, .any⟩]⟩
def NVS.ZEROIZE_GO : FRef := ⟨NVS.ZEROIZE, 0, 1⟩
/-- `NVS.KEYSTAT`, offset 0x0054. -/
def NVS.KEYSTAT : Reg := ⟨0x40190054, 0x0, 1, 0x0, 1, [0x0],
  [⟨3, 1, .ro, .any⟩, ⟨2, 1, .w1c, .any⟩, ⟨1, 1, .ro, .any⟩, ⟨0, 1, .ro, .any⟩]⟩
def NVS.KEYSTAT_SCAN : FRef := ⟨NVS.KEYSTAT, 3, 1⟩
def NVS.KEYSTAT_SCANREF : FRef := ⟨NVS.KEYSTAT, 2, 1⟩
def NVS.KEYSTAT_CLOSED : FRef := ⟨NVS.KEYSTAT, 1, 1⟩
def NVS.KEYSTAT_ZERO : FRef := ⟨NVS.KEYSTAT, 0, 1⟩
/-- `FBRK.STAT`, offset 0x0000. -/
def FBRK.STAT : Reg := ⟨0x401a0000, 0x0, 1, 0x0, 1, [0x2],
  [⟨1, 1, .ro, .any⟩, ⟨0, 1, .w1c, .any⟩]⟩
def FBRK.STAT_FAULTN : FRef := ⟨FBRK.STAT, 1, 1⟩
def FBRK.STAT_REFUSED : FRef := ⟨FBRK.STAT, 0, 1⟩
/-- `FBRK.BRSS`, offset 0x0100 + 0x10 × i, 8 of them. -/
def FBRK.BRSS : Reg := ⟨0x401a0100, 0x10, 8, 0x0, 1, [0x70000000],
  [⟨30, 2, .rwl, .enumLe 2⟩, ⟨29, 1, .rwl, .any⟩, ⟨28, 1, .rwl, .any⟩, ⟨26, 2, .rwl, .enumLe 2⟩, ⟨25, 1, .rwl, .any⟩, ⟨22, 3, .rwl, .any⟩]⟩
def FBRK.BRSS_MODE : FRef := ⟨FBRK.BRSS, 30, 2⟩
def FBRK.BRSS_UNKN : FRef := ⟨FBRK.BRSS, 29, 1⟩
def FBRK.BRSS_HSASCOK : FRef := ⟨FBRK.BRSS, 28, 1⟩
def FBRK.BRSS_ASCPREF : FRef := ⟨FBRK.BRSS, 26, 2⟩
def FBRK.BRSS_SPDSRC : FRef := ⟨FBRK.BRSS, 25, 1⟩
def FBRK.BRSS_PORT : FRef := ⟨FBRK.BRSS, 22, 3⟩
/-- `FBRK.BRXO`, offset 0x0104 + 0x10 × i, 8 of them. -/
def FBRK.BRXO : Reg := ⟨0x401a0104, 0x10, 8, 0x0, 1, [0x10000100],
  [⟨16, 16, .rwl, .any⟩, ⟨0, 16, .rwl, .any⟩]⟩
def FBRK.BRXO_XOVER : FRef := ⟨FBRK.BRXO, 16, 16⟩
def FBRK.BRXO_XHYS : FRef := ⟨FBRK.BRXO, 0, 16⟩
/-- `FBRK.BRST`, offset 0x0108 + 0x10 × i, 8 of them. -/
def FBRK.BRST : Reg := ⟨0x401a0108, 0x10, 8, 0x0, 1, [0x20000000],
  [⟨29, 3, .ro, .any⟩, ⟨28, 1, .ro, .any⟩, ⟨24, 4, .ro, .any⟩, ⟨23, 1, .ro, .any⟩, ⟨22, 1, .ro, .any⟩]⟩
def FBRK.BRST_PAT : FRef := ⟨FBRK.BRST, 29, 3⟩
def FBRK.BRST_DEM : FRef := ⟨FBRK.BRST, 28, 1⟩
def FBRK.BRST_CAUSE : FRef := ⟨FBRK.BRST, 24, 4⟩
def FBRK.BRST_BRKARM : FRef := ⟨FBRK.BRST, 23, 1⟩
def FBRK.BRST_SPDUNK : FRef := ⟨FBRK.BRST, 22, 1⟩
/-- `FBRK.BRREL`, offset 0x0180. -/
def FBRK.BRREL : Reg := ⟨0x401a0180, 0x0, 1, 0x0, 1, [0x0],
  [⟨0, 8, .w1s, .any⟩]⟩
def FBRK.BRREL_REL : FRef := ⟨FBRK.BRREL, 0, 8⟩
/-- `FBRK.OCMAP`, offset 0x0200 + 0x4 × i, 96 of them. -/
def FBRK.OCMAP : Reg := ⟨0x401a0200, 0x4, 96, 0x0, 1, [0x0],
  [⟨31, 1, .rwl, .any⟩, ⟨30, 1, .rwl, .any⟩, ⟨2, 3, .rwl, .any⟩, ⟨0, 2, .rwl, .enumLe 2⟩]⟩
def FBRK.OCMAP_EN : FRef := ⟨FBRK.OCMAP, 31, 1⟩
def FBRK.OCMAP_ROLE : FRef := ⟨FBRK.OCMAP, 30, 1⟩
def FBRK.OCMAP_BR : FRef := ⟨FBRK.OCMAP, 2, 3⟩
def FBRK.OCMAP_PH : FRef := ⟨FBRK.OCMAP, 0, 2⟩
/-- `CNPY.STAT`, offset 0x0000. -/
def CNPY.STAT : Reg := ⟨0x401b0000, 0x0, 1, 0x0, 1, [0x0],
  [⟨3, 1, .w1c, .any⟩, ⟨2, 1, .ro, .any⟩, ⟨1, 1, .w1c, .any⟩, ⟨0, 1, .w1c, .any⟩]⟩
def CNPY.STAT_WATCHTPO : FRef := ⟨CNPY.STAT, 3, 1⟩
def CNPY.STAT_XTAL : FRef := ⟨CNPY.STAT, 2, 1⟩
def CNPY.STAT_RTCBAD : FRef := ⟨CNPY.STAT, 1, 1⟩
def CNPY.STAT_WAKEPEND : FRef := ⟨CNPY.STAT, 0, 1⟩
/-- `CNPY.WATCH`, offset 0x0004. -/
def CNPY.WATCH : Reg := ⟨0x401b0004, 0x0, 1, 0x0, 1, [0x0],
  [⟨0, 23, .rw, .any⟩]⟩
def CNPY.WATCH_EN : FRef := ⟨CNPY.WATCH, 0, 23⟩
/-- `CNPY.WAKE`, offset 0x0008. -/
def CNPY.WAKE : Reg := ⟨0x401b0008, 0x0, 1, 0x0, 1, [0x0],
  [⟨7, 1, .w1c, .any⟩, ⟨0, 5, .ro, .any⟩]⟩
def CNPY.WAKE_VALID : FRef := ⟨CNPY.WAKE, 7, 1⟩
def CNPY.WAKE_IDX : FRef := ⟨CNPY.WAKE, 0, 5⟩
/-- `CNPY.RTCALM`, offset 0x0010. -/
def CNPY.RTCALM : Reg := ⟨0x401b0010, 0x0, 1, 0x0, 1, [0x0],
  [⟨0, 32, .rw, .any⟩]⟩
def CNPY.RTCALM_VAL : FRef := ⟨CNPY.RTCALM, 0, 32⟩
/-- `CNPY.CWCFG`, offset 0x0020 + 0x20 × i, 2 of them. -/
def CNPY.CWCFG : Reg := ⟨0x401b0020, 0x20, 2, 0x0, 1, [0x20000000],
  [⟨30, 2, .rw, .enumLe 2⟩, ⟨28, 2, .rw, .enumLe 2⟩]⟩
def CNPY.CWCFG_WKMODE : FRef := ⟨CNPY.CWCFG, 30, 2⟩
def CNPY.CWCFG_RATE : FRef := ⟨CNPY.CWCFG, 28, 2⟩
/-- `CNPY.CWID`, offset 0x0024 + 0x20 × i, 2 of them. -/
def CNPY.CWID : Reg := ⟨0x401b0024, 0x20, 2, 0x0, 1, [0x0],
  [⟨29, 1, .rw, .any⟩, ⟨0, 29, .rw, .any⟩]⟩
def CNPY.CWID_XTD : FRef := ⟨CNPY.CWID, 29, 1⟩
def CNPY.CWID_ID : FRef := ⟨CNPY.CWID, 0, 29⟩
/-- `CNPY.CWIM`, offset 0x0028 + 0x20 × i, 2 of them. -/
def CNPY.CWIM : Reg := ⟨0x401b0028, 0x20, 2, 0x0, 1, [0x1fffffff],
  [⟨0, 29, .rw, .any⟩]⟩
def CNPY.CWIM_MASK : FRef := ⟨CNPY.CWIM, 0, 29⟩
/-- `CNPY.CWDL`, offset 0x002C + 0x20 × i, 2 of them. -/
def CNPY.CWDL : Reg := ⟨0x401b002c, 0x20, 2, 0x0, 1, [0x0],
  [⟨0, 32, .rw, .any⟩]⟩
def CNPY.CWDL_VAL : FRef := ⟨CNPY.CWDL, 0, 32⟩
/-- `CNPY.CWDH`, offset 0x0030 + 0x20 × i, 2 of them. -/
def CNPY.CWDH : Reg := ⟨0x401b0030, 0x20, 2, 0x0, 1, [0x0],
  [⟨0, 32, .rw, .any⟩]⟩
def CNPY.CWDH_VAL : FRef := ⟨CNPY.CWDH, 0, 32⟩
/-- `CNPY.CWDML`, offset 0x0034 + 0x20 × i, 2 of them. -/
def CNPY.CWDML : Reg := ⟨0x401b0034, 0x20, 2, 0x0, 1, [0x0],
  [⟨0, 32, .rw, .any⟩]⟩
def CNPY.CWDML_VAL : FRef := ⟨CNPY.CWDML, 0, 32⟩
/-- `CNPY.CWDMH`, offset 0x0038 + 0x20 × i, 2 of them. -/
def CNPY.CWDMH : Reg := ⟨0x401b0038, 0x20, 2, 0x0, 1, [0x0],
  [⟨0, 32, .rw, .any⟩]⟩
def CNPY.CWDMH_VAL : FRef := ⟨CNPY.CWDMH, 0, 32⟩

/-- The registers of the block at 0x40000000. -/
def SYS.regs : List Reg := [SYS.IDCODE, SYS.REV, SYS.UID_LO, SYS.UID_HI, SYS.MODE, SYS.BOOT, SYS.BOOTMEM, SYS.SUPPLY, SYS.ISLCLK, SYS.XSTAT, SYS.MEMERR, SYS.RDSTAT]
/-- The registers of the block at 0x40010000. -/
def TIME.regs : List Reg := [TIME.TBASE_LO, TIME.TBASE_HI, TIME.STAT]
/-- The registers of the block at 0x40020000. -/
def HOST.regs : List Reg := [HOST.RIGHTS, HOST.PSTAT]
/-- The registers of the block at 0x40030000. -/
def QUE.regs : List Reg := [QUE.QBASE, QUE.QCFG, QUE.QHEAD, QUE.QTAIL, QUE.QSTAT]
/-- The registers of the block at 0x40040000. -/
def EVT.regs : List Reg := [EVT.DOORBELL, EVT.STAT, EVT.GRP, EVT.QBIND, EVT.QMOD, EVT.PSLEEP, EVT.PWLO, EVT.PWHI]
/-- The registers of the block at 0x40050000. -/
def PLC.regs : List Reg := [PLC.STAT, PLC.HINT, PLC.ESTAT, PLC.TLOC]
/-- The registers of the block at 0x40060000. -/
def PYR.regs : List Reg := [PYR.STAT, PYR.ESUSP, PYR.LAST, PYR.LASTTS_LO, PYR.LASTTS_HI, PYR.BUFSTAT, PYR.CANARY, PYR.DBGCTL, PYR.DBGPC, PYR.DBGTAG, PYR.DBGTYP, PYR.DBGG]
/-- The registers of the block at 0x40080000. -/
def GATE.regs : List Reg := [GATE.CH, GATE.TRIM, GATE.BRCFG, GATE.CAR, GATE.CPH, GATE.SHARE, GATE.SWFLT0, GATE.SWFLT1, GATE.SWCLS]
/-- The registers of the block at 0x400A0000. -/
def DCL.regs : List Reg := [DCL.CFG, DCL.BRK, DCL.VTH, DCL.OV, DCL.BCUR, DCL.DSC, DCL.STAT, DCL.DSCCMD]
/-- The registers of the block at 0x400C0000. -/
def DSM.regs : List Reg := [DSM.CLK, DSM.CH, DSM.GAIN, DSM.OFF, DSM.PTH, DSM.RES, DSM.STAT, DSM.RGRP, DSM.RTOL, DSM.RSTAT]
/-- The registers of the block at 0x400D0000. -/
def ADC.regs : List Reg := [ADC.CFG, ADC.TRG, ADC.TPER, ADC.TPH, ADC.RES, ADC.RST]
/-- The registers of the block at 0x400E0000. -/
def CMP.regs : List Reg := [CMP.CFG, CMP.TH, CMP.ZERO, CMP.RAMP, CMP.RDBK, CMP.RDVAL, CMP.STAT]
/-- The registers of the block at 0x40100000. -/
def POS.regs : List Reg := [POS.CFG, POS.REV, POS.EOFF, POS.SPDFS, POS.SPDTMO, POS.SER, POS.SERT, POS.RSLV, POS.IDXVAL, POS.CMD, POS.CNT, POS.SPEED, POS.ANG, POS.STAT, POS.CMPV, POS.CMPC, POS.CMPTS, POS.EMUCFG, POS.EMUDIV, POS.EMUST, POS.EXC]
/-- The registers of the block at 0x40120000. -/
def CTL.regs : List Reg := [CTL.AXCFG, CTL.AXTLM, CTL.AXMB, CTL.AXRATE, CTL.AXLIM, CTL.AXSPD, CTL.AXTIM, CTL.AXSAMP, CTL.AXCMD, CTL.AXHREF, CTL.AXST, CTL.CMDCFG, CTL.CMDOFF, CTL.CMDGAIN, CTL.CMDLIM, CTL.CMDST, CTL.TFLT, CTL.TFCD, CTL.TRUN, CTL.TREAS]
/-- The registers of the block at 0x40140000. -/
def SAFE.regs : List Reg := [SAFE.STAT, SAFE.GCFG, SAFE.TPO, SAFE.SIN, SAFE.MAP, SAFE.SINST, SAFE.SOUT, SAFE.SOUTST, SAFE.FN, SAFE.SS1, SAFE.SS1B, SAFE.SLSA, SAFE.SLSB, SAFE.SLDI, SAFE.FST, SAFE.CONN, SAFE.CTIM, SAFE.CSEED, SAFE.CST, SAFE.SESS]
/-- The registers of the block at 0x40160000. -/
def CAN.regs : List Reg := [CAN.CFG, CAN.NBT, CAN.DBT, CAN.STAT, CAN.TREF, CAN.TOFS_LO, CAN.TOFS_HI, CAN.TXBUF, CAN.RXBUF, CAN.TXPUSH, CAN.RXPOP, CAN.HPB, CAN.FLTCFG, CAN.FLTID1, CAN.FLTID2, CAN.FLTRSV]
/-- The registers of the block at 0x40170000. -/
def ETH.regs : List Reg := [ETH.CFG, ETH.MACL, ETH.MACH, ETH.ETYPE, ETH.SDSTL, ETH.SDSTH, ETH.STAT, ETH.TXBUF, ETH.RXBUF, ETH.TXPUSH, ETH.RXPOP, ETH.MDIO, ETH.HBIND, ETH.HPEER, ETH.PTPOFS_LO, ETH.PTPOFS_HI, ETH.PTPRATE]
/-- The registers of the block at 0x40180000. -/
def BGS.regs : List Reg := [BGS.PWRCAP, BGS.STAT, BGS.FAILREC0, BGS.FAILREC1, BGS.FAILCNT, BGS.CALCFG, BGS.CALSTAT, BGS.TPOP, BGS.WCFG, BGS.WTOFF, BGS.WTGAIN, BGS.WK1, BGS.WK2, BGS.WK3, BGS.WRTH, BGS.WBETA, BGS.WDTREF, BGS.WNREF, BGS.WTJ, BGS.WDMG]
/-- The registers of the block at 0x40190000. -/
def NVS.regs : List Reg := [NVS.BANKSTAT, NVS.PSEQ, NVS.CSEQ, NVS.USRC, NVS.ULEN, NVS.LOGGRP_LO, NVS.LOGGRP_HI, NVS.FUSECMD, NVS.FUSESTAT, NVS.ZEROIZE, NVS.KEYSTAT]
/-- The registers of the block at 0x401A0000. -/
def FBRK.regs : List Reg := [FBRK.STAT, FBRK.BRSS, FBRK.BRXO, FBRK.BRST, FBRK.BRREL, FBRK.OCMAP]
/-- The registers of the block at 0x401B0000. -/
def CNPY.regs : List Reg := [CNPY.STAT, CNPY.WATCH, CNPY.WAKE, CNPY.RTCALM, CNPY.CWCFG, CNPY.CWID, CNPY.CWIM, CNPY.CWDL, CNPY.CWDH, CNPY.CWDML, CNPY.CWDMH]

/-- A block: its base, its registers and the island that serves it (R406, R434). -/
def blockTable : List Block :=
  [⟨0x40000000, 18, SYS.regs⟩,
   ⟨0x40010000, 19, TIME.regs⟩,
   ⟨0x40020000, 22, HOST.regs⟩,
   ⟨0x40030000, 18, QUE.regs⟩,
   ⟨0x40040000, 18, EVT.regs⟩,
   ⟨0x40050000, 18, PLC.regs⟩,
   ⟨0x40060000, 1, PYR.regs⟩,
   ⟨0x40080000, 19, GATE.regs⟩,
   ⟨0x400A0000, 1, DCL.regs⟩,
   ⟨0x400C0000, 20, DSM.regs⟩,
   ⟨0x400D0000, 21, ADC.regs⟩,
   ⟨0x400E0000, 21, CMP.regs⟩,
   ⟨0x40100000, 20, POS.regs⟩,
   ⟨0x40120000, 1, CTL.regs⟩,
   ⟨0x40140000, 1, SAFE.regs⟩,
   ⟨0x40160000, 23, CAN.regs⟩,
   ⟨0x40170000, 23, ETH.regs⟩,
   ⟨0x40180000, 18, BGS.regs⟩,
   ⟨0x40190000, 24, NVS.regs⟩,
   ⟨0x401A0000, 1, FBRK.regs⟩,
   ⟨0x401B0000, 0, CNPY.regs⟩]

/-- The block whose 64 KiB hold address `a` (R406). -/
def blockAt (a : Nat) : Option Block := blockTable.find? fun b => decide (b.base ≤ a ∧ a < b.base + 0x10000)

/-- The register mapped at byte address `a`, with its instance index; `none` where nothing is mapped (R406, R407). -/
def regAt (a : Nat) : Option (Reg × Nat) :=
  match blockAt a with
  | some b => b.regs.findSome? fun r => (r.indexOf a).map fun i => (r, i)
  | none => none

end Sys2Proof.Machine
end

