-- ==== Sys2Proof/Machine/State.lean ====
section
/-! DEFINITION. The state of the KJ8, as plain data: its registers, memories, host queues, tasks and engines,
axes, gate channels, sensing, position ports, events, safety functions, networks and background services; the
reasons a step can stop; and the state right after reset.

Registers live in ONE file, `State.regs`, keyed by byte address (R406): an address that is not listed holds the
reset word of its descriptor in RegMap.lean (R408). Times are TBASE ticks (R23). -/

namespace Sys2Proof.Machine

/-- Why a step can stop with a fault. No command of this model faults: the constructor stands for a command whose
effect the spec leaves undefined with no effect among its choices, and none is left. Raised by nothing; safe. -/
inductive Fault
  | undefinedCommand
  deriving DecidableEq, Repr

/-- Why a step can be refused. -/
inductive Refusal
  /-- A command of the table that has no meaning yet. Raised by an arm of `exec` only; safe. -/
  | notModelled (mnemonic : String)
  deriving DecidableEq, Repr

/-- Where the KJ8 stands in the supply and reset sequence of R46, R48 and R65. -/
inductive PowerPhase
  /-- Supplies not all good: every domain but PD_CNPY is held in reset (R46). -/
  | ramp
  /-- Stopped at step 3, REFIN having failed its check (R46). -/
  | refinWait
  /-- All domains released (R46 step 5). -/
  | running
  /-- SLEEP: only PD_CNPY is powered (R15, R65). -/
  | sleep
  deriving DecidableEq, Repr

/-- How far the entry to SLEEP has come (R65). -/
inductive SleepEntry
  | idle
  /-- The request is accepted, and NV writes are being completed. -/
  | accepted
  /-- The request has been answered. -/
  | answered
  deriving DecidableEq, Repr

/-- Supplies, clocks, pads and sleep. -/
structure Power where
  /-- Supplies judged good, in the bit order of SYS.SUPPLY.UV (R46, R48). -/
  good : BitVec 8
  phase : PowerPhase
  /-- REFIN present and within 2 % (R12, R435). -/
  refinOk : Bool
  /-- Pads whose enable-toggle loss has latched them low: 0–47 GCMD, 48–51 BRK, 52–55 DSC, 56–59 SOUT (R14). -/
  padLow : BitVec 60
  /-- Islands whose R13 reaction stands until the next BOOT. -/
  failed : BitVec 26
  /-- Since the last BOOT, a clock or crossing failure of an island of the FAULT row of R435. -/
  fltCause : Bool
  /-- A TBASE fault since the last BOOT (R24, R435). -/
  tbaseFault : Bool
  /-- SUPPLY_UV raises waiting for BOOT to begin (R48). -/
  uvPend : BitVec 8
  /-- The next BOOT follows a wake (R64). -/
  waking : Bool
  /-- A watched source latched during SLEEP entry (R66): its bit index. -/
  wakeLatch : Option (Fin 23)
  /-- Watched sources whose wake condition is active now (R63, R66). -/
  wakeActive : BitVec 23
  /-- TBASE saved in Canopy at SLEEP entry (R65). -/
  savedTbase : Nat
  /-- Ticks passed in SLEEP by the RTC (R25). -/
  sleepTicks : Nat
  /-- Stamp of the wake record (R64). -/
  wakeStamp : Nat
  /-- The SLEEP entry (R65, R66). -/
  entering : SleepEntry
  deriving DecidableEq, Repr

/-- The boot sequencer (R49). -/
structure Boot where
  /-- The step being run, 1–6; 0 before BOOT begins; 7 once every step has ended. -/
  step : Nat
  /-- Boot BIST failed outside the engines: steps 5 and 6 never run (R51). -/
  bistFail : Bool
  /-- The source of a wake record waiting to be raised at BOOT (R64). -/
  wakeRaise : Option (Fin 23)
  /-- ZEROIZED waits for the end of boot (R52). -/
  zeroRaise : Bool
  deriving DecidableEq, Repr

/-- The fuse array (R2, R49, R54, R394). -/
structure Fuses where
  life : BitVec 3
  svnFloor : Nat
  revoked : BitVec 4
  /-- SHA-384 of the public key of each slot, 48 bytes; `none` for an unprogrammed slot (R54). -/
  keyHash : Vector (Option (List Byte)) 4
  /-- Repairs burned, by the memory of the cell: at most 512 entries (R390). -/
  burned : List SpareMem
  deriving DecidableEq, Repr

/-- A 32-byte line of the NV store: the tag it was written under, and whether its code checks (R401). -/
structure NvLine where
  line : Nat
  tag : BitVec 16
  bad : Bool
  deriving DecidableEq, Repr

/-- Wear of one bridge: turning points not yet closed, last Tj, and the cycle histogram (R397, R398). -/
structure Wear where
  points : List Word
  hist : Vector Nat 32
  warned : Bool
  deriving DecidableEq, Repr

/-- The non-volatile store: its bytes and lines (R401), the page of the log being filled (R405), and what the sections
without a stated byte layout hold (R356, R398). -/
structure NvState where
  /-- The stored bytes, keyed by address of R39; an unlisted byte has never been written. -/
  bytes : List Host.Cell
  lines : List NvLine
  /-- Entries waiting for the page in progress, each 32 bytes (R405). -/
  logPend : List (List Byte)
  logSince : Nat
  logSeq : Nat
  logPage : Nat
  wearSeq : Nat
  wearPage : Nat
  /-- The safety configuration that the SAFETY section of P0 and P1 holds: register addresses and values; `none` where
  it holds none (R359, R403). -/
  config : Vector (Option (List (Nat × Word))) 2
  /-- What the newest wear records hold for each bridge: the damage and the wear state (R398). -/
  wearSaved : List (Word × Wear)
  deriving DecidableEq, Repr

/-- A response frame (R74). -/
structure Resp where
  opc : BitVec 8
  tag : BitVec 8
  code : Code
  payload : List Word
  deriving DecidableEq, Repr

/-- A command frame waiting in a port's command queue (R74, R79): what it asks, the code its frame checks gave (R76),
and the bytes it takes in the frame pool (R97). -/
structure Frame where
  opc : BitVec 8
  tag : BitVec 8
  arg : Word
  payload : List Word
  st : Code
  size : Nat
  /-- Stamp of its arrival (R43). -/
  came : Nat
  deriving DecidableEq, Repr

/-- What the command being served still waits for (R42, R65, R79, R87, R95). -/
inductive Waiting
  /-- It is being served. -/
  | serving
  | retire (t : Nat)
  | mailbox (t : Nat)
  | runToReady
  | sleep
  | abort (tok : Word)
  deriving DecidableEq, Repr

/-- A finished long operation (R94). -/
structure Finished where
  token : Word
  state : Nat
  code : Code
  done : Nat
  total : Nat
  deriving DecidableEq, Repr

/-- One host context HPn (R67). -/
structure Port where
  /-- Frames in Q(2n) that have not been taken, oldest first (R79). -/
  cmds : List Frame
  /-- The command being served, if its answer is still due. -/
  busy : Option (Frame × Waiting)
  /-- Responses in Q(2n+1), oldest first. -/
  resps : List Resp
  /-- The overflow answer outside the queues (R78). -/
  ovf : Option Resp
  /-- The read shadow: the low-half address it belongs to and the held high half (R101). -/
  shadow : Option (Nat × Word)
  serial : BitVec 16
  finished : List Finished
  /-- FSEQ of the frames the KJ8 sends for this port (R378). -/
  fseq : BitVec 16
  /-- The words clocked out by the latest read transaction (R73), or the body of the latest host-transport frame (R378). -/
  out : List Word
  deriving DecidableEq, Repr

/-- The kind of a long operation (R91, R92). -/
inductive OpKind
  | imgCommit
  | nvCommit (cal : Bool)
  | safeCommit (unlock : Bool)
  | bist (island : Fin 26) (full burn : Bool)
  | cal (target : BitVec 2)
  deriving DecidableEq, Repr

/-- A pending long operation (R91 to R95). -/
structure LongOp where
  token : Word
  port : Fin 4
  kind : OpKind
  done : Nat
  total : Nat
  /-- OP_ABORT waiting for the end of the step: its port and tag. -/
  abort : Option (Fin 4 × BitVec 8)
  /-- SAFE was entered: CAL_RUN and BIST_RUN stop at the next boundary (R96). -/
  stop : Bool
  /-- The code the operation ends with, once a check or a slice has failed. -/
  err : Code
  /-- The 4 KiB that the step in progress writes, read when it started (R403), and the bank they go to. -/
  data : List Byte
  bank : Nat
  /-- The bytes of the body, and where a user section comes from (R403). -/
  len : Nat
  src : Nat
  /-- The safety configuration a SAFE_COMMIT writes, and its session (R359). -/
  config : List (Nat × Word)
  sid : BitVec 16
  /-- Trims measured so far, or being written (R395, R403). -/
  trims : List Word
  /-- What the target bank held before its header was invalidated: bytes, lines, and its validity (R95). -/
  oldBytes : List Host.Cell
  oldLines : List NvLine
  oldValid : Nat
  /-- The steps that check what is to be written (R93). -/
  verify : Nat
  deriving DecidableEq, Repr

/-- The image staging buffer (R86). -/
structure Staging where
  port : Fin 4
  base : Nat
  size : Nat
  deriving DecidableEq, Repr

/-- An open safety session (R357). -/
structure Session where
  sid : BitVec 16
  nonce : Word
  digest : List Word
  port : Fin 4
  unlock : Bool
  conf : Bool
  fails : Nat
  opened : Nat
  deriving DecidableEq, Repr

/-- A subscribed telemetry signal (R89, R400). -/
structure Signal where
  sig : BitVec 20
  dec : Nat
  seen : Nat
  count : BitVec 16
  deriving DecidableEq, Repr

/-- A telemetry stream: its owner and its signals (R400). -/
structure Stream where
  owner : Option (Fin 4)
  signals : List Signal
  deriving DecidableEq, Repr

/-- A raise on its way to, or waiting in, the pending pool (R317 to R322). -/
structure Raise where
  src : BitVec 20
  tag : BitVec 8
  data : Word
  aux : BitVec 16
  stamp : Nat
  island : Nat
  /-- The responsible port fixed at the raise, for task sources, OP_DONE and RSP_AVAIL (R322). -/
  port : Option (Fin 4)
  /-- The full queue has been counted once for this record (R326). -/
  dropped : Bool
  /-- The queue in whose batch, that of a closed window, the record waits (R324). -/
  batch : Option Nat
  /-- The tick on which it entered the pool (R321). -/
  since : Nat
  deriving DecidableEq, Repr

/-- What the receiver of a crossing has passed on last: SEQ, the payload, and the reconstructed stamp of the cause
(R17). -/
structure Received where
  seq : Nat
  data : BitVec 64
  stamp : Nat
  deriving DecidableEq, Repr

/-- Event delivery in MEMF (R320 to R328). -/
structure Events where
  inFlight : List Raise
  pool : List Raise
  /-- The dedicated EVT_LOST entry: losses since the previous EVT_LOST record, its stamp, and whether its full queue has
  been counted (R320, R326). -/
  lost : Option (Nat × Nat × Bool)
  /-- The first tick on which the arbiter has a write slot again (R321). -/
  slotAt : Nat
  /-- End of the open moderation window of Q8–Q15 (R324). -/
  window : Vector (Option Nat) 8
  /-- End of the hold-off of each group (R325). -/
  hold : Vector (Option Nat) 64
  /-- GATE_REFUSED has been raised since the last completed transition (R45). -/
  refusedRaised : Bool
  deriving DecidableEq, Repr

/-- Where a segment copy lives (R167, R169). -/
inductive Place
  | localMem
  | sram (base : Nat)
  deriving DecidableEq, Repr

/-- A task descriptor of an image (R158). -/
structure Descr where
  kind : Nat
  cls : Nat
  react : Nat
  psrc : Word
  wcet : Nat
  entry : Nat
  codeOff : Nat
  codeLen : Nat
  constOff : Nat
  constLen : Nat
  mtypeOff : Nat
  stLog2 : Nat
  mbLog2 : Nat
  runs : Nat
  bridges : BitVec 8
  /-- Output groups: bridge, and whether it is an NPC pair. -/
  out : List (Nat × Bool)
  /-- Queues: number, and whether the task produces. -/
  que : List (Nat × Bool)
  /-- Frame entries: KIND and INDEX of R160. -/
  smp : List (Nat × Nat)
  evt : List (BitVec 20)
  tlm : List Nat
  deriving DecidableEq, Repr

/-- A frame entry as a step sees it (R147, R149). -/
structure FrameVal where
  value : Word
  flags : Word
  stamp : Nat
  deriving DecidableEq, Repr

/-- A mailbox request waiting for the task's next boundary (R87). -/
structure MbReq where
  port : Fin 4
  tag : BitVec 8
  write : Bool
  off : Nat
  words : List Word
  count : Nat
  deriving DecidableEq, Repr

/-- A move of a task (R177). -/
structure Move where
  dest : Fin 16
  copied : Bool
  deriving DecidableEq, Repr

/-- A boundary whose step waits for its frame (R154). -/
structure Boundary where
  tick : Nat
  /-- Frame entries taken at the boundary; `none` where the sensing path still has to deliver. -/
  frame : List (Option FrameVal)
  /-- Entries marked SKIP (R227). -/
  skip : List Bool
  /-- Entries whose converter took no capture at the boundary (R280). -/
  held : List Bool
  /-- Count and POSSTAT word of each port at the boundary (R231, R307). -/
  pos : List (Word × Word)
  deriving DecidableEq, Repr

/-- An admitted task. -/
structure Task where
  id : Nat
  port : Fin 4
  d : Descr
  eng : Fin 16
  code : List Word
  konst : List Byte
  /-- Types of the MBOX words, true for F (R158). -/
  mtype : List Bool
  /-- The pass-A and pass-B copies of STATE and MBOX, by offset in the copy; an unlisted byte is 0 (R104, R123). -/
  stA : List Host.Cell
  stB : List Host.Cell
  mbA : List Host.Cell
  mbB : List Host.Cell
  /-- The masks M of R123. -/
  maskS : Nat
  maskM : Nat
  placeSA : Place
  placeSB : Place
  placeMA : Place
  placeMB : Place
  placeC : Place
  stw : Word
  astat : Word
  stepn : Word
  admitted : Nat
  lastBoundary : Option Nat
  wait : Option Boundary
  reqs : List MbReq
  /-- Retirement due at the next boundary: the port and tag to answer, and the SEND code of R164. -/
  retire : Option (Option (Fin 4 × BitVec 8) × BitVec 2)
  /-- Consecutive rejected steps (R161). -/
  rejRun : Nat
  /-- The arrival delay A_j taken at admission (R170). -/
  arrive : Nat
  /-- The value of each telemetry entry that the axis supervisor goes by: a late step leaves it (R212). -/
  tlmLast : List (Nat × Word)
  /-- The value of each telemetry signal (R153). -/
  tlmSig : List (Nat × Word)
  /-- The axes of the task that have still to be evaluated for its latest step (R212). -/
  evalDue : List Nat
  lastAccept : Option Nat
  /-- The boundary at which a step timed out, which starts no step (R191). -/
  timedOut : Option Nat
  /-- Ran a step on the debug engine while EN was 1 (R208). -/
  dbgRan : Bool
  move : Option Move
  prevFrame : List FrameVal
  /-- The last valid sample of each frame entry (R149, R227). -/
  lastValid : List (Nat × FrameVal)
  /-- Position counts and statuses of the ports at the boundary of the latest step; no count where the entry came stale
  (R231, R309). -/
  posAt : List (Option Word × Word)
  deriving DecidableEq, Repr

/-- A general register of a pass: raw value, polarity tag, type (true for F) (R106, R111). -/
structure GReg where
  raw : Word
  tag : Bool
  isF : Bool
  deriving DecidableEq, Repr

/-- An accumulator of a pass (R106, R110). -/
structure AReg where
  raw : BitVec 72
  tag : Bool
  deriving DecidableEq, Repr

/-- An active hardware loop: iterations remaining, first word of the body, first word after it (R131). -/
structure LoopReg where
  left : Nat
  first : Nat
  stop : Nat
  deriving DecidableEq, Repr

/-- A fault recorded by a pass (R134). -/
structure PassFault where
  code : Nat
  err : Nat
  pc : Nat
  count : Nat
  deriving DecidableEq, Repr

/-- An output of a step, in native values (R125, R147, R186). -/
inductive OutItem
  | sta (addr : Word) (v : Word)
  | qwrw (q k : Nat) (v : Word)
  | qpush (q : Nat)
  | qpop (q : Nat)
  | pwm3 (k : Nat) (a b c : Word)
  | pwm1 (k leg : Nat) (u : Word)
  | pwmoff (k : Nat)
  | pwmtrim (k sw : Nat) (v : Word)
  | fltset (k code : Nat) (v : Word)
  | evraise (k : Nat) (v : Word)
  | tlmput (k : Nat) (v : Word)
  deriving DecidableEq, Repr

/-- An entry of the input log (R125, R128, R129): what was read and what it gave. -/
structure LogEntry where
  key : Nat
  value : Word
  high : Option Word
  /-- A refusal met there: the fault's code and its ERR value (R127). -/
  fault : Option (Nat × Nat)
  deriving DecidableEq, Repr

/-- A journal line: the segment copy (true for MBOX), its line number and its old bytes (R104). -/
structure JLine where
  mbox : Bool
  passB : Bool
  line : Nat
  old : List Byte
  deriving DecidableEq, Repr

/-- The registers and records of one pass (R103, R106, R186). -/
structure Pass where
  g : Vector GReg 32
  a : Vector AReg 8
  lc0 : Option LoopReg
  lc1 : Option LoopReg
  stw : Word
  /-- Word offset of the next instruction in the code segment. -/
  pc : Nat
  /-- Instructions executed. -/
  count : Nat
  outs : List OutItem
  /-- The store and write signatures, as CRC-32 registers (R186, R187). -/
  ssig : Word
  wsig : Word
  logPos : Nat
  journal : List JLine
  /-- The step's read shadow (R128). -/
  shadow : Option (Nat × Word)
  pops : List Nat
  pushes : List Nat
  fault : Option PassFault
  ended : Bool
  deriving DecidableEq, Repr

/-- A step in flight on an engine (R103, R105). -/
structure Step where
  task : Nat
  tick : Nat
  /-- The special PERIOD, captured at the start (R106). -/
  period : Word
  frame : List FrameVal
  passB : Bool
  cur : Pass
  /-- The finished pass A, once pass B runs (R188). -/
  resA : Option Pass
  log : List LogEntry
  /-- Queue entries present, or free, at the start of the step (R129). -/
  levels : List (Nat × Nat)
  /-- Pass B has ended and the step waits for its verdict. -/
  judged : Bool
  debug : Bool
  /-- Counted as late under R156. -/
  late : Bool
  /-- The passes that faulted, as CTL.TFLT.PASS tells (R135). -/
  faulted : BitVec 2
  endStamp : Nat
  deriving DecidableEq, Repr

/-- An engine: its steps, the running one first (R105, R171), and its place in testing. -/
structure Engine where
  steps : List Step
  /-- Stamp of the verdict that made it suspect (R194). -/
  suspAt : Option Nat
  drainDest : Option (Fin 16)
  /-- A targeted slice is due at the end of the drain (R194). -/
  targeted : Bool
  /-- To be retired when it leaves debug (R195, R205). -/
  retireDue : Bool
  halted : Bool
  /-- PYR.DBGCTL.STEP has been written while halted; the instruction is executed with the same command (R206). -/
  stepReq : Bool
  deriving DecidableEq, Repr

/-- Pyrya's memory of class P and of its canary (R197, R200). -/
structure Pyrya where
  lastP : Option Nat
  lastVerdict : Nat
  /-- Engine and stamp of the last class O of each task ID (R196). -/
  lastO : List (Nat × (Fin 16 × Nat))
  deriving DecidableEq, Repr

/-- The supervisor's state of an axis (R209 to R235). -/
structure Axis where
  ref : Int
  slope : BitVec 2
  seq : BitVec 16
  first : Bool
  startReq : Bool
  /-- Tick of the last change of STATE or ALTACT (R212, R214). -/
  entered : Nat
  /-- First boundary in REACQ (R214). -/
  reacqAt : Option Nat
  /-- Start of the following-error timer (R230). -/
  feAt : Option Nat
  /-- Consecutive evaluations for which a confirmation has held (R214). -/
  confHi : Nat
  confLo : Nat
  confStand : Nat
  confLq : Nat
  confLoss : Nat
  still : Nat
  lastCnt : Option Word
  /-- SKIPRUN has exceeded SKIPMAX and has not yet returned to 0 (R228). -/
  skipLimRaised : Bool
  /-- The state, the ALT bit and the reference last written in the axis words (R211, R212); 0 for none. -/
  shown : Nat
  shownAlt : Bool
  wordRef : Int
  /-- The SS1 demand of R232. -/
  ss1Req : Bool
  /-- The rank of the trigger whose transition waits for the boundary that shows it; 0 for none (R235). -/
  rank : Nat
  /-- A STOP that a pending transition of a higher rank has outranked (R235). -/
  stopReq : Bool
  deriving DecidableEq, Repr

/-- A command input (R236 to R239). -/
structure CmdIn where
  /-- Raw values, newest first. -/
  raws : List Nat
  good : Nat
  value : Int
  /-- The last value that was valid (R239). -/
  lastValid : Int
  /-- Stamp of the latest raw value. -/
  stamp : Nat
  deriving DecidableEq, Repr

/-- A leg command (R150). -/
inductive LegCmd
  | off
  | drive (u : Word)
  deriving DecidableEq, Repr

/-- The commands of a leg: in the shadow register, and loaded (R151, R244). -/
structure Leg where
  shadow : LegCmd
  loaded : LegCmd
  deriving DecidableEq, Repr

/-- What a channel's pad does from its last update on: its level at once, and the times of the edges that follow, in
units of 78.125 ps from that update (R244 to R247). -/
structure Wave where
  on : Bool
  edges : List Int
  deriving DecidableEq, Repr

/-- A pad held low. -/
def Wave.low : Wave := ⟨false, []⟩

/-- A switch channel SWn (R245 to R256). -/
structure Chan where
  wave : Wave
  upd : Nat
  gflt : Bool
  /-- Acceptance stamp of the latched fault. -/
  fltAt : Option Nat
  /-- Carrier periods ended since the last falling edge (R250). -/
  periods : Nat
  /-- A cleared switch waits for the bridge's next update point (R255). -/
  waitUpd : Bool
  deriving DecidableEq, Repr

/-- The safe-state side of a bridge or unit (R257 to R263). -/
structure UnitSt where
  stoIn : Bool
  stoFlt : Bool
  stoSafe : Bool
  /-- The demand has no cause but SAFE entry (R263). -/
  onlySafe : Bool
  /-- ASC chosen, waiting for ASCDLY: the tick and the pattern (R259). -/
  ascAt : Option (Nat × BitVec 3)
  lastChoose : Nat
  waitUpd : Bool
  /-- RUN to READY: all switches off since the boundary (R41). -/
  stopped : Bool
  deriving DecidableEq, Repr

/-- A running discharge (R267). -/
structure Disch where
  since : Nat
  v0 : Nat
  checked : Bool
  done : Bool
  failed : Bool
  belowSince : Option Nat
  deriving DecidableEq, Repr

/-- A DC link (R264 to R269). -/
structure Link where
  vdc : Word
  valid : Bool
  /-- Stamp of the value. -/
  stamp : Nat
  /-- Start of the PEAK period, and the peak-current code set there (R265). -/
  period : Option Nat
  ipk : Int
  dac : Int
  /-- The chopper is on by its mode. -/
  chopOn : Bool
  /-- The present PEAK period began with the chopper on (R265). -/
  began : Bool
  ovForced : Bool
  armed : Bool
  dsc : Option Disch
  deriving DecidableEq, Repr

/-- A capture that a sensing path has delivered: its sample instant, its code, and whether it is valid and comes from a
pair member that serves alone (R149, R274, R280). -/
structure Capture where
  tick : Nat
  code : Int
  valid : Bool
  half : Bool
  deriving DecidableEq, Repr

/-- A delta-sigma channel (R274 to R277). -/
structure Dsm where
  /-- Free-running outputs since the clock started or the channel was enabled (R62). -/
  fill : Nat
  stuck : Bool
  relHi : Bool
  relLo : Bool
  /-- The latest protection-path value delivered, as a code of R271 (R248). -/
  prot : Int
  /-- Stamp of the latest free-running output. -/
  stamp : Nat
  /-- When the filters began to fill (R62, R277). -/
  since : Nat
  /-- The latest captures of the control and of the protection path (R274, R275). -/
  cap : Option Capture
  pcap : Option Capture
  deriving DecidableEq, Repr

/-- A delta-sigma channel that has never run. -/
def Dsm.init : Dsm := ⟨0, false, false, false, 0, 0, 0, none, none⟩

/-- An on-chip converter (R280, R281). -/
structure Conv where
  outs : Nat
  lastCap : Option Nat
  readback : Bool
  /-- Stamp of the value in ADC.RES. -/
  stamp : Nat
  /-- The latest capture delivered. -/
  got : Option Capture
  deriving DecidableEq, Repr

/-- A converter that has never run. -/
def Conv.init : Conv := ⟨0, none, false, 0, none⟩

/-- One side of a comparator: its filtered output, whether that has left its reset level, the raw output, which has no state
before the input first leaves the band, the raw samples, newest first, and the run of samples outside the band on one side
(R61, R286, R287). -/
structure CompSide where
  out : Bool
  left : Bool
  raw : Option Bool
  hist : List Bool
  run : Nat
  side : Bool
  deriving DecidableEq, Repr

/-- A side at its reset level. -/
def CompSide.start (l : Bool) : CompSide := ⟨l, false, none, [], 0, false⟩

/-- A comparator. -/
structure Comp where
  hi : CompSide
  lo : CompSide
  deriving DecidableEq, Repr

/-- A comparator at a reset level. -/
def Comp.start (l : Bool) : Comp := ⟨CompSide.start l, CompSide.start l⟩

/-- A plausibility group (R285). -/
structure Plaus where
  misses : Nat
  lastPass : Bool
  deriving DecidableEq, Repr

/-- A position port (R292 to R313). -/
structure PosPort where
  cntSet : Bool
  a : Bool
  b : Bool
  sector : Option Nat
  /-- Stamps of counted edges since the last reversal or standstill, newest first (R304). -/
  edges : List Nat
  moved : Bool
  /-- Held flags SEQERR, CRCERR, WIREERR, ENCERR and the tick of their last occurrence (R307). -/
  heldFlags : BitVec 4
  heldAt : Vector Nat 4
  zActive : Bool
  idxCount : Nat
  lastData : Option Nat
  lastStamp : Nat
  goodRun : Nat
  inFrame : Option Nat
  phi : Int
  omega : Int
  lockRun : Nat
  locked : Bool
  deriving DecidableEq, Repr

/-- An encoder emulator (R314, R315). -/
structure Emu where
  acc : Int
  backlog : Int
  count : Word
  lastEdge : Nat
  phase : BitVec 2
  z : Bool
  idxDue : Bool
  deriving DecidableEq, Repr

/-- A safe-input channel (R336, R337). -/
structure SinCh where
  level : Bool
  window : Bool
  deriving DecidableEq, Repr

/-- A safe-input pair (R336 to R338). -/
structure SinPair where
  demand : Bool
  bothDem : Bool
  deriving DecidableEq, Repr

/-- The functions of a safety axis (R344 to R348). -/
structure SafeAxis where
  /-- When STO and SS1 came into force (R347). -/
  stoAt : Option Nat
  ss1At : Option Nat
  /-- v0 of SS1, if it was known, and whether the ramp is watched (R346). -/
  ss1V0 : Option Int
  ss1Ramp : Bool
  /-- When each SLS limit was demanded (R346). -/
  slsAt : Vector (Option Nat) 4
  /-- c_x of SDI with upward and with downward motion permitted (R346). -/
  sdiUp : Option Word
  sdiDn : Option Word
  /-- Consecutive cycles without a plausible speed, beyond the SLS limit, and beyond the SS1 ramp. -/
  bad : Nat
  slsBad : Nat
  ss1Bad : Nat
  vs : Int
  vsKnown : Bool
  cnt : Word
  deriving DecidableEq, Repr

/-- A copy of a PDU that has left (R379): the bytes of an Ethernet frame up to its FCS, or a CAN FD frame. -/
inductive PduCopy
  | eth (m : Fin 2) (bytes : List Byte)
  | can (c : Fin 4) (id : Nat) (brs : Bool) (data : List Byte)
  deriving DecidableEq, Repr

/-- A safety connection (R350 to R355). -/
structure Conn where
  /-- SEQ of the last PDU accepted. -/
  lastSeq : Option Nat
  /-- The open window: SEQ, bytes 0–27, which network, and when it opened. -/
  window : Option (Nat × List Byte × Bool × Nat)
  lastAcc : Nat
  payload : List Byte
  /-- Demands taken at once from a first copy (R353). -/
  early : List Byte
  degrSince : Option Nat
  agree : Nat
  txSeq : Word
  txLast : List Byte
  /-- The frames of the copies of the last PDU sent (R351, R379). -/
  txCopies : List PduCopy
  deriving DecidableEq, Repr

/-- A safe output (R339 to R341). -/
structure Sout where
  /-- A test runs: `some true` while the output is on (R340). -/
  test : Option Bool
  /-- FLT was cleared and a dark test has still to complete (R341). -/
  needDark : Bool
  /-- A BRAKE output that was on when STO began stays on for TSBC (R339). -/
  hold : Bool
  deriving DecidableEq, Repr

/-- The safety functions in FBRK beyond the registers. -/
structure Safety where
  /-- Both inputs low together since STOFLT, then high together (R335). -/
  fltArm : Nat
  sin : Vector SinCh 16
  pair : Vector SinPair 8
  axes : Vector SafeAxis 8
  conn : Vector Conn 16
  sout : Vector Sout 4
  /-- Tick before which a new session is refused (R357, R358). -/
  sessBar : Nat
  sess : Option Session
  seeds : Vector (Option (List Word)) 4
  /-- Supplies out of range, and the die above 130 °C (R416). -/
  condSupply : BitVec 8
  condTemp : Bool
  /-- The condition of R417, until below 125 °C for 1 s. -/
  hot : Bool
  deriving DecidableEq, Repr

/-- A CAN controller (R362 to R375). -/
structure Can where
  cycle : Nat
  /-- Sync mark of the last reference message sent (R375). -/
  refSent : Option Nat
  /-- Cycle count and own stamp of the last reference message received. -/
  refIn : Option (Nat × Nat)
  /-- Data bytes of the last reference message sent. -/
  refLast : List Byte
  /-- The last frame of the transmit ring that was sent (R369). -/
  txLast : Option CanFrame
  deriving DecidableEq, Repr

/-- An Ethernet MAC (R376). -/
structure Eth where
  mdioWrite : Bool
  /-- The last frame of the transmit ring that was sent, padded to 60 bytes, up to its FCS (R376, R377). -/
  txLast : List Byte
  deriving DecidableEq, Repr

/-- The Percolator (R384 to R398). -/
structure Bgs where
  slices : List SliceBlock
  cycleStart : Nat
  /-- Slices each block has had in this coverage cycle: engines, SRAM banks, then the other islands in the order of R387. -/
  had : Vector Nat 42
  /-- Converters whose offset trim has moved in this cycle (R396). -/
  moved : List (Fin 24)
  /-- The trims in force (R395), and the committed ones: those of the calibration bank, or of the factory (R58). -/
  trims : List Word
  committed : List Word
  lastCorr : List (MemLoc × Nat)
  /-- Soft repairs not yet in fuses, by the memory of the cell (R390). -/
  softRepairs : List SpareMem
  wear : Vector Wear 8
  deriving DecidableEq, Repr

/-- The state of the KJ8. -/
structure State where
  /-- Register words that differ from their reset word, by rising byte address (R406, R408). -/
  regs : List (Nat × Word)
  /-- TBASE, in ticks (R23). -/
  tbase : Nat
  /-- Canopy's clock since power-on, in ticks: the RTC count is this × 32,768 / 200,000,000 (R63). -/
  rtc : Nat
  pwr : Power
  boot : Boot
  fuses : Fuses
  /-- Shared SRAM, by byte address; an unlisted byte reads 0 (R31). -/
  sram : List Host.Cell
  /-- Poisoned codewords of SRAM, by codeword number (R33). -/
  poison : List Nat
  /-- Codewords that hold symbols in error, and how many symbols (R31 to R33, R36). -/
  upsets : List (MemLoc × Nat)
  /-- Crossings by 32 × source + destination: what each receiver has passed on last (R17, R18). -/
  xings : List (Nat × Received)
  /-- The model's own: counts what may change the words of the engines' local memories. -/
  localVer : Nat
  nv : NvState
  ports : Vector Port 4
  ops : List LongOp
  staging : Option Staging
  streams : Vector Stream 4
  ev : Events
  tasks : List Task
  engines : Vector Engine 16
  pyr : Pyrya
  axes : Vector Axis 8
  cmdin : Vector CmdIn 8
  legs : Vector Leg 24
  chans : Vector Chan 48
  units : Vector UnitSt 8
  /-- GCMD edges seen at the pad drivers: channel, and time in units of 78.125 ps (R226). -/
  edges : List (Nat × Nat)
  links : Vector Link 4
  dsm : Vector Dsm 64
  conv : Vector Conv 24
  comp : Vector Comp 32
  plaus : Vector Plaus 32
  pos : Vector PosPort 8
  emu : Vector Emu 4
  safe : Safety
  can : Vector Can 4
  eth : Vector Eth 2
  bgs : Bgs
  /-- PTPOFS_LO written and not yet applied; the applied OFS (R380). -/
  ptpHeld : Word
  ptpOfs : BitVec 64
  /-- The model's own: the answer code of the last register write made by a command of its own row. -/
  wrCode : Code
  /-- The model's own: which free value comes next. -/
  freeCtr : Nat
  /-- Commands waiting, first in first out. -/
  pending : List Instr
  deriving DecidableEq, Repr

/-- Every entry of an array at one value. -/
def fillV (n : Nat) {α : Type} (a : α) : Vector α n := Vector.replicate n a

/-- A pass before it starts: registers 0, tag 0, type I (R103). -/
def Pass.init : Pass where
  g := fillV 32 ⟨0, false, false⟩
  a := fillV 8 ⟨0, false⟩
  lc0 := none
  lc1 := none
  stw := 0
  pc := 0
  count := 0
  outs := []
  ssig := 0xFFFFFFFF
  wsig := 0xFFFFFFFF
  logPos := 0
  journal := []
  shadow := none
  pops := []
  pushes := []
  fault := none
  ended := false

/-- The fuse array as the part leaves the factory: FIELD, floor 0 (R2), and, by this model's choice, no key slot
programmed, no slot revoked and no repair burned. DESIGN CHOICE (log entry 13). -/
def Fuses.delivered : Fuses := ⟨0b001, 0, 0, fillV 4 none, []⟩

/-- A host context right after reset. -/
def Port.init : Port := ⟨[], none, [], none, none, 0, [], 0, []⟩

def Axis.init : Axis := ⟨0, 0, 0, false, false, 0, none, none, 0, 0, 0, 0, 0, 0, none, false, 0, false, 0, false, 0, false⟩

def PosPort.init : PosPort :=
  ⟨false, false, false, none, [], false, 0, fillV 4 0, false, 0, none, 0, 0, none, 0, 0, 0, false⟩

def SafeAxis.init : SafeAxis :=
  ⟨none, none, none, false, fillV 4 none, none, none, 0, 0, 0, 0, false, 0⟩

def Safety.init : Safety where
  fltArm := 0
  sin := fillV 16 ⟨false, false⟩
  pair := fillV 8 ⟨true, false⟩
  axes := fillV 8 SafeAxis.init
  conn := fillV 16 ⟨none, none, 0, [], [], none, 0, 0, [], []⟩
  sout := fillV 4 ⟨none, false, false⟩
  sessBar := 0
  sess := none
  seeds := fillV 4 none
  condSupply := 0
  condTemp := false
  hot := false

/-- The KJ8 at power-on reset of every domain (R46): VDDK has just become good, the other supplies are not yet all
good, every register holds its reset word, and no memory has been written. -/
def State.reset : State where
  regs := []
  tbase := 0
  rtc := 0
  pwr := ⟨0b00000001, .ramp, true, 0, 0, false, false, 0, false, none, 0, 0, 0, 0, .idle⟩
  boot := ⟨0, false, none, false⟩
  fuses := Fuses.delivered
  sram := []
  poison := []
  upsets := []
  xings := []
  localVer := 0
  nv := ⟨[], [], [], 0, 0, 0, 0, 0, fillV 2 none, []⟩
  ports := fillV 4 Port.init
  ops := []
  staging := none
  streams := fillV 4 ⟨none, []⟩
  ev := ⟨[], [], none, 0, fillV 8 none, fillV 64 none, false⟩
  tasks := []
  engines := fillV 16 ⟨[], none, none, false, false, false, false⟩
  pyr := ⟨none, 0, []⟩
  axes := fillV 8 Axis.init
  cmdin := fillV 8 ⟨[], 0, 0, 0, 0⟩
  legs := fillV 24 ⟨.off, .off⟩
  chans := fillV 48 ⟨Wave.low, 0, false, none, 0, false⟩
  units := fillV 8 ⟨false, false, false, false, none, 0, false, false⟩
  edges := []
  links := fillV 4 ⟨0, false, 0, none, 0, 0, false, false, false, false, none⟩
  dsm := fillV 64 Dsm.init
  conv := fillV 24 Conv.init
  comp := fillV 32 (Comp.start false)
  plaus := fillV 32 ⟨0, false⟩
  pos := fillV 8 PosPort.init
  emu := fillV 4 ⟨0, 0, 0, 0, 0, false, false⟩
  safe := Safety.init
  can := fillV 4 ⟨0, none, none, [], none⟩
  eth := fillV 2 ⟨false, []⟩
  bgs := ⟨[], 0, fillV 42 0, [], [], [], [], [], fillV 8 ⟨[], fillV 32 0, false⟩⟩
  ptpHeld := 0
  ptpOfs := 0
  wrCode := 0
  freeCtr := 0
  pending := []

end Sys2Proof.Machine
end

