-- ==== Sys2Proof/Machine/Ops.lean ====
section
/-! DEFINITION. The named operations every family shares: registers and their fields, sparse memories, arrays,
signed values, raising an event, and answering a host. -/

namespace Sys2Proof.Machine

/-- An outcome of a command. -/
abbrev Out := Host.Outcome State Fault Refusal

/-- The entry of a sparse list at key `a`. -/
def assocGet {α : Type} : List (Nat × α) → Nat → Option α
  | [], _ => none
  | (k, v) :: l, a => if k = a then some v else assocGet l a

/-- Enter `v` at key `a`, keeping the keys strictly rising. -/
def assocPut {α : Type} : List (Nat × α) → Nat → α → List (Nat × α)
  | [], a, v => [(a, v)]
  | (k, w) :: l, a, v =>
    if a < k then (a, v) :: (k, w) :: l else if a = k then (a, v) :: l else (k, w) :: assocPut l a v

/-- Remove what is listed at key `a`. -/
def assocDel {α : Type} : List (Nat × α) → Nat → List (Nat × α)
  | [], _ => []
  | (k, w) :: l, a => if k = a then assocDel l a else (k, w) :: assocDel l a

/-- Keys strictly rising, all above `b`. -/
def rising {α : Type} : Option Nat → List (Nat × α) → Bool
  | _, [] => true
  | none, (k, _) :: l => rising (some k) l
  | some b, (k, _) :: l => decide (b < k) && rising (some k) l

/-- The canonical form of a memory whose unlisted bytes read `d`: addresses strictly rising, no entry equal to `d`. -/
def Memory.wf (d : Byte) (m : List Host.Cell) : Bool := rising none m && m.all fun c => decide (c.2 ≠ d)

/-- The byte at `a`, where an unlisted byte reads 0. -/
def byteAt (m : List Host.Cell) (a : Nat) : Byte := (assocGet m a).getD 0

/-- Store a byte, keeping the canonical form. -/
def putByte (m : List Host.Cell) (a : Nat) (b : Byte) : List Host.Cell :=
  if b = 0 then assocDel m a else assocPut m a b

/-- The bytes `a` to `a + n − 1`. -/
def bytesAt (m : List Host.Cell) (a n : Nat) : List Byte := (List.range n).map fun i => byteAt m (a + i)

/-- Store a list of bytes from `a` up. -/
def putBytes (m : List Host.Cell) (a : Nat) : List Byte → List Host.Cell
  | [] => m
  | b :: l => putBytes (putByte m a b) (a + 1) l

/-- A word from bytes, least significant first (spec/00_scope.md: little-endian throughout). -/
def leNat : List Byte → Nat
  | [] => 0
  | b :: l => b.toNat + 256 * leNat l

/-- The `n` low bytes of `v`, least significant first. -/
def leBytes : Nat → Nat → List Byte
  | 0, _ => []
  | n + 1, v => BitVec.ofNat 8 v :: leBytes n (v / 256)

/-- The word at byte address `a`. -/
def wordAt (m : List Host.Cell) (a : Nat) : Word := BitVec.ofNat 32 (leNat (bytesAt m a 4))

/-- Store a word. -/
def putWord (m : List Host.Cell) (a : Nat) (v : Word) : List Host.Cell := putBytes m a (leBytes 4 v.toNat)

/-- Store consecutive words. -/
def putWords (m : List Host.Cell) (a : Nat) : List Word → List Host.Cell
  | [] => m
  | v :: l => putWords (putWord m a v) (a + 4) l

/-- Bits `lo` to `lo + w − 1` of `v`. -/
def bits (v lo w : Nat) : Nat := v / 2 ^ lo % 2 ^ w

/-- `v` with bits `lo` to `lo + w − 1` replaced by `x`. -/
def setBits (v lo w x : Nat) : Nat := v - bits v lo w * 2 ^ lo + x % 2 ^ w * 2 ^ lo

/-- `x`, of width `w`, read as two's complement. -/
def sext (w x : Nat) : Int := if x % 2 ^ w < 2 ^ (w - 1) then (x % 2 ^ w : Nat) else (x % 2 ^ w : Nat) - (2 ^ w : Nat)

/-- The two's-complement code of `x` in `w` bits. -/
def codeOf (w : Nat) (x : Int) : Nat := (x % (2 ^ w : Nat)).toNat

/-- Q1.31 value of a word as a signed integer. -/
def sval (v : Word) : Int := v.toInt

/-- The word of a signed integer. -/
def ofInt (x : Int) : Word := BitVec.ofInt 32 x

/-- Clip to a range. -/
def clampI (lo hi x : Int) : Int := if x < lo then lo else if hi < x then hi else x

/-- Symmetric saturation to Q1.31 (R108). -/
def sat31 (x : Int) : Int := clampI (-(2 ^ 31 - 1)) (2 ^ 31 - 1) x

/-- `a / b`, rounded half away from zero, for `b > 0` (R108). -/
def rndDiv (a b : Int) : Int := if 0 ≤ a then (2 * a + b) / (2 * b) else -((-2 * a + b) / (2 * b))

/-- Magnitude of a signed value. -/
def absI (x : Int) : Int := if x < 0 then -x else x

/-- Sign of a signed value. -/
def sgnI (x : Int) : Int := if x < 0 then -1 else if x = 0 then 0 else 1

/-- Integer square root, by bit-wise search from bit `k`. -/
def isqrtFrom (n : Nat) : Nat → Nat → Nat
  | 0, r => if (r + 1) * (r + 1) ≤ n then r + 1 else r
  | k + 1, r => if (r + 2 ^ (k + 1)) * (r + 2 ^ (k + 1)) ≤ n then isqrtFrom n k (r + 2 ^ (k + 1)) else isqrtFrom n k r

/-- ⌊√n⌋, for n below 2^192. -/
def isqrt (n : Nat) : Nat := isqrtFrom n 95 0

/-- Replace entry `i` of an array. -/
def upd {α : Type} {n : Nat} (v : Vector α n) (i : Nat) (f : α → α) : Vector α n :=
  if h : i < n then v.set i (f v[i]) else v

/-- Entry `i` of an array, or `d` past its end. -/
def at' {α : Type} {n : Nat} (v : Vector α n) (i : Nat) (d : α) : α := if h : i < n then v[i] else d

/-! Registers. -/

/-- The stored word of register `r`, member `i` (R407, R408). -/
def State.word (s : State) (r : Reg) (i : Nat := 0) : Word :=
  (assocGet s.regs (r.addr i)).getD (BitVec.ofNat 32 (r.resetOf i))

/-- Store a register word; a word equal to the reset word is not listed. -/
def State.setWord (s : State) (r : Reg) (i : Nat) (v : Word) : State :=
  { s with regs := if v = BitVec.ofNat 32 (r.resetOf i) then assocDel s.regs (r.addr i)
                   else assocPut s.regs (r.addr i) v }

/-- A field's value. -/
def State.g (s : State) (f : FRef) (i : Nat := 0) : Nat := bits (s.word f.reg i).toNat f.lo f.w

/-- A one-bit field as a truth value. -/
def State.gb (s : State) (f : FRef) (i : Nat := 0) : Bool := s.g f i != 0

/-- Store a field's value. -/
def State.p (s : State) (f : FRef) (i : Nat) (x : Nat) : State :=
  s.setWord f.reg i (BitVec.ofNat 32 (setBits (s.word f.reg i).toNat f.lo f.w x))

/-- Store a one-bit field. -/
def State.pb (s : State) (f : FRef) (i : Nat) (b : Bool) : State := s.p f i (if b then 1 else 0)

/-- Add to a counter field, saturating at its greatest value. -/
def State.inc (s : State) (f : FRef) (i : Nat) (n : Nat := 1) : State := s.p f i (min (2 ^ f.w - 1) (s.g f i + n))

/-- A signed field. -/
def State.gs (s : State) (f : FRef) (i : Nat := 0) : Int := sext f.w (s.g f i)

/-- Bit `j` of a field. -/
def State.gbit (s : State) (f : FRef) (i j : Nat) : Bool := (s.g f i).testBit j

/-- Set or clear bit `j` of a field. -/
def State.pbit (s : State) (f : FRef) (i j : Nat) (b : Bool) : State :=
  s.p f i (setBits (s.g f i) j 1 (if b then 1 else 0))

/-- The next free value (log entry 3). -/
def State.free (s : State) : Word := Config.freeWord s.freeCtr

/-- Advance to the next free value. -/
def State.used (s : State) : State := { s with freeCtr := s.freeCtr + 1 }

/-! Modes (R40). -/

def mSLEEP : Nat := 0
def mBOOT : Nat := 1
def mCONFIGURE : Nat := 2
def mREADY : Nat := 3
def mRUN : Nat := 4
def mSAFE : Nat := 5

/-- The present mode. -/
def State.mode (s : State) : Nat := s.g SYS.MODE_CUR

/-- Whether PD_MEMF and the other domains are powered and released (R15, R46). -/
def State.up (s : State) : Bool := s.pwr.phase == .running

/-- Whether an island answers: its domain is powered, and no failure makes it count as unpowered (R13, R16, R434). -/
def State.islandUp (s : State) (i : Nat) : Bool :=
  match s.pwr.phase with
  | .running => !(i ∈ [18, 22, 23, 24] && s.pwr.failed.getLsbD i)
  | _ => i == 0

/-! Error codes (R90). -/

def eOK : Code := 0x0000
def eCRC : Code := 0x0101
def eLEN : Code := 0x0102
def eOPC : Code := 0x0103
def eTAG : Code := 0x0104
def eRIGHTS : Code := 0x0201
def eOWNER : Code := 0x0202
def eRANGE : Code := 0x0301
def eALIGN : Code := 0x0302
def eRESV : Code := 0x0303
def eENUM : Code := 0x0304
def eMODE : Code := 0x0401
def eLOCKED : Code := 0x0402
def eNOSPACE : Code := 0x0501
def eNOTASK : Code := 0x0502
def eNOENGINE : Code := 0x0503
def eSAFETY : Code := 0x0601
def eCONFIRM : Code := 0x0602
def eSESSION : Code := 0x0603
def eNVCHK : Code := 0x0701
def eSIG : Code := 0x0702
def eMEMCHK : Code := 0x0703
def ePENDING : Code := 0x0801
def eABORTED : Code := 0x0802
def eDEFERRED : Code := 0x0803
def eBUSY : Code := 0x0804

/-- The first code of a list that is not E_OK. -/
def firstCode : List (Bool × Code) → Code
  | [] => eOK
  | (b, c) :: l => if b then c else firstCode l

/-! Events (R317 to R322, R436). -/

/-- Sources whose payload tag holds a task ID (R322). -/
def taskTagged (src : Nat) : Bool :=
  src ∈ [0x60, 0x61, 0x62, 0x63, 0x64, 0x68, 0x6B, 0x70, 0x71, 0x74]

/-- Raise a source from an island, with DATA, AUX and the responsible port fixed at the raise. Nothing is raised
while MEMF is unpowered (R16). Every island's view of TBASE is taken as TBASE itself, with no stamp error. DESIGN CHOICE
(log entry 101). -/
def State.raiseFull (s : State) (isl src tag : Nat) (data : Word) (aux : BitVec 16) (port : Option (Fin 4)) : State :=
  if s.up then
    { s with ev := { s.ev with inFlight := s.ev.inFlight ++
        [⟨BitVec.ofNat 20 src, BitVec.ofNat 8 tag, data, aux, s.tbase, isl, port, false, none, 0⟩] } }
  else s

/-- Raise a source of the KJ8's own blocks with the stamp of the instant that caused it (R310, R312). -/
def State.raiseAt (s : State) (stamp isl src tag : Nat) : State :=
  if s.up then
    { s with ev := { s.ev with inFlight := s.ev.inFlight ++
        [⟨BitVec.ofNat 20 src, BitVec.ofNat 8 tag, 0, 0, stamp, isl, none, false, none, 0⟩] } }
  else s

/-- Raise a source of the KJ8's own blocks. -/
def State.raise (s : State) (isl src tag : Nat) : State :=
  s.raiseFull isl src tag 0 0
    (if taskTagged src then some (Fin.ofNat 4 (s.g PLC.TLOC_PORT tag)) else none)

/-- What a reaction raises in another island carries at least the stamp of its cause plus 1 (R29): `was` is the state in
which the cause has just been raised, `s` the state after the reaction. -/
def State.afterCause (was s : State) : State :=
  match was.ev.inFlight.getLast? with
  | none => s
  | some c =>
    let n := was.ev.inFlight.length
    { s with ev := { s.ev with inFlight := s.ev.inFlight.take n ++ (s.ev.inFlight.drop n).map fun r =>
        if r.island = c.island then r else { r with stamp := max r.stamp (c.stamp + 1) } } }

/-! Answering a host (R74, R80). -/

/-- Put a response into Q(2n+1), raising RSP_AVAILn when the queue was empty. -/
def State.answer (s : State) (n : Fin 4) (r : Resp) : State :=
  let pt := s.ports[n]
  let s1 := { s with ports := s.ports.set n { pt with resps := pt.resps ++ [r] } }
  let s2 := s1.setWord QUE.QTAIL (2 * n.val + 1) (s1.word QUE.QTAIL (2 * n.val + 1) + 1)
  if pt.resps.isEmpty then s2.raiseFull 18 (0x44 + n.val) 0 0 0 (some n) else s2

/-! Bridges and ownership (R68). -/

/-- Whether port `n` owns bridge `k`. -/
def State.owns (s : State) (n : Fin 4) (k : Nat) : Bool := s.gbit HOST.RIGHTS_BRIDGE n k

/-- The owner of bridge `k`. -/
def State.ownerOf (s : State) (k : Nat) : Option (Fin 4) :=
  (List.finRange 4).find? fun n => s.owns n k

/-- The port that holds SAFEOWN. -/
def State.safeOwner (s : State) : Option (Fin 4) :=
  (List.finRange 4).find? fun n => s.gb HOST.RIGHTS_SAFEOWN n

/-- The port whose rights a writer uses (R126). -/
def State.writerPort (s : State) : Who → Option (Fin 4)
  | .host n => some n
  | .task t => (s.tasks.find? fun x => x.id == t.val).map (·.port)

/-- The admitted task of an ID. -/
def State.task? (s : State) (t : Nat) : Option Task := s.tasks.find? fun x => x.id == t

/-- Replace an admitted task. -/
def State.setTask (s : State) (t : Task) : State :=
  { s with tasks := s.tasks.map fun x => if x.id == t.id then t else x }

/-- Change an admitted task, if there is one. -/
def State.modTask (s : State) (t : Nat) (f : Task → Task) : State :=
  { s with tasks := s.tasks.map fun x => if x.id == t then f x else x }

/-- Fold an operation over a list of indices. -/
def overL {α : Type} (l : List α) (f : α → State → State) (s : State) : State := l.foldl (fun s a => f a s) s

/-- A link entry past the end of the array. -/
def Link.none : Link := ⟨0, false, 0, Option.none, 0, 0, false, false, false, false, Option.none⟩

/-- The VDC16 of a link: the upper 16 bits of its VDC value (R264). -/
def State.vdc16 (s : State) (l : Nat) : Int := sval (at' s.links l Link.none).vdc / 65536

/-- The link whose BRMASK holds bridge `k`. -/
def State.linkOf (s : State) (k : Nat) : Option (Fin 4) :=
  (List.finRange 4).find? fun l => s.gb DCL.CFG_EN l && s.gbit DCL.CFG_BRMASK l k

/-- A DC link measures below 60 V (R437). -/
def State.below60 (s : State) (l : Fin 4) : Bool :=
  s.gb DCL.CFG_EN l && s.links[l].valid && decide (s.vdc16 l ≤ s.g DCL.OV_VSAFE l)

end Sys2Proof.Machine
end

