-- ==== Sys2Proof/Machine/Flags.lean ====
section
/-! DEFINITION. The flags of STW (R106) and how an instruction sets them (R107, R137). -/

namespace Sys2Proof.Machine

/-- A saturating result was clamped, or a Q1.31 operand was 0x8000_0000. -/
def fSAT : Word := 1
/-- A wrapping result overflowed, an accumulator saturated, or binary32 overflowed to infinity. -/
def fOVF : Word := 2
/-- Division by zero. -/
def fDVZ : Word := 4
/-- A binary32 operation produced NaN. -/
def fNAN : Word := 8
/-- A clip instruction changed its value, or SQRTQ met a negative operand. -/
def fCLIP : Word := 16

/-- A flag where a condition holds. -/
def flagIf (b : Bool) (f : Word) : Word := if b then f else 0

/-- A signed result that 32 bits do not hold sets OVF (R117). -/
def wrapFlag (x : Int) : Word := flagIf (!decide (-(2 ^ 31) ≤ x ∧ x < 2 ^ 31)) fOVF

/-- A saturating result and its SAT flag (R108). -/
def satOut (x : Int) : Int × Word := (sat31 x, flagIf (sat31 x != x) fSAT)

/-- Clip to ±`l`, with CLIP where the value changed. -/
def clipOut (l x : Int) : Int × Word := (clampI (-l) l x, flagIf (clampI (-l) l x != x) fCLIP)

/-- Clamp an accumulator to its symmetric range, with OVF (R110). -/
def accOut (x : Int) : Int × Word :=
  let m : Int := 2 ^ 71 - 1
  (clampI (-m) m x, flagIf (clampI (-m) m x != x) fOVF)

end Sys2Proof.Machine
end

