-- ==== Sys2Proof/Machine/Crypto.lean ====
section
/-! DEFINITION. The check codes and the cryptography the spec names: CRC-32C (R75), CRC-32 (R187), SHA-384 and
ECDSA over P-384 (R54), HMAC-SHA-384 (R358). The spec names these standards and does not print them: their
constants are PRESUMED from FIPS 180-4, FIPS 186-5 and FIPS 198-1 (log entry 6). -/

namespace Sys2Proof.Machine

/-- One byte into a reflected 32-bit CRC register. -/
def crcByte (poly c : Word) (b : Byte) : Word :=
  (List.range 8).foldl (fun x _ => if x.getLsbD 0 then (x >>> 1) ^^^ poly else x >>> 1) (c ^^^ b.setWidth 32)

/-- Bytes into a reflected CRC register. -/
def crcRun (poly c : Word) (l : List Byte) : Word := l.foldl (crcByte poly) c

/-- CRC-32C with a chosen initial value (R75, R350). -/
def crc32cFrom (init : Word) (l : List Byte) : Word := ~~~ crcRun 0x82F63B78 init l

/-- CRC-32C (R75). -/
def crc32c (l : List Byte) : Word := crc32cFrom 0xFFFFFFFF l

/-- One entry into a CRC-32 signature register (R187). -/
def crc32Run (c : Word) (l : List Byte) : Word := crcRun 0xEDB88320 c l

/-- The bytes of words in wire order: least significant first (R72). -/
def wordBytes (l : List Word) : List Byte := l.flatMap fun w => leBytes 4 w.toNat

/-- Words from bytes, four at a time. -/
def bytesWords : List Byte → List Word
  | a :: b :: c :: d :: l => BitVec.ofNat 32 (leNat [a, b, c, d]) :: bytesWords l
  | _ => []

/-- A big-endian number from bytes. -/
def beNat (l : List Byte) : Nat := l.foldl (fun a b => a * 256 + b.toNat) 0

/-- The `n` bytes of `v`, most significant first. -/
def beBytes (n v : Nat) : List Byte := (leBytes n v).reverse

/-! SHA-384 (R54): the hash of 64-bit words whose constants are fractional parts of roots of primes. -/

/-- The greatest number of `bit` bits on top of `x` whose `k`-th power does not pass `n`. -/
def rootFrom (k n : Nat) : Nat → Nat → Nat
  | 0, x => x
  | bit + 1, x => rootFrom k n bit (if (x + 2 ^ bit) ^ k ≤ n then x + 2 ^ bit else x)

/-- The first 64 bits of the fractional part of the `k`-th root of a number below 2^12. -/
def rootFrac (k p : Nat) : BitVec 64 := BitVec.ofNat 64 (rootFrom k (p * 2 ^ (64 * k)) 70 0)

/-- The primes up to 409: the first 80. -/
def primes80 : List Nat :=
  (List.range 410).filter fun p => decide (2 ≤ p) && (List.range 21).all fun d => decide (d < 2 ∨ p ≤ d ∨ p % d ≠ 0)

/-- The value of the rounds: the cube roots of the first 80 primes. -/
def shaRounds : List (BitVec 64) := primes80.map (rootFrac 3)

/-- The hash value before the first block: the square roots of the ninth to the sixteenth prime. -/
def shaStart : List (BitVec 64) := ((primes80.drop 8).take 8).map (rootFrac 2)

/-- The exclusive or of rotations of a word. -/
def rots (x : BitVec 64) (l : List Nat) : BitVec 64 := l.foldl (fun y n => y ^^^ x.rotateRight n) 0

/-- The next 16 words of the message schedule. -/
def shaSlide (w : List (BitVec 64)) : List (BitVec 64) :=
  let lo := w.getD 1 0
  let hi := w.getD 14 0
  w.drop 1 ++ [w.headD 0 + w.getD 9 0 + (rots lo [1, 8] ^^^ lo >>> 7) + (rots hi [19, 61] ^^^ hi >>> 6)]

/-- One round: the eight working words, and the 16 words of the schedule that slide under them. -/
def shaTurn (x : List (BitVec 64) × List (BitVec 64)) (k : BitVec 64) : List (BitVec 64) × List (BitVec 64) :=
  match x.1 with
  | [a, b, c, d, e, f, g, h] =>
    let t := k + x.2.headD 0 + h + rots e [14, 18, 41] + (g ^^^ (e &&& (f ^^^ g)))
    let u := rots a [28, 34, 39] + ((a &&& b) ||| (c &&& (a ||| b)))
    ([u + t, a, b, c, t + d, e, f, g], shaSlide x.2)
  | _ => x

/-- A block of 16 words changes the hash value. -/
def shaMix (hv block : List (BitVec 64)) : List (BitVec 64) :=
  List.zipWith (· + ·) (shaRounds.foldl shaTurn (hv, block)).1 hv

/-- Bytes as 64-bit words, `n` blocks of 16. -/
def blockWords : Nat → List Byte → List (List (BitVec 64))
  | 0, _ => []
  | n + 1, l =>
    ((List.range 16).map fun j => BitVec.ofNat 64 (beNat ((l.drop (8 * j)).take 8))) :: blockWords n (l.drop 128)

/-- SHA-384 of a byte string: 48 bytes. The message ends in a one bit, zeros, and its length in bits. -/
def sha384 (l : List Byte) : List Byte :=
  let blocks := (l.length + 144) / 128
  let pad := 128 * blocks - l.length - 17
  let hv := (blockWords blocks (l ++ 0x80 :: List.replicate pad 0 ++ beBytes 16 (8 * l.length))).foldl shaMix shaStart
  (hv.take 6).flatMap fun x => beBytes 8 x.toNat

/-- HMAC-SHA-384. -/
def hmac384 (key msg : List Byte) : List Byte :=
  let k0 := if key.length ≤ 128 then key else sha384 key
  let k := k0 ++ List.replicate (128 - k0.length) 0
  sha384 (k.map (· ^^^ 0x5C) ++ sha384 (k.map (· ^^^ 0x36) ++ msg))

/-! P-384. -/

def p384P : Nat := 2 ^ 384 - 2 ^ 128 - 2 ^ 96 + 2 ^ 32 - 1
def p384N : Nat := 0xffffffffffffffffffffffffffffffffffffffffffffffffc7634d81f4372ddf581a0db248b0a77aecec196accc52973
def p384B : Nat := 0xb3312fa7e23ee7e4988e056be3f82d19181d9c6efe8141120314088f5013875ac656398d8a2ed19d2a85c8edd3ec2aef
def p384Gx : Nat := 0xaa87ca22be8b05378eb1c71ef320ad746e1d3b628ba79b9859f741e082542a385502f25dbf55296c3a545e3872760ab7
def p384Gy : Nat := 0x3617de4a96262c6f5d9e98bf9292dc29f8f41dbd289a147ce9da3113b5f0b8c00a60b1ce1d7e819d7a431d7c90ea0e5f

/-- `a ^ e` modulo `m`, `k` bits of `e` from the top. -/
def powMod (a e m : Nat) : Nat → Nat → Nat
  | 0, r => r
  | k + 1, r => powMod a e m k (if e.testBit k then r * r % m * a % m else r * r % m)

/-- Inverse modulo a prime (Fermat). -/
def invMod (a m : Nat) : Nat := powMod (a % m) (m - 2) m 384 1

/-- `a − b` modulo `m`, for operands below `m`. -/
def subMod (a b m : Nat) : Nat := (a + m - b) % m

/-- A point in Jacobian coordinates; z = 0 is the point at infinity. -/
structure JPoint where
  x : Nat
  y : Nat
  z : Nat
  deriving DecidableEq, Repr

/-- Doubling on y² = x³ − 3x + b. -/
def JPoint.dbl (q : JPoint) : JPoint :=
  let m := p384P
  if q.z = 0 ∨ q.y = 0 then ⟨1, 1, 0⟩ else
  let d := q.z * q.z % m
  let a := 3 * (subMod q.x d m * ((q.x + d) % m) % m) % m
  let yy := q.y * q.y % m
  let b := 4 * (q.x * yy % m) % m
  let x := subMod (a * a % m) (2 * b % m) m
  ⟨x, subMod (a * subMod b x m % m) (8 * (yy * yy % m) % m) m, 2 * q.y * q.z % m⟩

/-- Addition. -/
def JPoint.add (q r : JPoint) : JPoint :=
  let m := p384P
  if q.z = 0 then r else if r.z = 0 then q else
  let z1 := q.z * q.z % m
  let z2 := r.z * r.z % m
  let u1 := q.x * z2 % m
  let u2 := r.x * z1 % m
  let s1 := q.y * z2 % m * r.z % m
  let s2 := r.y * z1 % m * q.z % m
  if u1 = u2 then (if s1 = s2 then q.dbl else ⟨1, 1, 0⟩) else
  let h := subMod u2 u1 m
  let w := subMod s2 s1 m
  let hh := h * h % m
  let hhh := h * hh % m
  let v := u1 * hh % m
  let x := subMod (subMod (w * w % m) hhh m) (2 * v % m) m
  ⟨x, subMod (w * subMod v x m % m) (s1 * hhh % m) m, h * q.z % m * r.z % m⟩

/-- u·G + v·Q by simultaneous double and add, `k` bits from the top. -/
def mulAdd (g q gq : JPoint) (u v : Nat) : Nat → JPoint → JPoint
  | 0, a => a
  | k + 1, a =>
    let d := a.dbl
    mulAdd g q gq u v k
      (match u.testBit k, v.testBit k with
       | true, true => d.add gq
       | true, false => d.add g
       | false, true => d.add q
       | false, false => d)

/-- ECDSA verification over P-384 of a SHA-384 digest (FIPS 186-5). -/
def ecdsaOk (qx qy r sg : Nat) (digest : List Byte) : Bool :=
  if r = 0 ∨ p384N ≤ r ∨ sg = 0 ∨ p384N ≤ sg ∨ p384P ≤ qx ∨ p384P ≤ qy ∨
      qy * qy % p384P ≠ (subMod (qx * qx * qx % p384P) (3 * qx % p384P) p384P + p384B) % p384P then false
  else
    let w := invMod sg p384N
    let u := beNat digest * w % p384N
    let v := r * w % p384N
    let g : JPoint := ⟨p384Gx, p384Gy, 1⟩
    let q : JPoint := ⟨qx, qy, 1⟩
    let a := mulAdd g q (g.add q) u v 384 ⟨1, 1, 0⟩
    if a.z = 0 then false
    else
      let zi := invMod a.z p384P
      (a.x * (zi * zi % p384P) % p384P) % p384N == r

end Sys2Proof.Machine
end

