-- ==== Sys2Proof/Machine/Units.lean ====
section
/-! DEFINITION. Units and their safe states (R240, R242, R257 to R263), the pads of their channels, and the change
of an axis state (R213, R214), which the safe states bring with them. -/

namespace Sys2Proof.Machine

/-- A channel past the end of the array. -/
def Chan.none : Chan := ⟨Wave.low, 0, false, Option.none, 0, false⟩

/-- The role of bridge `k` (R240). -/
def State.topo (s : State) (k : Nat) : Nat := s.g GATE.BRCFG_TOPO k

/-- The first bridge of the unit that bridge `k` belongs to (R242, R257). -/
def State.unitOf (s : State) (k : Nat) : Nat :=
  if s.topo k = 3 then k - 1 else if s.topo k = 4 then s.g GATE.BRCFG_MASTER k else k

/-- Whether bridge `u` is the first bridge of a unit. -/
def State.isUnit (s : State) (u : Nat) : Bool := s.topo u == 1 || s.topo u == 2

/-- The bridges of unit `u`: an NPC pair, or a bridge and its followers (R242). -/
def State.members (s : State) (u : Nat) : List Nat :=
  if s.topo u = 2 then [u, u + 1]
  else u :: (List.range 8).filter fun m => s.topo m == 4 && s.g GATE.BRCFG_MASTER m == u && m != u

/-- The units in use. -/
def State.allUnits (s : State) : List Nat := (List.range 8).filter s.isUnit

/-- The six channels of bridge `k`. -/
def chansOf (k : Nat) : List Nat := (List.range 6).map (6 * k + ·)

/-- The channels of unit `u`. -/
def State.unitChans (s : State) (u : Nat) : List Nat := (s.members u).flatMap chansOf

/-- SWn is latched (R252 to R255). -/
def State.latched (s : State) (n : Nat) : Bool :=
  if n < 32 then s.gbit GATE.SWFLT0_FLT 0 n else s.gbit GATE.SWFLT1_FLT 0 (n - 32)

/-- The channels an ASC pattern turns on in unit `u` (R257). -/
def State.ascOn (s : State) (u pat : Nat) : List Nat :=
  if pat = 5 then chansOf (u + 1)
  else (s.unitChans u).filter fun n => n % 2 == (if pat = 4 then 0 else 1)

/-- The level of a waveform `u` units after its update. -/
def Wave.levelAt (w : Wave) (u : Int) : Bool := w.on != ((w.edges.filter fun e => decide (e ≤ u)).length % 2 == 1)

/-- A falling edge follows. -/
def Wave.falls (w : Wave) : Bool := if w.on then decide (1 ≤ w.edges.length) else decide (2 ≤ w.edges.length)

/-- The supply of the pads stands: VDDIO33 (R15, R47). -/
def State.padSupply (s : State) : Bool := s.pwr.good.getLsbD 7

/-- The level of a channel's pad at the present tick: its waveform (R244), but low where the pad has latched low (R14) or
its supply fails (R47). -/
def State.padCmd (s : State) (n : Nat) : Bool :=
  let c := at' s.chans n Chan.none
  c.wave.levelAt (64 * ((s.tbase : Int) - (c.upd : Int))) && !s.pwr.padLow.getLsbD n && s.padSupply

/-- Give a channel a new constant level now, noting the edge and dropping the edges that no longer come (R21, R226). -/
def State.forcePad (n : Nat) (lvl : Bool) (s : State) : State :=
  let now := 64 * s.tbase
  let kept := s.edges.filter fun e => e.1 != n || decide (e.2 ≤ now)
  let chg := s.padCmd n != lvl
  { s with
    chans := upd s.chans n fun c => { c with wave := ⟨lvl, []⟩, upd := s.tbase,
                                              periods := if chg && !lvl then 0 else c.periods }
    edges := if chg then kept ++ [(n, now)] else kept }

/-- Later than any edge of a period, in units of 78.125 ps. -/
def farT : Int := 2 ^ 50

/-- The units of 78.125 ps since the latest edge of channel `n`'s pad. -/
def State.sinceEdge (s : State) (n : Nat) : Int :=
  s.edges.foldl (fun m e => if e.1 == n && decide (e.2 ≤ 64 * s.tbase) then min m (64 * (s.tbase : Int) - e.2) else m) farT

/-- The pad of channel `n` moves to level `lvl` only `d` units from now (R241, R254, R259). -/
def State.padLater (n : Nat) (lvl : Bool) (d : Nat) (s : State) : State :=
  if s.padCmd n != lvl && d != 0 then
    { s with chans := upd s.chans n fun c => { c with wave := ⟨!lvl, [(d : Int)]⟩, upd := s.tbase }
             edges := (s.edges.filter fun e => e.1 != n || decide (e.2 ≤ 64 * s.tbase)) ++ [(n, 64 * s.tbase + d)] }
  else State.forcePad n lvl s

/-- NPCDLY of the NPC pair that bridge `b` is in, in units of 78.125 ps (R241). -/
def State.npcDly (s : State) (b : Nat) : Nat := 64 * s.g GATE.BRCFG_NPCDLY (s.unitOf b)

/-- How long a switch that is to go off must still stay on: an inner NPC switch falls NPCDLY after its outer partner
(R241, R259). -/
def State.offLag (s : State) (n : Nat) : Nat :=
  if s.topo (n / 6) = 3 && decide (6 ≤ n) then
    if s.padCmd (n - 6) then s.npcDly (n / 6) else ((s.npcDly (n / 6) : Int) - s.sinceEdge (n - 6)).toNat
  else 0

/-- A switch goes off, an inner one after its outer partner. -/
def State.padOff (n : Nat) (s : State) : State := State.padLater n false (s.offLag n) s

/-- Every switch of unit `u` off, in an NPC unit the outer ones first (R257, R259, R261). -/
def State.unitOff (u : Nat) (s : State) : State := overL (s.unitChans u) State.padOff s

/-- Write PAT of every bridge of unit `u` (R257). -/
def State.setPat (u pat : Nat) (s : State) : State := overL (s.members u) (fun k s => s.p FBRK.BRST_PAT k pat) s

/-- Write CAUSE of every bridge of unit `u`. -/
def State.setCause (u c : Nat) (s : State) : State := overL (s.members u) (fun k s => s.p FBRK.BRST_CAUSE k c) s

/-- A demand is latched on unit `u`. -/
def State.demanded (s : State) (u : Nat) : Bool := s.gb FBRK.BRST_DEM u

/-- A unit entry past the end of the array. -/
def UnitSt.none : UnitSt := ⟨false, false, false, false, Option.none, 0, false, false⟩

/-- STO is forced on unit `u` (R261, R346), or on every unit by a granted scan (R393). -/
def State.forcedSto (s : State) (u : Nat) : Bool :=
  let x := at' s.units u UnitSt.none
  x.stoIn || x.stoFlt || x.stoSafe || s.gb NVS.KEYSTAT_SCAN

/-- The enabled axes whose bridge belongs to unit `u` (R209). -/
def State.axesOf (s : State) (u : Nat) : List Nat :=
  (List.range 8).filter fun n => s.gb CTL.AXCFG_EN n && s.unitOf (s.g CTL.AXCFG_BR n) == u

/-- An axis state marked "held off" turns its unit off, unless a demand rules it (R213, R262). -/
def State.holdOff (n st : Nat) (s : State) : State :=
  let u := s.unitOf (s.g CTL.AXCFG_BR n)
  if (st = 1 ∨ st = 2) ∧ s.isUnit u ∧ !s.demanded u ∧ !s.forcedSto u ∧ s.g FBRK.BRST_PAT u ≠ 6 then
    State.setPat u 1 (s.unitOff u) else s

/-- The enabled axes of a task (R209). -/
def State.axesOfTask (s : State) (t : Nat) : List Nat :=
  (List.range 8).filter fun n => s.gb CTL.AXCFG_EN n && s.g CTL.AXCFG_TASK n == t

/-- Change the state of axis `n`: write STATE, raise AX_STATE, and start what the state starts (R213, R214). -/
def State.setAxis (n st : Nat) (s : State) : State :=
  let old := s.g CTL.AXST_STATE n
  if old = st then s else
  let s1 := (s.p CTL.AXST_STATE n st).raise 1 0x80 n
  let s2 := if st = 1 then s1.pb CTL.AXST_ALTACT n false else s1
  let s2 := State.holdOff n st s2
  { s2 with axes := upd s2.axes n fun a =>
      { a with first := true, startReq := false, entered := s.tbase, reacqAt := none,
               confHi := 0, confLo := 0, confStand := 0, confLq := 0, confLoss := 0, still := 0,
               ref := if st = 5 || st = 7 then a.ref else 0,
               slope := 0,
               feAt := if st = 4 || st = 5 || st = 7 then a.feAt else none,
               shown := if st = 0 then 0 else a.shown,
               seq := if st = 0 then 0 else a.seq,
               ss1Req := if st ≤ 1 then false else a.ss1Req
               rank := if st = 8 then 1 else 0
               stopReq := false } }

/-- A safe state of unit `u` takes its axes to SAFE (R214). -/
def State.axesSafe (u : Nat) (s : State) : State :=
  overL (s.axesOf u) (fun n s => if s.g CTL.AXST_STATE n = 0 then s else State.setAxis n 8 s) s

/-- The held error flags of port `p` as R231 and R258 read them: any sequence, CRC or wire failure (R307). -/
def State.portFault (s : State) (p : Nat) : Bool := (at' s.pos p PosPort.init).heldFlags != 0

/-- The last value a task released for telemetry entry `k`. -/
def Task.tlm? (t : Task) (k : Nat) : Option Word := assocGet t.tlmLast k

/-- The full circle of an angle (R138). -/
def turn : Nat := 2 ^ 32

/-- The electrical angle of port `p` (R296, R303). -/
def State.posAngle (s : State) (p : Nat) : Word :=
  if s.g POS.CFG_MODE p = 2 then
    match (at' s.pos p PosPort.init).sector with
    | none => s.word POS.EOFF p
    | some x => BitVec.ofNat 32 (((2 * x + 1) * turn * 2 + 12) / 24) + s.word POS.EOFF p
  else
    let cpr := s.g POS.REV_CPR p + 1
    let r := ((sval (s.word POS.CNT p) - sval (s.word POS.EOFF p)) % (cpr : Int)).toNat
    BitVec.ofNat 32 ((r * (s.g POS.REV_PP p + 1) * turn + cpr / 2) / cpr)

/-- `num / den` where the spec states no rounding: either neighbour, by a free value (log entry 21). -/
def State.openDiv (s : State) (num den : Nat) : Nat :=
  num / den + if num % den ≠ 0 ∧ s.free.toNat % 2 = 1 then 1 else 0

/-- The speed of port `p` at this instant: between edges its magnitude is bounded by one count per elapsed time
(R305). -/
def State.posSpeed (s : State) (p : Nat) : Word :=
  let v := sval (s.word POS.SPEED p)
  match (at' s.pos p PosPort.init).edges with
  | [] => s.word POS.SPEED p
  | t :: _ =>
    if (s.g POS.CFG_MODE p = 1 ∨ s.g POS.CFG_MODE p = 2) ∧ t < s.tbase then
      let b := s.openDiv (200000000 * 2 ^ 31) ((s.tbase - t) * (s.word POS.SPDFS p).toNat)
      ofInt (clampI (-(b : Int)) b v)
    else s.word POS.SPEED p

/-- The speed the choice between STO and ASC uses, or `none` if it is unknown (R258). -/
def State.choiceSpeed (s : State) (u : Nat) : Option Int :=
  if s.gb FBRK.BRSS_SPDSRC u then
    let p := s.g FBRK.BRSS_PORT u
    if s.portFault p then none
    else some (if s.gb POS.STAT_SPD_VALID p then sval (s.posSpeed p) else 0)
  else
    match (s.axesOf u).head? with
    | none => none
    | some n =>
      match s.task? (s.g CTL.AXCFG_TASK n) with
      | none => none
      | some t =>
        match t.lastAccept, t.tlm? (s.g CTL.AXTLM_SPD n) with
        | some a, some v => if s.tbase ≤ a + 400000 then some (sval v) else none
        | _, _ => none

/-- An ASC pattern is usable: no switch it turns on is latched, and even channels only with HSASCOK (R258). -/
def State.ascUsable (s : State) (u pat : Nat) : Bool :=
  (s.ascOn u pat).all (fun n => !s.latched n) && ((s.ascOn u pat).all (· % 2 == 1) || s.gb FBRK.BRSS_HSASCOK u)

/-- The order in which ASC patterns are tried (R258). -/
def State.ascOrder (s : State) (u : Nat) : List Nat :=
  let pref := [3, 4, 5].getD (s.g FBRK.BRSS_ASCPREF u) 3
  pref :: ((if s.topo u = 2 then [5, 3, 4] else [3, 4]).filter (· != pref))

/-- The pattern of R258 for a latched demand: the pattern, whether the speed was unknown, and whether the chopper
is to be armed. Without the pad supplies ASC cannot be driven (R48). -/
def State.choose (s : State) (u : Nat) : Nat × Bool × Bool :=
  if (s.mode != mRUN && s.mode != mSAFE) || s.g FBRK.BRSS_MODE u == 1 || s.pwr.good &&& 0xC0#8 != 0xC0#8 then (2, false, false)
  else
    let v := s.choiceSpeed u
    let asc := match v with
      | none => s.gb FBRK.BRSS_UNKN u
      | some x => s.g FBRK.BRSS_MODE u == 2 || decide ((s.g FBRK.BRXO_XOVER u : Int) * 65536 ≤ absI x)
    if asc then
      match (s.ascOrder u).find? (s.ascUsable u) with
      | some p => (p, v.isNone, false)
      | none => (2, v.isNone, true)
    else (2, v.isNone, false)

/-- ASCDLY of unit `u` in ticks (R259). -/
def State.ascDly (s : State) (u : Nat) : Nat :=
  ((s.unitChans u).foldl (fun m n => max m (s.g GATE.CH_DEADRISE n)) 0 + 63) / 64
    + (if s.topo u = 2 then s.g GATE.BRCFG_NPCDLY u else 0)

/-- Arm the brake chopper of link `l` (R258, R261, R346). -/
def State.armLink (l : Nat) (s : State) : State :=
  { s.pb DCL.STAT_BRKARM l true with links := upd s.links l fun x => { x with armed := true } }

/-- Put unit `u` into a new pattern under a demand, through all-off (R259). -/
def State.takePattern (u cause : Nat) (c : Nat × Bool × Bool) (s : State) : State :=
  let s1 := s.unitOff u
  let s2 := (State.setCause u cause (State.setPat u c.1 s1)).raise 1 0x92 u
  let s3 := overL (s.members u) (fun k s => (s.pb FBRK.BRST_SPDUNK k c.2.1).pb FBRK.BRST_BRKARM k (s.gb FBRK.BRST_BRKARM k || c.2.2)) s2
  let s4 := match c.2.2, s3.linkOf u with
    | true, some l => State.armLink l s3
    | _, _ => s3
  { s4 with units := upd s4.units u fun x =>
      { x with ascAt := if 3 ≤ c.1 ∧ c.1 ≤ 5 then some (s.tbase + s.ascDly u, BitVec.ofNat 3 c.1) else none,
               lastChoose := s.tbase } }

/-- A winding discharge on unit `u` ends: PAT goes back to OFF, or to the STO of a demand (R259, R268). -/
def State.windStop (u : Nat) (s : State) : State :=
  if s.g FBRK.BRST_PAT u = 6 then
    let dem := s.demanded u || s.forcedSto u
    let s1 := State.setPat u (if dem then 2 else 1) (s.unitOff u)
    let s2 := if dem then s1.raise 1 0x92 u else s1
    overL [0, 1, 2, 3] (fun l s => if s.unitOf (s.g DCL.DSC_WBR l) = u then s.pb DCL.STAT_WIND l false else s) s2
  else s

/-- Latch a demand with an unforced choice on the unit of bridge `k` (R258, R259). A further demand on a latched
unit leaves the pattern and becomes the latest cause; one that ends a winding discharge takes its pattern anew (R269). -/
def State.demand (k cause : Nat) (bySafe : Bool) (s : State) : State :=
  let u := s.unitOf k
  if !s.isUnit u then s else
  let s0 := State.windStop u s
  let was := s0.demanded u
  let s1 := overL (s0.members u) (fun m s => s.pb FBRK.BRST_DEM m true) s0
  let s2 := { s1 with units := upd s1.units u fun x => { x with onlySafe := bySafe && (x.onlySafe || !was) } }
  let anew := s.g FBRK.BRST_PAT u == 6 && !s.gb FBRK.BRST_BRKARM u
  let s3 := if was && !anew then State.setCause u cause s2
            else if s2.forcedSto u then State.setCause u cause (State.setPat u 2 s2)
            else State.takePattern u cause (s2.choose u) s2
  State.axesSafe u s3

/-- Which forced STO of R261 or R346 acts. -/
inductive StoSrc
  | inputs
  | fltset
  | safety
  deriving DecidableEq, Repr

/-- Force STO on unit `u` (R261, R346). -/
def State.forceSto (src : StoSrc) (u : Nat) (s : State) : State :=
  if !s.isUnit u then s else
  let s0 := State.windStop u s
  let had := s0.forcedSto u
  let s1 := { s0 with units := upd s0.units u fun x =>
      { x with stoIn := x.stoIn || src == .inputs, stoFlt := x.stoFlt || src == .fltset,
               stoSafe := x.stoSafe || src == .safety, ascAt := none } }
  let s2 := if src == .fltset then overL (s1.members u) (fun m s => s.pb FBRK.BRST_DEM m true) s1 else s1
  let cause := match src with
    | .inputs => 7
    | .fltset => 2
    | .safety => s.g FBRK.BRST_CAUSE u
  let s3 := if had && s2.g FBRK.BRST_PAT u == 2 then State.setCause u cause s2
            else
              let s' := State.setCause u cause (State.setPat u 2 (s2.unitOff u))
              if s2.g FBRK.BRST_PAT u = 2 then s' else s'.raise 1 0x92 u
  State.axesSafe u s3

/-- The chopper of link `l` is to be armed: by an STO input, or by a unit of the link (R258, R261, R346). -/
def State.linkArmed (s : State) (l : Nat) : Bool :=
  s.gb SAFE.STAT_STOA || s.gb SAFE.STAT_STOB || s.units.any (·.stoIn)
    || (List.range 8).any fun k => s.gbit DCL.CFG_BRMASK l k
        && (s.gb FBRK.BRST_BRKARM k || (at' s.units (s.unitOf k) UnitSt.none).stoSafe)

/-- Arm the choppers that something arms, and disarm those that nothing arms any more. -/
def State.relink (s : State) : State :=
  overL [0, 1, 2, 3] (fun l s =>
    { s.pb DCL.STAT_BRKARM l (s.linkArmed l) with links := upd s.links l fun x => { x with armed := s.linkArmed l } }) s

/-- The axes of unit `u` whose demand has gone leave SAFE for IDLE in RUN (R214). -/
def State.axesFree (u : Nat) (s : State) : State :=
  if s.mode = mRUN && !s.demanded u && !s.forcedSto u then
    overL (s.axesOf u) (fun n s => if s.g CTL.AXST_STATE n = 8 then State.setAxis n 1 s else s) s
  else s

/-- After a demand or a forced STO of unit `u` has gone: PAT becomes OFF unless one of them still stands, the unit
waits for its next update point, and its axes go from SAFE to IDLE in RUN (R214, R263, R347). -/
def State.unitFree (u : Nat) (s : State) : State :=
  if s.demanded u || s.forcedSto u then s else
  let s1 := (State.setPat u 1 (s.unitOff u)).relink
  let s2 := { s1 with units := upd s1.units u fun x => { x with waitUpd := true, ascAt := none, onlySafe := false } }
  State.axesFree u s2

/-- Release the latched demand of unit `u` (R263): BRKARM clears and CAUSE reads NONE. FLTSET STO is released with it; a
forced STO of another source stays. -/
def State.releaseDemand (u : Nat) (s : State) : State :=
  if !s.demanded u then s else
  let s1 := overL (s.members u) (fun m s => (s.pb FBRK.BRST_DEM m false).pb FBRK.BRST_BRKARM m false) s
  let s2 := { State.setCause u 0 s1 with units := upd s1.units u fun x => { x with stoFlt := false, onlySafe := false } }
  State.unitFree u s2.relink

/-- Every bridge into its safe state (R13, R44). -/
def State.demandAll (cause : Nat) (bySafe : Bool) (s : State) : State :=
  overL s.allUnits (fun u => State.demand u cause bySafe) s

/-- BRK may be driven (R45). -/
def State.brkAllowed (s : State) : Bool :=
  s.mode == mREADY || s.mode == mRUN || s.mode == mSAFE || (s.mode == mCONFIGURE && s.gb SAFE.STAT_LOCKED)

/-- DSC may be driven (R45). -/
def State.dscAllowed (s : State) : Bool :=
  s.mode == mCONFIGURE || s.mode == mREADY || s.mode == mRUN || s.mode == mSAFE

/-- The BRK pad of link `l`: a chopper whose mode is OFF drives it only while it is armed or forced (R265, R266). -/
def State.brkPad (s : State) (l : Nat) : Bool :=
  let x := at' s.links l Link.none
  (x.chopOn && (x.armed || s.g DCL.BRK_MODE l != 0) || x.ovForced) && s.brkAllowed && !s.pwr.padLow.getLsbD (48 + l) && s.padSupply && s.up

/-- The DSC pad of link `l`. -/
def State.dscPad (s : State) (l : Nat) : Bool :=
  (at' s.links l Link.none).dsc.isSome && s.dscAllowed && !s.pwr.padLow.getLsbD (52 + l) && s.padSupply && s.up

/-- A gate, brake or discharge command is refused by mode (R45): the flag, and for the first after a transition the
event with the payload tag of R436. -/
def State.refuse (tag : Nat) (s : State) : State :=
  let s1 := s.pb FBRK.STAT_REFUSED 0 true
  if s1.ev.refusedRaised then s1
  else ({ s1 with ev := { s1.ev with refusedRaised := true } }).raise 1 0x15 tag

end Sys2Proof.Machine
end

