-- ==== Sys2Proof/Machine/Modes.lean ====
section
/-! DEFINITION. The mode and its transitions (R40 to R45), the fault guarantee flags (R332), FAULT_N (R60), the end
of a safety session (R357), and the answer to a command that has been waiting (R79). -/

namespace Sys2Proof.Machine

/-- Answer the command a port is serving, and let the port take the next one. -/
def State.finish (n : Fin 4) (c : Code) (pl : List Word) (s : State) : State :=
  match s.ports[n].busy with
  | none => s
  | some (f, _) =>
    ({ s with ports := s.ports.set n { s.ports[n] with busy := none } }).answer n ⟨f.opc, f.tag, c, pl⟩

/-- The conditions of the fault guarantee that are missing (R332). TEST has taken its reaction of R13 when its bit
of `failed` is set. -/
def State.gwhyNow (s : State) : Nat :=
  (if s.gb SAFE.STAT_LOCKED then 0 else 4)
  + (if s.safe.condSupply ≠ 0 || s.safe.condTemp || s.gb TIME.STAT_REFLOSS then 2 else 0)
  + (if s.gb BGS.STAT_THROT || s.gb PLC.STAT_NOSPARE || s.gb PYR.DBGCTL_EN || s.pwr.failed.getLsbD 25 then 1 else 0)

/-- Bring GUAR and GWHY up to date, raising SAFE_GUAR when GUAR changes (R332). -/
def State.guarUpdate (s : State) : State :=
  let w := s.gwhyNow
  let s1 := s.p SAFE.STAT_GWHY 0 w
  if s.gb SAFE.STAT_GUAR = (w == 0) then s1 else (s1.pb SAFE.STAT_GUAR 0 (w == 0)).raise 1 0xC0 w

/-- Any SINST, SOUTST, CST or FST latch of the last row of R60. -/
def State.safetyLatch (s : State) : Bool :=
  s.gb SAFE.STAT_STOFLT
  || (List.range 8).any (fun i => s.gb SAFE.SINST_PAIRFLT i || s.gb SAFE.FST_LATCH i)
  || (List.range 4).any (fun j => s.gb SAFE.SOUTST_FLT j)
  || (List.range 16).any (fun c => s.gb SAFE.CST_FAULT c)

/-- FAULT_N is asserted: any condition of R60. -/
def State.faultN (s : State) : Bool :=
  if s.mode = mSLEEP then false else
  !s.up
  || s.mode == mBOOT || s.mode == mSAFE
  || s.pwr.failed.getLsbD 1 || s.pwr.padLow ≠ 0
  || s.g GATE.SWFLT0_FLT ≠ 0 || s.g GATE.SWFLT1_FLT ≠ 0
  || (List.range 8).any (fun k => s.gb FBRK.BRST_DEM k)
  || (List.range 4).any (fun l => s.gb DCL.STAT_OVTRIP l || s.gb DCL.STAT_DSCFAIL l)
  || s.g SYS.ISLCLK_FAIL ≠ 0 || s.gb SYS.XSTAT_FAIL || s.g SYS.SUPPLY_UV ≠ 0
  || s.gb PYR.STAT_CANFAIL || s.safetyLatch

/-- Write SAFE.SESS and SESS from the open session; with none open they read 0, the seeds apart (R357). -/
def State.sessRegs (s : State) : State :=
  let seeds := (List.finRange 4).foldl (fun a n => a + if (s.safe.seeds[n]).isSome then 2 ^ n.val else 0) 0
  let s0 := s.p SAFE.SESS_SEEDS 0 seeds
  match s.safe.sess with
  | none =>
    ((((((s0.pb SAFE.SESS_OPEN 0 false).pb SAFE.SESS_UNLOCK 0 false).pb SAFE.SESS_CONF 0 false).p SAFE.SESS_FAILS 0 0).p
      SAFE.SESS_OWNER 0 0).p SAFE.SESS_SID 0 0).pb SAFE.STAT_SESS 0 false
  | some x =>
    ((((((s0.pb SAFE.SESS_OPEN 0 true).pb SAFE.SESS_UNLOCK 0 x.unlock).pb SAFE.SESS_CONF 0 x.conf).p SAFE.SESS_FAILS 0
      x.fails).p SAFE.SESS_OWNER 0 x.port).p SAFE.SESS_SID 0 x.sid.toNat).pb SAFE.STAT_SESS 0 true

/-- The open session ends, with the tag of SESS_EVT (R357). -/
def State.sessEnd (tag : Nat) (s : State) : State :=
  match s.safe.sess with
  | none => s
  | some _ => ({ s with safe := { s.safe with sess := none } }).sessRegs.raise 1 0xC9 tag

/-- A completed transition (R43): PREV, CAUSE, for a host request RQPORT, and MODE_CHG. A mode left behind takes
with it what only it allows: bench mode and an open session belong to CONFIGURE (R42, R357). -/
def State.transition (new cause : Nat) (port : Option (Fin 4)) (s : State) : State :=
  let s1 := (s.p SYS.MODE_PREV 0 s.mode).p SYS.MODE_CAUSE 0 cause
  let s2 := match port with
    | some n => s1.p SYS.MODE_RQPORT 0 n
    | none => s1
  let s3 := { s2 with ev := { s2.ev with refusedRaised := false } }
  let s4 := if new = mCONFIGURE then s3 else (s3.pb SYS.MODE_BENCH 0 false).sessEnd 2
  (s4.p SYS.MODE_CUR 0 new).raise 1 0x10 new

/-- A transition that has not completed is abandoned: a RUN to READY, or an entry to SLEEP. Its request, if it still
waits, is answered with E_SAFETY (R43). -/
def State.abandonReady (s : State) : State :=
  let s1 := overL (List.finRange 4) (fun n s =>
    match s.ports[n].busy with
    | some (_, .runToReady) => State.finish n eSAFETY [] s
    | some (_, .sleep) => State.finish n eSAFETY [] s
    | _ => s) s
  { s1 with units := s1.units.map fun x => { x with stopped := false }
            pwr := { s1.pwr with entering := .idle, wakeLatch := none } }

/-- An IMG_COMMIT is pending. -/
def State.committing (s : State) : Bool := s.ops.any fun o => o.kind == .imgCommit

/-- Setup tasks retire at their next boundary with SEND = 0b10 (R164). -/
def State.retireSetups (s : State) : State :=
  { s with tasks := s.tasks.map fun t =>
      if t.d.kind = 1 && t.retire.isNone then { t with retire := some (none, 0b10) } else t }

/-- The part is in lifecycle state SCRAP (R2). -/
def State.scrapped (s : State) : Bool := s.fuses.life == 0b111

/-- The KJ8 enters SAFE (R41, R43, R44, R96). A part in SCRAP stays in BOOT (R2). In SAFE a trigger still ends an entry to
SLEEP (R43). -/
def State.enterSafe (cause : Nat) (port : Option (Fin 4)) (s : State) : State :=
  if s.mode = mSAFE then (if s.pwr.entering = .idle then s else s.abandonReady)
  else if s.mode ∈ [mBOOT, mCONFIGURE, mREADY, mRUN] ∧ !(s.mode == mBOOT && s.scrapped) then
    let s1 := State.transition mSAFE cause port s.abandonReady
    let s2 := (s1.pb SAFE.STAT_RSTOK 0 false).retireSetups
    let s3 := { s2 with
      staging := if s2.committing then s2.staging else none
      ops := s2.ops.map fun o =>
        match o.kind with
        | .cal _ => { o with stop := true }
        | .bist _ _ burn => { o with stop := !burn }
        | _ => o }
    State.demandAll 6 true s3
  else s

/-- Every bridge into its safe state, and the KJ8 into SAFE with CAUSE = FAULT (R13, R197, R417). -/
def State.faultSafe (s : State) : State := State.enterSafe 4 none (State.demandAll 6 false s)

/-! Safe outputs: what drives them (R339 to R341). -/

/-- A safe output past the end of the array. -/
def Sout.none : Sout := ⟨Option.none, false, false⟩

/-- The source of safe output `j` asks for it to be on (R339). -/
def State.soutDemand (s : State) (j : Nat) : Bool :=
  let a := s.g SAFE.SOUT_AX j
  let x := s.g CTL.AXST_STATE a
  let t0 := (at' s.safe.axes a SafeAxis.init).stoAt.getD 0
  s.up && s.mode == mRUN
    && match s.g SAFE.SOUT_SRC j with
      | 1 => (x != 0 && x != 1 && x != 8 && !s.gb SAFE.FST_STO a && !s.gb SAFE.FST_LATCH a)
              || ((at' s.safe.sout j Sout.none).hold && decide (s.tbase < t0 + 200000 * s.g SAFE.SLDI_TSBC a))
      | 2 => !s.gb SAFE.FST_STO a && !s.gb SAFE.FST_SS1 a && !s.gb SAFE.FST_SLS a && !s.gb SAFE.FST_SDI a
              && !s.gb SAFE.FST_LATCH a
      | _ => false

/-- Safe output `j` is on: demanded, without a fault, with no dark test due or running, its pad not latched low
(R14, R340, R341). -/
def State.soutOn (s : State) (j : Nat) : Bool :=
  let x := at' s.safe.sout j Sout.none
  s.soutDemand j && !s.gb SAFE.SOUTST_FLT j && !x.needDark && x.test != some false && !s.pwr.padLow.getLsbD (56 + j)
    && s.padSupply

/-- A test of safe output `j` runs; an off-demand ends an off-pulse (R340). -/
def State.soutTesting (s : State) (j : Nat) : Bool :=
  match (at' s.safe.sout j Sout.none).test with
  | none => false
  | some on => !on || s.soutDemand j

end Sys2Proof.Machine
end

