-- ==== Sys2Proof/Machine/Memory.lean ====
section
/-! DEFINITION. Shared SRAM and its poisoned codewords (R31 to R33), the NV store (R401 to R405), the segment copies
of tasks (R122 to R124, R169), hardware queues (R97 to R100), and what a register reads (R101, R406). -/

namespace Sys2Proof.Machine

/-! SRAM. -/

/-- The end of SRAM (R31). -/
def sramEnd : Nat := 0x02000000

/-- The start of the default host area (R97). -/
def hostArea : Nat := 0x01FC0000

/-- The bank of an SRAM address is in service (R50). -/
def State.bankOk (s : State) (a : Nat) : Bool := !s.gbit SYS.BOOTMEM_BANKOFF 0 (a / 0x200000)

/-- A codeword that holds a byte of [a, a + n) is poisoned (R33). -/
def State.poisoned (s : State) (a n : Nat) : Bool := s.poison.any fun cw => decide (cw * 32 < a + n ∧ a < cw * 32 + 32)

/-- Write bytes to SRAM. A codeword written whole is no longer poisoned (R33), and holds no symbol in error. -/
def State.sramPut (a : Nat) (l : List Byte) (s : State) : State :=
  let whole := fun (cw : Nat) => decide (a ≤ cw * 32 ∧ cw * 32 + 32 ≤ a + l.length)
  { s with sram := putBytes s.sram a l
           poison := s.poison.filter fun cw => !whole cw
           upsets := s.upsets.filter fun x => match x.1 with
             | .sram cw => !whole cw
             | _ => true }

/-- An uncorrectable codeword has been read (R33, R37): the first since UNC was cleared leaves its place. -/
def State.memUnc (isLocal : Bool) (num : Nat) (s : State) : State :=
  let s1 := if s.gb SYS.MEMERR_UNC then s
    else (s.pb SYS.MEMERR_ULOCAL 0 isLocal).p SYS.MEMERR_UBANK 0 num
  (s1.pb SYS.MEMERR_UNC 0 true).raise 18 0x0D (if isLocal then 16 + num else num)

/-- A read meets an SRAM codeword with symbols in error: up to 5 are corrected and written back, more poison the codeword
(R31 to R33). -/
def State.meetUpset (cw symbols : Nat) (s : State) : State :=
  let s1 := { s with upsets := s.upsets.filter fun x => x.1 != .sram cw }
  if symbols ≤ 5 then s1.inc SYS.MEMERR_CORR 0
  else if s.poison.contains cw then s1
  else State.memUnc false (cw / 65536) { s1 with poison := cw :: s1.poison }

/-- The SRAM codewords of [a, a + n) are read: those with symbols in error are corrected or poisoned (R32, R33). -/
def State.sramTouch (a n : Nat) (s : State) : State :=
  overL s.upsets (fun x s => match x.1 with
    | .sram cw => if cw * 32 < a + n ∧ a < cw * 32 + 32 then State.meetUpset cw x.2 s else s
    | _ => s) s

/-- The codewords that a write covers whole hold no error any more (R33). -/
def State.cleanse (a n : Nat) (s : State) : State :=
  let whole := fun (cw : Nat) => decide (a ≤ cw * 32 ∧ cw * 32 + 32 ≤ a + n)
  { s with poison := s.poison.filter fun cw => !whole cw
           upsets := s.upsets.filter fun x => match x.1 with
             | .sram cw => !whole cw
             | _ => true }

/-! Regions of SRAM in use, and where the next one goes (R86, R169). -/

/-- Regions overlap. -/
def overlaps (a n b m : Nat) : Bool := decide (a < b + m ∧ b < a + n)

/-- The number of entries of queue `q`'s ring (R98). -/
def State.qN (s : State) (q : Nat) : Nat := 2 ^ s.g QUE.QCFG_LOG2N q

/-- The entry size of queue `q`. -/
def State.qSize (s : State) (q : Nat) : Nat := if s.g QUE.QCFG_ENTRY q = 0 then 16 else 32

/-- The SRAM regions of a task: the base and size of each copy placed there (R167). -/
def Task.regions (t : Task) : List (Nat × Nat) :=
  ([(t.placeSA, 2 ^ t.d.stLog2), (t.placeSB, 2 ^ t.d.stLog2), (t.placeMA, 2 ^ t.d.mbLog2), (t.placeMB, 2 ^ t.d.mbLog2),
    (t.placeC, t.d.constLen)]).filterMap fun x =>
      match x.1 with
      | .sram b => some (b, x.2)
      | .localMem => none

/-- The regions no segment and no staging buffer may touch. -/
def State.usedRegions (s : State) : List (Nat × Nat) :=
  s.tasks.flatMap Task.regions
  ++ ((List.range 16).filterMap fun i =>
        if s.gb QUE.QCFG_EN (16 + i) then some ((s.word QUE.QBASE (16 + i)).toNat, s.qN (16 + i) * s.qSize (16 + i)) else none)
  ++ (match s.staging with
      | some x => [(x.base, x.size)]
      | none => [])
  ++ (List.range 16).filterMap fun b => if s.gbit SYS.BOOTMEM_BANKOFF 0 b then some (b * 0x200000, 0x200000) else none

/-- The lowest 32-byte-aligned base in [lo, hi) where `n` bytes fit beside the regions in use. -/
def fitIn (lo hi n : Nat) (used : List (Nat × Nat)) : Option Nat :=
  let cands := lo :: used.map fun x => (x.1 + x.2 + 31) / 32 * 32
  (cands.filter fun c => decide (lo ≤ c ∧ c + n ≤ hi) && used.all fun x => !overlaps c n x.1 x.2).min?

/-- The lowest-numbered bank from `first` on, wrapping, that holds `n` bytes contiguously (R169). -/
def bankFit (first n : Nat) (used : List (Nat × Nat)) : Option Nat :=
  ((List.range 16).map fun i => (first + i) % 16).findSome? fun b =>
    fitIn (b * 0x200000) (min ((b + 1) * 0x200000) hostArea) n used

/-! Segment copies (R122 to R124). -/

/-- Where a copy of STATE (or MBOX) of pass A (or B) lives. -/
def Task.place (t : Task) (mbox passB : Bool) : Place :=
  match mbox, passB with
  | false, false => t.placeSA
  | false, true => t.placeSB
  | true, false => t.placeMA
  | true, true => t.placeMB

/-- The bytes of a copy held in the engine's data memory. -/
def Task.copy (t : Task) (mbox passB : Bool) : List Host.Cell :=
  match mbox, passB with
  | false, false => t.stA
  | false, true => t.stB
  | true, false => t.mbA
  | true, true => t.mbB

/-- Replace a copy held in the engine's data memory. -/
def Task.setCopy (t : Task) (mbox passB : Bool) (m : List Host.Cell) : Task :=
  match mbox, passB with
  | false, false => { t with stA := m }
  | false, true => { t with stB := m }
  | true, false => { t with mbA := m }
  | true, true => { t with mbB := m }

/-- `n` bytes of a segment copy. -/
def State.segGet (s : State) (t : Task) (mbox passB : Bool) (off n : Nat) : List Byte :=
  match t.place mbox passB with
  | .localMem => bytesAt (t.copy mbox passB) off n
  | .sram b => bytesAt s.sram (b + off) n

/-- What an engine's local memories hold may have changed. -/
def State.localNew (s : State) : State := { s with localVer := s.localVer + 1 }

/-- Store bytes into a segment copy of task `t`. -/
def State.segPut (t : Nat) (mbox passB : Bool) (off : Nat) (l : List Byte) (s : State) : State :=
  match s.task? t with
  | none => s
  | some x =>
    match x.place mbox passB with
    | .localMem =>
      State.modTask s.localNew t fun x => x.setCopy mbox passB (putBytes (x.copy mbox passB) off l)
    | .sram b => s.sramPut (b + off) l

/-- A segment access meets a poisoned codeword (R33, R127). -/
def State.segPoisoned (s : State) (t : Task) (mbox passB : Bool) (off n : Nat) : Bool :=
  match t.place mbox passB with
  | .localMem => false
  | .sram b => s.poisoned (b + off) n

/-- `n` bytes of CONST. -/
def State.constGet (s : State) (t : Task) (off n : Nat) : List Byte :=
  match t.placeC with
  | .localMem => (t.konst.drop off).take n
  | .sram b => bytesAt s.sram (b + off) n

/-! The NV store. -/

/-- The base of a bank: 0 A, 1 B, 2 P0, 3 P1, 4 C0, 5 C1, 6 the log ring, 7 the wear records (R39). -/
def nvBase (b : Nat) : Nat :=
  [0x20000000, 0x20800000, 0x21000000, 0x21100000, 0x21200000, 0x21240000, 0x21280000, 0x21680000].getD b 0

/-- The size of a bank (R39). -/
def nvSize (b : Nat) : Nat := [0x800000, 0x800000, 0x100000, 0x100000, 0x40000, 0x40000, 0x400000, 0x100000].getD b 0

/-- The bank of an address. -/
def nvBankOf (a : Nat) : Option Nat :=
  (List.range 8).find? fun b => decide (nvBase b ≤ a ∧ a < nvBase b + nvSize b)

/-- A little-endian number of the NV store. -/
def State.nvNat (s : State) (a n : Nat) : Nat := leNat (bytesAt s.nv.bytes a n)

/-- Write bytes under a tag (R401): the lines they lie in are written anew. -/
def State.nvPut (a : Nat) (l : List Byte) (tag : BitVec 16) (s : State) : State :=
  let first := a / 32
  let last := (a + l.length - 1) / 32
  { s with nv := { s.nv with
      bytes := putBytes s.nv.bytes a l
      lines := (s.nv.lines.filter fun x => !decide (first ≤ x.line ∧ x.line ≤ last))
        ++ (List.range (last + 1 - first)).map fun i => ⟨first + i, tag, false⟩ } }

/-- The line of an address, as last written. -/
def State.nvLine (s : State) (a : Nat) : Option NvLine := s.nv.lines.find? fun x => x.line == a / 32

/-- A header of R53. -/
structure ImageHdr where
  magic : Nat
  fmt : Nat
  keySlot : Nat
  svn : Nat
  seq : Nat
  len : Nat
  deriving DecidableEq, Repr

/-- The header fields of a 1 KiB header. -/
def hdrOf (h : List Byte) : ImageHdr :=
  ⟨leNat (h.take 4), leNat ((h.drop 4).take 2), leNat ((h.drop 6).take 1), leNat ((h.drop 7).take 1),
   leNat ((h.drop 8).take 4), leNat ((h.drop 12).take 4)⟩

/-- MAGIC and FMT match, reserved bytes are zero, LEN is in range (R53, R55). -/
def hdrWellFormed (h : List Byte) : Bool :=
  let x := hdrOf h
  x.magic == 0x49384A4B && x.fmt == 1 && ((h.drop 0x10).take 112).all (· == 0) && ((h.drop 0x140).take 704).all (· == 0)
    && decide (x.len ≤ 0x7FFC00) && x.len % 32 == 0

/-- The outcome of R54 for an image: 0 valid, 1 not well-formed, 2 key or signature, 3 SVN below the floor. -/
def State.imageCheck (s : State) (h body : List Byte) : Nat :=
  if !hdrWellFormed h then 1
  else
    let x := hdrOf h
    let pub := (h.drop 0x80).take 96
    let sg := (h.drop 0xE0).take 96
    let keyOk := decide (x.keySlot < 4) && !s.fuses.revoked.getLsbD x.keySlot
      && (at' s.fuses.keyHash x.keySlot none == some (sha384 pub))
    if !(keyOk && ecdsaOk (beNat (pub.take 48)) (beNat (pub.drop 48)) (beNat (sg.take 48)) (beNat (sg.drop 48))
        (sha384 (h.take 0xE0 ++ body))) then 2
    else if x.svn < s.g SYS.BOOT_SVNFLOOR then 3 else 0

/-- The header of image bank `b` (0 A, 1 B). -/
def State.bankHdr (s : State) (b : Nat) : List Byte := bytesAt s.nv.bytes (nvBase b) 0x400

/-- The check of image bank `b`. -/
def State.bankCheck (s : State) (b : Nat) : Nat :=
  s.imageCheck (s.bankHdr b) (bytesAt s.nv.bytes (nvBase b + 0x400) (hdrOf (s.bankHdr b)).len)

/-- The booted image bank, if an image was booted. -/
def State.bootedBank (s : State) : Option Nat :=
  match s.g SYS.BOOT_IMG with
  | 1 => some 0
  | 2 => some 1
  | _ => none

/-- Bytes of the booted image's body. -/
def State.imageBody (s : State) (off n : Nat) : List Byte :=
  match s.bootedBank with
  | none => []
  | some b => bytesAt s.nv.bytes (nvBase b + 0x400 + off) n

/-- LEN of a parameter or calibration bank is in range (R402). -/
def parLenOk (b len : Nat) : Bool :=
  len % 32 == 0 && (if b < 4 then decide (0x1F000 ≤ len ∧ len ≤ 0xFF000) else decide (len ≤ 0x3F000))

/-- A parameter or calibration bank is valid (R402). -/
def State.parValid (s : State) (b : Nat) : Bool :=
  let a := nvBase b
  let len := s.nvNat (a + 8) 4
  s.nvNat a 4 == (if b < 4 then 0x50384A4B else 0x43384A4B) && parLenOk b len
    && (crc32c (bytesAt s.nv.bytes a 12 ++ bytesAt s.nv.bytes (a + 0x1000) len)).toNat == s.nvNat (a + 12) 4

/-- The winner of banks `b` and `b + 1` (R402). -/
def State.parWinner (s : State) (b : Nat) : Option Nat :=
  match s.parValid b, s.parValid (b + 1) with
  | false, false => none
  | true, false => some b
  | false, true => some (b + 1)
  | true, true => if s.nvNat (nvBase (b + 1) + 4) 4 > s.nvNat (nvBase b + 4) 4 then some (b + 1) else some b

/-- The low 16 bits of the SEQ a line of bank `b` must carry, with the reach of the readable part (R401). -/
def State.nvReach (s : State) (b off : Nat) : Option (Nat × Nat) :=
  if b < 2 then
    if hdrWellFormed (s.bankHdr b) then some ((hdrOf (s.bankHdr b)).seq, 0x400 + (hdrOf (s.bankHdr b)).len) else none
  else if b < 6 then
    if s.parValid b then
      some (s.nvNat (nvBase b + 4) 4, if off < 0x1000 then 0x1000 else 0x1000 + s.nvNat (nvBase b + 8) 4)
    else none
  else
    (s.nvLine (nvBase b + off / 0x1000 * 0x1000)).map fun x => (x.tag.toNat, nvSize b)

/-- A read of an NV word (R13, R392, R401). -/
def State.nvRead (s : State) (a : Nat) : Except Code Word :=
  match nvBankOf a with
  | none => .error eRANGE
  | some b =>
    if s.gb NVS.KEYSTAT_CLOSED && decide (b < 4) then .error eRIGHTS
    else if s.pwr.failed.getLsbD 24 then .error eNVCHK
    else
      match s.nvReach b (a - nvBase b), s.nvLine a with
      | some (seq, reach), some x =>
        if !x.bad && x.tag.toNat == seq % 65536 && decide (a - nvBase b < reach) then .ok (wordAt s.nv.bytes a)
        else .error eNVCHK
      | _, _ => .error eNVCHK

/-- An entry for the event log: a record of 16 bytes, the page sequence and a CRC-32C (R405). It waits for its page. -/
def State.logEntry (rec : List Byte) (s : State) : State :=
  if !s.islandUp 24 then s else
  let b := rec ++ leBytes 12 (s.nv.logSeq + 1 + s.nv.logPend.length / 128)
  { s with nv := { s.nv with
      logSince := if s.nv.logPend.isEmpty then s.tbase else s.nv.logSince
      logPend := s.nv.logPend ++ [b ++ leBytes 4 (crc32c b).toNat] } }

/-! Hardware queues (R97 to R100). -/

/-- Entries present in queue `q`. -/
def State.qLevel (s : State) (q : Nat) : Nat := (s.word QUE.QTAIL q - s.word QUE.QHEAD q).toNat

/-- The ring is full. -/
def State.qFull (s : State) (q : Nat) : Bool := s.qLevel q == s.qN q

/-- The address of the entry of index `i` (R98). -/
def State.qAddr (s : State) (q i : Nat) : Nat := (s.word QUE.QBASE q).toNat + i % s.qN q * s.qSize q

/-- Write an entry at QTAIL and advance it; a full ring counts a drop (R99). -/
def State.qPush (q : Nat) (l : List Byte) (s : State) : State :=
  if s.qFull q then s.inc QUE.QSTAT_DROPS q
  else (s.sramPut (s.qAddr q (s.word QUE.QTAIL q).toNat) l).setWord QUE.QTAIL q (s.word QUE.QTAIL q + 1)

/-- Advance QHEAD. -/
def State.qDrop (q n : Nat) (s : State) : State := s.setWord QUE.QHEAD q (s.word QUE.QHEAD q + BitVec.ofNat 32 n)

/-- The words of the entry of index `i`. -/
def State.qEntry (s : State) (q i : Nat) : List Word :=
  (List.range (s.qSize q / 4)).map fun k => wordAt s.sram (s.qAddr q i + 4 * k)

/-! What registers read. -/

/-- The registers whose low half latches a shadow (R101): low and high. -/
def widePairs : List (Reg × Reg) :=
  [(TIME.TBASE_LO, TIME.TBASE_HI), (SYS.UID_LO, SYS.UID_HI), (PYR.LASTTS_LO, PYR.LASTTS_HI), (CAN.TOFS_LO, CAN.TOFS_HI),
   (ETH.PTPOFS_LO, ETH.PTPOFS_HI)]

/-- The engine whose pass the debug view shows: the debug engine, while it is halted in a pass (R206). -/
def State.dbgStep (s : State) : Option Step :=
  let e := at' s.engines (s.g PYR.DBGCTL_ENG) ⟨[], none, none, false, false, false, false⟩
  if s.gb PYR.DBGCTL_EN && e.halted then e.steps.head? else none

/-- The word of CMP.STAT and of a CMPSTAT entry: two bits per enabled comparator (R291). -/
def State.cmpStat (s : State) (i : Nat) : Word :=
  BitVec.ofNat 32 ((List.range 16).foldl (fun a j =>
    let c := at' s.comp (16 * i + j) (Comp.start false)
    if s.gb CMP.CFG_EN (16 * i + j) then a + (if c.hi.out then 2 ^ (2 * j + 1) else 0) + (if c.lo.out then 2 ^ (2 * j) else 0) else a) 0)

/-- The word a register reads, before any shadow. Some registers are views of other state. -/
def State.regView (s : State) (r : Reg) (k : Nat) : Word :=
  if r = TIME.TBASE_LO then BitVec.ofNat 32 s.tbase
  else if r = TIME.TBASE_HI then BitVec.ofNat 32 (s.tbase / 2 ^ 32)
  else if r = SYS.UID_LO then Config.uid.setWidth 32
  else if r = SYS.UID_HI then (Config.uid >>> 32).setWidth 32
  else if r = FBRK.STAT then (s.pb FBRK.STAT_FAULTN 0 s.faultN).word r k
  else if r = HOST.PSTAT then
    match (List.finRange 4)[k]? with
    | none => s.word r k
    | some n =>
      let pt := s.ports[n]
      ((s.p HOST.PSTAT_OUTST k (min 255 (pt.cmds.length + (if pt.busy.isSome then 1 else 0)))).p HOST.PSTAT_LONG k
        (s.ops.countP fun o => o.port == n)).word r k
  else if r = DCL.STAT then ((s.pb DCL.STAT_BRKON k (s.brkPad k)).pb DCL.STAT_DSCON k (s.dscPad k)).word r k
  else if r = SAFE.SOUTST then ((s.pb SAFE.SOUTST_ON k (s.soutOn k)).pb SAFE.SOUTST_TESTING k (s.soutTesting k)).word r k
  else if r = CMP.STAT then s.cmpStat k
  else if r = POS.SPEED then s.posSpeed k
  else if r = POS.ANG then if (at' s.pos k PosPort.init).cntSet then s.posAngle k else 0
  else if r = QUE.QSTAT then (s.pb QUE.QSTAT_FULL k (s.qFull k)).word r k
  else if r = EVT.STAT then (s.p EVT.STAT_USED 0 s.ev.pool.length).word r k
  else if r = PYR.DBGPC then
    match s.dbgStep with
    | none => ((((s.pb PYR.DBGPC_HALTED 0 (s.gb PYR.DBGCTL_EN
        && (at' s.engines (s.g PYR.DBGCTL_ENG) ⟨[], none, none, false, false, false, false⟩).halted)).p PYR.DBGPC_TASK 0 0).p PYR.DBGPC_PC 0 0)).word r k
    | some st => (((s.pb PYR.DBGPC_HALTED 0 true).p PYR.DBGPC_TASK 0 st.task).p PYR.DBGPC_PC 0 st.cur.pc).word r k
  else if r = PYR.DBGTAG then
    match s.dbgStep with
    | none => 0
    | some st => BitVec.ofNat 32 ((List.finRange 32).foldl (fun a i => a + if st.cur.g[i].tag then 2 ^ i.val else 0) 0)
  else if r = PYR.DBGTYP then
    match s.dbgStep with
    | none => 0
    | some st => BitVec.ofNat 32 ((List.finRange 32).foldl (fun a i => a + if st.cur.g[i].isF then 2 ^ i.val else 0) 0)
  else if r = PYR.DBGG then
    match s.dbgStep with
    | none => 0
    | some st => (at' st.cur.g k ⟨0, false, false⟩).raw
  else s.word r k

/-- Every field of a register is write-only or reads 0 (R8): WO and W1S fields read 0. -/
def readMask (r : Reg) : Nat :=
  r.flds.foldl (fun a f => if f.ty == .wo || f.ty == .w1s then a else a + (2 ^ f.w - 1) * 2 ^ f.lo) 0

/-- What a read of a register returns, before any shadow (R8). -/
def State.regRead (s : State) (r : Reg) (k : Nat) : Word := s.regView r k &&& BitVec.ofNat 32 (readMask r)

/-- SRAM whose contents the spec lays down no content for: the rings Q0–Q7 and the frame pools (R97). -/
def freeArea (a : Nat) : Bool := decide (hostArea ≤ a ∧ a < 0x01FF2000)

/-- The engine whose local window holds an address (R39). -/
def windowOf (a : Nat) : Option Nat :=
  if 0x10000000 ≤ a ∧ a < 0x11000000 ∧ a % 0x100000 < 0x40000 then some ((a - 0x10000000) / 0x100000) else none

/-- A word of an engine's local window: the top 16 KiB read 0 (R167), and what the rest holds is no one's to say. -/
def State.windowWord (s : State) (a : Nat) : Word :=
  if 0x3C000 ≤ a % 0x100000 then 0 else Config.windowWord a s.localVer

/-- A word at an absolute address outside the local windows, before any shadow: the code it is refused with, or the
word (R39, R83, R127). A word of an area without stated contents is free. -/
def State.absWord (s : State) (a : Nat) : Except Code Word :=
  if a % 4 ≠ 0 then .error eALIGN
  else if a < sramEnd then
    if !s.bankOk a then .error eRANGE
    else if s.poisoned a 4 then .error eMEMCHK
    else .ok (if freeArea a then s.free else wordAt s.sram a)
  else if 0x20000000 ≤ a ∧ a < 0x21780000 then s.nvRead a
  else
    match regAt a, blockAt a with
    | some (r, k), some b => if s.islandUp b.island then .ok (s.regRead r k) else .error eMODE
    | _, _ => .error eRANGE

/-- The pair of R101 that a register belongs to, by its low half's address, and whether it is the high half. -/
def pairOf (r : Reg) (k : Nat) : Option (Nat × Bool) :=
  widePairs.findSome? fun x =>
    if r = x.1 then some (x.1.addr k, false) else if r = x.2 then some (x.1.addr k, true) else none

/-- The high half of the pair whose low half is `r`. -/
def highOf (r : Reg) : Option Reg := widePairs.findSome? fun x => if r = x.1 then some x.2 else none

end Sys2Proof.Machine
end

