-- ==== Sys2Proof/Machine/Images.lean ====
section
/-! DEFINITION. Task images: the body header, task descriptors and their checks (R157 to R162), the code scan, and
the capacity model (R167 to R172). -/

namespace Sys2Proof.Machine

/-- An empty descriptor. -/
def Descr.none : Descr := ⟨0, 0, 0, 0, 0, 0, 0, 0, 0, 0, 0, 0, 0, 0, 0, [], [], [], [], []⟩

/-- A little-endian field of a byte list. -/
def fld (l : List Byte) (off n : Nat) : Nat := leNat ((l.drop off).take n)

/-- The fields of the 512 bytes of a descriptor (R158). -/
def descrOf (l : List Byte) : Descr where
  kind := fld l 0 1
  cls := fld l 1 1
  react := fld l 2 1
  psrc := BitVec.ofNat 32 (fld l 4 4)
  wcet := fld l 8 4
  entry := fld l 12 4
  codeOff := fld l 16 4
  codeLen := fld l 20 4
  constOff := fld l 24 4
  constLen := fld l 28 4
  mtypeOff := fld l 32 4
  stLog2 := fld l 36 1
  mbLog2 := fld l 37 1
  runs := fld l 38 2
  bridges := BitVec.ofNat 8 (fld l 40 1)
  out := (List.range (min 8 (fld l 0x29 1))).map fun i => (bits (fld l (0x30 + 4 * i) 4) 0 3, (fld l (0x30 + 4 * i) 4).testBit 3)
  que := (List.range (min 4 (fld l 0x2D 1))).map fun i => (bits (fld l (0x50 + 4 * i) 4) 0 5, (fld l (0x50 + 4 * i) 4).testBit 8)
  smp := (List.range (min 32 (fld l 0x2A 1))).map fun i => (bits (fld l (0x80 + 4 * i) 4) 28 4, bits (fld l (0x80 + 4 * i) 4) 22 6)
  evt := (List.range (min 32 (fld l 0x2B 1))).map fun i => BitVec.ofNat 20 (fld l (0x100 + 4 * i) 4)
  tlm := (List.range (min 32 (fld l 0x2C 1))).map fun i => bits (fld l (0x180 + 4 * i) 4) 0 2

/-- The greatest INDEX of a frame-entry kind, or none for an undefined kind (R160). -/
def smpMax : Nat → Option Nat
  | 1 => some 63
  | 2 => some 63
  | 3 => some 23
  | 4 => some 7
  | 5 => some 7
  | 6 => some 7
  | 7 => some 3
  | 8 => some 7
  | 9 => some 1
  | 10 => some 7
  | _ => none

/-- PSRC names a bridge (R159). -/
def Descr.byBridge (d : Descr) : Bool := d.psrc.toNat / 2 ^ 30 == 0

/-- The PSRC bridge. -/
def Descr.psrcBr (d : Descr) : Nat := bits d.psrc.toNat 0 3

/-- UPD: 0 valley, 1 peak, 2 both. -/
def Descr.upd (d : Descr) : Nat := bits d.psrc.toNat 8 2

/-- The first bridge of every output group. -/
def Descr.outBr (d : Descr) : List Nat := d.out.map (·.1)

/-- Every bridge an output group drives, the pair of an NPC group included. -/
def Descr.driven (d : Descr) : List Nat := d.out.flatMap fun x => if x.2 then [x.1, x.1 + 1] else [x.1]

/-- The carrier of the unit of bridge `k`: its PERIOD (R242, R243). -/
def State.period (s : State) (k : Nat) : Nat := s.g GATE.CAR_PERIOD (s.unitOf k)

/-- Its PHASE. -/
def State.phase (s : State) (k : Nat) : Nat := s.g GATE.CPH_PHASE (s.unitOf k)

/-- The step period in half ticks (R159). -/
def State.period2 (s : State) (d : Descr) : Nat :=
  if d.byBridge then
    (bits d.psrc.toNat 4 4 + 1) * s.period d.psrcBr * (if d.upd = 2 then 1 else 2)
  else bits d.psrc.toNat 0 30 * 400

/-- Undefined encodings and non-zero reserved fields of the raw descriptor (R162 item 1), those of entries not in use among
them. -/
def descrEnumBad (l : List Byte) : Bool :=
  let d := descrOf l
  let w := fun o => fld l o 4
  decide (d.kind > 1) || decide (d.cls > 2) || decide (d.react > 3)
  || decide (d.psrc.toNat / 2 ^ 30 > 1)
  || (d.byBridge && (d.upd == 3 || bits d.psrc.toNat 10 20 != 0 || bits d.psrc.toNat 3 1 != 0))
  || fld l 3 1 != 0 || fld l 0x2E 2 != 0 || (((l.drop 0x60).take 32).any (· != 0))
  || (List.range 8).any (fun i => w (0x30 + 4 * i) / 16 != 0)
  || (List.range 4).any (fun i => w (0x50 + 4 * i) / 512 != 0 || bits (w (0x50 + 4 * i)) 5 3 != 0)
  || (List.range 32).any (fun i => bits (w (0x80 + 4 * i)) 0 22 != 0)
  || d.smp.any (fun x => match smpMax x.1 with
      | none => true
      | some m => decide (m < x.2))
  || (List.range 32).any (fun i => w (0x100 + 4 * i) / 2 ^ 20 != 0)
  || (List.range 32).any (fun i => w (0x180 + 4 * i) / 4 != 0) || d.tlm.any (· == 3)

/-- The step rate suits the class (R159). -/
def State.rateOk (s : State) (d : Descr) : Bool :=
  let p := s.period2 d
  match d.cls with
  | 0 => d.byBridge && decide (2000 ≤ p)
  | 1 => if d.byBridge then decide (20000 ≤ p ∧ p ≤ 400000) else decide (50 * 400 ≤ p ∧ p ≤ 1000 * 400)
  | _ => !d.byBridge && decide (1000 * 400 ≤ p ∧ p ≤ 10000000 * 400)

/-- Values, offsets and lengths in range (R162 item 2). `len` is the body's LEN. -/
def State.descrRangeBad (s : State) (l : List Byte) (len : Nat) : Bool :=
  let d := descrOf l
  !(decide (16 ≤ d.wcet ∧ d.wcet ≤ 16777216) && d.entry % 4 == 0 && decide (d.entry < d.codeLen)
    && d.codeOff % 32 == 0 && d.codeLen % 4 == 0 && decide (4 ≤ d.codeLen ∧ d.codeLen ≤ 65536 ∧ d.codeOff + d.codeLen ≤ len)
    && d.constOff % 32 == 0 && decide (1 ≤ d.constLen ∧ d.constLen ≤ 1048576 ∧ d.constOff + d.constLen ≤ len)
    && decide (8 ≤ d.stLog2 ∧ d.stLog2 ≤ 16) && decide (8 ≤ d.mbLog2 ∧ d.mbLog2 ≤ 12)
    && (d.mtypeOff == 0 || decide (d.mtypeOff + 2 ^ d.mbLog2 / 32 ≤ len))
    && decide (fld l 0x29 1 ≤ 8 ∧ fld l 0x2A 1 ≤ 32 ∧ fld l 0x2B 1 ≤ 32 ∧ fld l 0x2C 1 ≤ 32 ∧ fld l 0x2D 1 ≤ 4)
    && d.evt.all (fun e => decide (0x400 ≤ e.toNat ∧ e.toNat ≤ 0xFFFF)) && s.rateOk d)

/-- KIND, RUNS, REACT and CLASS suit one another (R162 item 3). -/
def descrKindBad (d : Descr) : Bool :=
  if d.kind = 1 then !(decide (1 ≤ d.runs) && d.react == 0 && d.cls == 2) else d.runs != 0

/-- Bridges and queues (R162 item 4). An OUT bridge must be in BRIDGES; of an NPC pair that is asked of the bridge the entry
names alone (DESIGN CHOICE, log entry 110). Carriers are those of the bridges' units (R243). -/
def State.descrUseBad (s : State) (d : Descr) : Bool :=
  d.out.any (fun x => !d.bridges.getLsbD x.1 || (x.2 && x.1 % 2 == 1)
    || (d.byBridge && (s.period x.1 != s.period d.psrcBr || s.phase x.1 != s.phase d.psrcBr)))
  || d.driven.any (fun b => s.tasks.any fun t => t.d.driven.contains b)
  || d.que.any (fun x => decide (x.1 < 12 ∨ 28 ≤ x.1))

/-- Switch `sw` exists in output group (bridge, npc): 0–5, and 6–11 of a follower or the inner bridge (R242). -/
def State.hasSwitch (s : State) (grp : Nat × Bool) (sw : Nat) : Bool :=
  decide (sw < 6) || (decide (sw < 12) && (grp.2 || decide (1 < (s.members grp.1).length)))

/-- An I/O word names something the task does not have (R162 item 5). -/
def State.scanBad (s : State) (d : Descr) (w : Nat) : Bool :=
  let maj := bits w 26 6
  let gb := bits w 11 5
  let gc := bits w 6 5
  let fn := bits w 0 6
  let npw := decide (d.out.length ≤ gc)
  if maj = 0x38 then decide (fn ≤ 2) && decide (d.smp.length ≤ gc)
  else if maj = 0x39 then
    decide (fn ≤ 3) && (npw || (fn == 1 && decide (3 ≤ gb)) || (fn == 3 && !s.hasSwitch (d.out.getD gc (0, false)) gb))
  else if maj = 0x3A then fn == 0 && npw
  else if maj = 0x3B then (fn == 0 && decide (d.evt.length ≤ gc)) || (fn == 1 && decide (d.tlm.length ≤ gc))
  else false

/-- The code scan: every word from offset 0, skipping word 1 of each long form. -/
def State.codeScan (s : State) (d : Descr) : Bool → List Word → Bool
  | _, [] => true
  | true, _ :: l => s.codeScan d false l
  | false, w :: l => !s.scanBad d w.toNat && s.codeScan d (bits w.toNat 26 6 == 0x3E) l

/-- Word offsets that are word 1 of a long form. -/
def longSeconds : Bool → Nat → List Word → List Nat
  | _, _, [] => []
  | true, i, _ :: l => i :: longSeconds false (i + 1) l
  | false, i, w :: l => longSeconds (bits w.toNat 26 6 == 0x3E) (i + 1) l

/-- The code segment of a descriptor in the booted image. -/
def State.imageCode (s : State) (d : Descr) : List Word := bytesWords (s.imageBody d.codeOff d.codeLen)

/-- The checks of R162 on the raw descriptor, in order: the first code that applies. -/
def State.descrCheck (s : State) (l : List Byte) (len : Nat) : Code :=
  let d := descrOf l
  firstCode [(descrEnumBad l, eENUM), (s.descrRangeBad l len, eRANGE), (descrKindBad d, eRANGE), (s.descrUseBad d, eRANGE),
    (!s.codeScan d false (s.imageCode d), eRANGE)]

/-- The raw descriptor `i` of the booted image; none where the index is absent (R157). -/
def State.imageDescr (s : State) (i : Nat) : Option (List Byte) :=
  let h := s.imageBody 0 32
  if fld h 0 4 = 0x42384A4B ∧ fld h 12 4 = 1 ∧ i < fld h 4 2 then some (s.imageBody (fld h 8 4 + 512 * i) 512) else none

/-! Capacity (R167 to R172). -/

/-- Where the segments of a task live: true for local. -/
structure Layout where
  st : Bool
  mb : Bool
  cn : Bool
  deriving DecidableEq, Repr

/-- The layout an engine with `room` free bytes of data memory gives (R167), if the class allows it there. -/
def layoutFor (d : Descr) (room : Nat) : Option Layout :=
  let st := 2 * 2 ^ d.stLog2
  let mb := 2 * 2 ^ d.mbLog2
  if d.cls = 0 then if st + mb + d.constLen ≤ room then some ⟨true, true, true⟩ else none
  else if d.cls = 1 then
    if st + mb ≤ room then some ⟨true, true, decide (st + mb + d.constLen ≤ room)⟩ else none
  else
    let a := decide (st ≤ room)
    let r1 := if a then room - st else room
    let b := decide (mb ≤ r1)
    let r2 := if b then r1 - mb else r1
    some ⟨a, b, decide (d.constLen ≤ r2)⟩

/-- Local bytes of a layout. -/
def Layout.bytes (y : Layout) (d : Descr) : Nat :=
  (if y.st then 2 * 2 ^ d.stLog2 else 0) + (if y.mb then 2 * 2 ^ d.mbLog2 else 0) + if y.cn then d.constLen else 0

/-- The layout of an admitted task. -/
def Task.layout (t : Task) : Layout := ⟨t.placeSA == .localMem, t.placeMA == .localMem, t.placeC == .localMem⟩

/-- c_j of R170. -/
def costOf (d : Descr) (y : Layout) : Nat :=
  let b := min 8192 ((if y.st then 2 * 2 ^ d.stLog2 else 0) + if y.mb then 2 * 2 ^ d.mbLog2 else 0)
  2 * d.wcet + 40 + 100 + (b + 7) / 8

/-- Group `g` names the member code (R284). -/
def State.inGroup (s : State) (code g : Nat) : Bool :=
  s.g DSM.RGRP_A g == code || s.g DSM.RGRP_B g == code || (s.gb DSM.RGRP_TYPE g && s.g DSM.RGRP_C g == code)

/-- A member of an enabled plausibility group (R284): DSM channel n is code n, converter c is code 64 + c. -/
def State.groupsOf (s : State) (code : Nat) : List Nat :=
  (List.range 32).filter fun g => s.gb DSM.RGRP_EN g && s.inGroup code g

/-- The converter whose configuration rules `c`: the even member of a pair (R281). -/
def State.convBase (s : State) (c : Nat) : Nat := if c % 2 = 1 && s.gb ADC.CFG_PAIR (c - 1) then c - 1 else c

/-- The converters that answer for `c`: both members of a pair. -/
def State.convSet (s : State) (c : Nat) : List Nat :=
  let b := s.convBase c
  if b % 2 = 0 && s.gb ADC.CFG_PAIR b then [b, b + 1] else [c]

/-- The member code of an entry in the plausibility groups (R284): a converter of a pair is any member of it (R281). -/
def State.memberCodes (s : State) (x : Nat × Nat) : List Nat :=
  match x.1 with
  | 1 => [x.2]
  | 3 => (s.convSet x.2).map (64 + ·)
  | _ => []

/-- The arrival bound of a frame entry after its boundary (R283, R310), in ticks. DEDUCED (log entry 14). -/
def State.arrival (s : State) (x : Nat × Nat) : Nat :=
  let grouped := (s.memberCodes x).any fun c => !(s.groupsOf c).isEmpty
  match x.1 with
  | 1 => if grouped then 35 else 15
  | 2 => 15
  | 3 => if grouped then 35 else 30
  | 4 => 15
  | 5 => 15
  | 6 => 15
  | 10 => 15
  | _ => 0

/-- A_j: the arrival delay of the last entry of a frame, under the configuration in force (R170). -/
def State.arriveOf (s : State) (d : Descr) : Nat := d.smp.foldl (fun a x => max a (s.arrival x)) 0 + 40

/-- A task as the capacity model sees it: its descriptor, its layout and A_j (R170). -/
structure Load where
  d : Descr
  y : Layout
  arrive : Nat

/-- c_j of R170. -/
def Load.cost (x : Load) : Nat := costOf x.d x.y

/-- D_j of R170 in half cycles: 5·(P_j − A_j), doubled. -/
def State.deadline2 (s : State) (x : Load) : Int := 5 * ((s.period2 x.d : Int) - 2 * x.arrive)

/-- A sum of fractions. -/
def fracSum (l : List (Nat × Nat)) : Nat × Nat := l.foldl (fun a x => (a.1 * x.2 + x.1 * a.2, a.2 * x.2)) (0, 1)

/-- The sum of test 3: Σ c_j / (5·P_j), as a fraction. -/
def State.loadOf (s : State) (l : List Load) : Nat × Nat := fracSum (l.map fun x => (2 * x.cost, 5 * s.period2 x.d))

/-- UTIL: the sum of test 3 in units of 1/1,024, rounded up (R172). -/
def State.utilOf (s : State) (l : List Load) : Nat :=
  let f := s.loadOf l
  (1024 * f.1 + f.2 - 1) / f.2

/-- The tests of R172 on a set of tasks. -/
def State.accepts (s : State) (l : List Load) : Bool :=
  let fs := l.filter fun x => x.d.cls == 0
  let ms := l.filter fun x => x.d.cls == 1
  let t1 := fracSum (fs.map fun x => (2 * x.cost, (s.deadline2 x).toNat))
  let ld := s.loadOf l
  fs.all (fun x => decide (0 < s.deadline2 x)) && decide (t1.1 ≤ t1.2)
  && ms.all (fun i =>
      let pi := s.period2 i.d
      decide (2 * ((fs.map fun j => j.cost * ((pi + s.period2 j.d - 1) / s.period2 j.d + 1)).sum
        + (ms.map fun j => j.cost * (pi / s.period2 j.d + 1)).sum) ≤ 5 * pi))
  && decide (10 * ld.1 ≤ 9 * ld.2)
  && decide ((l.map fun x => x.d.codeLen).sum ≤ 131072) && decide ((l.map fun x => x.y.bytes x.d).sum ≤ 114688)

/-- The tasks placed on engine `e`. -/
def State.tasksOn (s : State) (e : Nat) : List Task := s.tasks.filter fun t => t.eng.val == e

/-- The tasks on an engine, as the capacity model sees them. -/
def State.setOn (s : State) (e : Nat) : List Load := (s.tasksOn e).map fun t => ⟨t.d, t.layout, t.arrive⟩

/-- Free data memory of engine `e`. -/
def State.roomOn (s : State) (e : Nat) : Nat := 114688 - ((s.setOn e).map fun x => x.y.bytes x.d).sum

end Sys2Proof.Machine
end

