-- ==== Sys2Proof/Machine/Tasks.lean ====
section
/-! DEFINITION. Placement, admission, migration, retirement and loss of tasks (R163 to R185), rejected steps (R104,
R161), and the retirement of engines (R37, R183, R195). -/

namespace Sys2Proof.Machine

/-! Engine states (R165). -/

def eOFF : Nat := 0
def eSPARE : Nat := 1
def eACTIVE : Nat := 2
def eDRAIN : Nat := 3
def eTEST : Nat := 4
def eRETIRED : Nat := 5

/-- Drain reasons (R176). -/
def rSLICE : Nat := 1
def rSUSPECT : Nat := 2
def rRETIRE : Nat := 3
def rCONSOL : Nat := 4

/-- An engine entry past the end of the array. -/
def Engine.none : Engine := ⟨[], Option.none, Option.none, false, false, false, false⟩

/-- The entry of engine `e`. -/
def State.eng (s : State) (e : Nat) : Engine := at' s.engines e Engine.none

/-- Change an engine's entry. -/
def State.modEng (e : Nat) (f : Engine → Engine) (s : State) : State := { s with engines := upd s.engines e f }

/-- The state of engine `e`. -/
def State.est (s : State) (e : Nat) : Nat := s.g PLC.ESTAT_STATE e

/-- Set an engine's state and drain reason. -/
def State.setEst (e st reason : Nat) (s : State) : State :=
  ((s.p PLC.ESTAT_STATE e st).p PLC.ESTAT_REASON e reason).localNew

/-- Engines in a state. -/
def State.inState (s : State) (st : Nat) : List Nat := (List.range 16).filter fun e => s.est e == st

/-- The engine in debug (R205). -/
def State.dbgEngine (s : State) : Option Nat := if s.gb PYR.DBGCTL_EN then some (s.g PYR.DBGCTL_ENG) else none

/-- Write NTASK and UTIL of an engine (R172): its tasks have changed. -/
def State.loadUpdate (e : Nat) (s : State) : State :=
  ((s.p PLC.ESTAT_NTASK e (s.tasksOn e).length).p PLC.ESTAT_UTIL e (min 2047 (s.utilOf (s.setOn e)))).localNew

/-- The destination of a drain in progress. -/
def State.isDest (s : State) (e : Nat) : Bool :=
  (List.range 16).any fun x => s.est x == eDRAIN && (s.eng x).drainDest == some (Fin.ofNat 16 e)
    || s.tasks.any fun t => match t.move with
        | some m => m.dest.val == e
        | none => false

/-- SPARES and NOSPARE as the engine states have them; NO_SPARE is raised on entry to that condition (R166, R185). -/
def State.spareFlags (s : State) : State :=
  let n := (s.inState eSPARE).length
  let was := s.gb PLC.STAT_NOSPARE
  let s1 := (s.p PLC.STAT_SPARES 0 n).pb PLC.STAT_NOSPARE 0 (n == 0)
  (if n = 0 && !was && s.mode != mBOOT then s1.raise 18 0x6A 0 else s1).guarUpdate

/-- The best fit of R174 among engines: the highest UTIL after the addition, ties to the lower number. -/
def State.bestFit (s : State) (d : Descr) (arrive : Nat) (lay : Nat → Option Layout) (list : List Nat) : Option Nat :=
  ((list.filterMap fun e =>
      match lay e with
      | none => none
      | some y =>
        let l := ⟨d, y, arrive⟩ :: s.setOn e
        if s.accepts l then some (e, s.utilOf l) else none).foldl
    (fun b x => match b with
      | none => some x
      | some y => if y.2 < x.2 then some x else b) none).map (·.1)

/-! Leaving: dropping a task. -/

/-- The axes of a task go to OFF (R210, R214). -/
def State.axesOff (t : Nat) (s : State) : State :=
  overL (s.axesOfTask t) (fun n s => State.setAxis n 0 s) s

/-- Clear TASK trims of switches whose bridge is in no OUT table any more, and their leg commands (R247). -/
def State.trimsReset (brs : List Nat) (s : State) : State :=
  let s1 := overL (brs.flatMap chansOf) (fun n s => s.p GATE.TRIM_TASK n 0) s
  let legs := (brs.flatMap fun k => [3 * k, 3 * k + 1, 3 * k + 2]).foldl (fun v i => upd v i fun _ => ⟨.off, .off⟩) s1.legs
  { s1 with legs := legs }

/-- Answer the ports that wait for a task that has gone: its retirement is done, and its mailbox is no more (R87). -/
def State.answerGone (t : Nat) (s : State) : State :=
  overL (List.finRange 4) (fun n s =>
    match s.ports[n].busy with
    | some (_, .retire x) => if x = t then State.finish n eOK [] s else s
    | some (_, .mailbox x) => if x = t then State.finish n eNOTASK [] s else s
    | _ => s) s

/-- Remove a task: its memory, its registers, its queue bindings and its axes (R164, R183, R327). CTL.TRUN keeps its
values. -/
def State.removeTask (t : Nat) (s : State) : State :=
  match s.task? t with
  | none => s
  | some x =>
    let s1 := State.axesOff t s
    let s2 := { s1 with
      tasks := s1.tasks.filter fun y => y.id != t
      engines := s1.engines.map fun e => { e with steps := e.steps.filter fun st => st.task != t } }
    let s3 := overL (List.range 4) (fun q s =>
      if s.gb EVT.QBIND_EN q && s.g EVT.QBIND_TASK q == t then s.pb EVT.QBIND_EN q false else s) s2
    let units := (x.d.driven.flatMap fun k => s3.members (s3.unitOf k)) ++ x.d.driven
    let s4 := State.trimsReset units s3
    State.answerGone t (State.loadUpdate x.eng (s4.setWord PLC.TLOC t 0))

/-! Moves and drains. -/

/-- A drain of engine `e` is over: its last task has gone (R181, R184). -/
def State.drained (e : Nat) (s : State) : State :=
  if s.est e = eDRAIN && (s.tasksOn e).isEmpty then
    let r := s.g PLC.ESTAT_REASON e
    let st := if r = rRETIRE then eRETIRED else if r = rCONSOL then eSPARE else eTEST
    let s1 := State.setEst e st 0 (State.modEng e (fun x => { x with drainDest := none }) s)
    s1.raise 18 0x69 e
  else s

/-- An ACTIVE engine without tasks is SPARE (R165, R208). -/
def State.idleEngine (e : Nat) (s : State) : State :=
  if s.est e = eACTIVE && (s.tasksOn e).isEmpty && !s.isDest e then State.setEst e eSPARE 0 s else s

/-- Mark the moves of every task of `e` to `dest` (R177). -/
def State.markMoves (e : Nat) (dest : Nat → Option Nat) (s : State) : State :=
  overL (s.tasksOn e) (fun t s =>
    match dest t.id with
    | some d =>
      (s.modTask t.id fun t => { t with move := some ⟨Fin.ofNat 16 d, false⟩ }).pb PLC.TLOC_MOVING t.id true
    | none => s) s

/-- The drain of `e` to the lowest-numbered SPARE engine begins; false if none exists. -/
def State.drainTo (e reason : Nat) (s : State) : Option State :=
  match (s.inState eSPARE).filter (fun d => s.dbgEngine != some d) with
  | [] => none
  | d :: _ =>
    let s1 := State.setEst e eDRAIN reason s
    let s2 := State.setEst d eACTIVE 0 s1
    some (State.markMoves e (fun _ => some d) (State.modEng e (fun x => { x with drainDest := some (Fin.ofNat 16 d) }) s2))

/-- Where consolidation puts each task of `e`: best fit among the other ACTIVE engines, no hints, every task keeping
its layout, or none at all (R184). Earlier choices count for later ones. -/
def State.consolPlan (s : State) (e : Nat) : List Task → List (Nat × Nat) → Option (List (Nat × Nat))
  | [], plan => some plan
  | t :: l, plan =>
    let cand := (s.inState eACTIVE).filter fun x => x != e && !s.isDest x && s.dbgEngine != some x
    let place := fun (y : Task) => match assocGet plan y.id with
      | some d => { y with eng := Fin.ofNat 16 d }
      | none => y
    let sim := { s with tasks := s.tasks.map place }
    match sim.bestFit t.d t.arrive (fun _ => some t.layout) cand with
    | none => none
    | some d => State.consolPlan s e l ((t.id, d) :: plan)

/-- Consolidation (R184): the ACTIVE engine with the lowest UTIL, ties to the higher number, is drained. An engine to which
tasks are on their way, or in debug (R205), cannot be emptied, so that with it consolidation fails. -/
def State.consolidate (s : State) : Option State :=
  if (List.range 16).any fun e => s.est e == eDRAIN && s.g PLC.ESTAT_REASON e == rCONSOL then none else
  match (s.inState eACTIVE).foldl (fun b e => match b with
      | none => some e
      | some x => if s.g PLC.ESTAT_UTIL e ≤ s.g PLC.ESTAT_UTIL x then some e else b) none with
  | none => none
  | some e =>
    if s.isDest e || s.dbgEngine = some e then none else
    match s.consolPlan e (s.tasksOn e) [] with
    | none => none
    | some plan => some (State.markMoves e (assocGet plan) (State.setEst e eDRAIN rCONSOL s))

/-- A consolidation is running. -/
def State.consolidating (s : State) : Bool :=
  (List.range 16).any fun e => s.est e == eDRAIN && s.g PLC.ESTAT_REASON e == rCONSOL

/-- Every bridge of the task's OUT table into its safe state, with CAUSE = REACT (R161, R183, R196). -/
def State.taskSafe (t : Task) (s : State) : State := overL t.d.outBr (fun k => State.demand k 4 false) s

/-- A task is lost (R183). -/
def State.loseTask (t : Nat) (s : State) : State :=
  match s.task? t with
  | none => s
  | some x => State.removeTask t (((State.taskSafe x s).raise 18 0x6B t).inc PLC.STAT_LOST 0)

/-- A drain that has tasks with nowhere to go. -/
def State.drainStuck (s : State) (e : Nat) : Bool :=
  s.est e == eDRAIN && (s.tasksOn e).any fun t => t.move.isNone && t.retire.isNone

/-- The suspect engines that wait for their drain, the earlier verdict first (R198). -/
def State.suspects (s : State) : List Nat :=
  let l := (List.range 16).filter fun e => s.est e == eACTIVE && (s.eng e).targeted && s.dbgEngine != some e
  let at_ := fun e => (s.eng e).suspAt.getD 0
  (l.filter fun e => l.all fun x => decide (at_ e ≤ at_ x)) ++ l

/-- What follows when the set of engines or tasks has changed: a drain that waits, and then a suspect engine (R198), takes
a SPARE engine. Without one, consolidation is tried on entering that condition and where `again` asks for it; a retired
engine that nothing can take loses its tasks (R183, R184). `fuel` bounds the rounds. -/
def State.settle (again : Bool) : Nat → State → State
  | 0, s => s
  | fuel + 1, s0 =>
    let s := overL (List.range 16) (fun e s => State.idleEngine e (State.drained e s)) s0
    let waiting := (List.range 16).filter s.drainStuck
    let retired := waiting.filter fun e => s.g PLC.ESTAT_REASON e == rRETIRE
    let want := (waiting.map fun e => (e, s.g PLC.ESTAT_REASON e)) ++ s.suspects.map fun e => (e, rSUSPECT)
    match want.head?.bind fun x => State.drainTo x.1 x.2 s with
    | some s1 => State.settle again fuel s1
    | none =>
      if !(s.inState eSPARE).isEmpty || s.consolidating || !(again || !s.gb PLC.STAT_NOSPARE || !retired.isEmpty) then s.spareFlags
      else
        match s.consolidate with
        | some s1 => s1.spareFlags
        | none =>
          if retired.isEmpty then s.spareFlags
          else State.settle again fuel (overL (retired.flatMap s.tasksOn) (fun t => State.loseTask t.id) s)

/-- Bring engine states, drains and SPARE flags up to date. -/
def State.plc (s : State) : State := State.settle false 64 s

/-- The same after a retirement: consolidation is tried again (R183, R184, R198). -/
def State.plcAgain (s : State) : State := State.settle true 64 s

/-- A task leaves for good: its memory is freed and the engines settle (R87, R164, R181, R184). -/
def State.dropTask (t : Nat) (s : State) : State := (State.removeTask t s).plcAgain

/-! Steps of an engine. -/

/-- Put the journal lines of a pass back (R104). -/
def State.undo (t : Nat) (p : Pass) (s : State) : State :=
  overL p.journal (fun j => State.segPut t j.mbox j.passB (32 * j.line) j.old) s

/-- Restore STATE, MBOX and STW of a step's task (R104). STW changes only at acceptance. -/
def State.rollback (st : Step) (s : State) : State :=
  let s1 := State.undo st.task st.cur s
  match st.resA with
  | some a => State.undo st.task a s1
  | none => s1

/-- Take the step of a task off its engine. -/
def State.endStep (t : Nat) (s : State) : State :=
  { s with engines := s.engines.map fun e => { e with steps := e.steps.filter fun st => st.task != t } }

/-- The REACT rule for a step that counts as rejected (R161). -/
def State.reactTo (t : Nat) (s : State) : State :=
  match s.task? t with
  | none => s
  | some x =>
    let n := x.rejRun + 1
    let s1 := s.modTask t fun x => { x with rejRun := n }
    match x.d.react with
    | 1 => if 2 ≤ n then State.taskSafe x s1 else s1
    | 2 => State.taskSafe x s1
    | 3 => State.enterSafe 4 none s1
    | _ => s1

/-- Late steps of the task count as rejected: classes F and M (R156). -/
def Task.lateCounts (t : Task) : Bool := t.d.kind == 0 && t.d.cls != 2

/-- A step of task `t` is rejected (R135, R161, R193), and its axes are evaluated on what it reported before (R212). A
setup task retires at once with SEND = 0b11 (R164); a step that has counted as late counts once. -/
def State.rejected (t : Nat) (late : Bool) (s : State) : State :=
  match s.task? t with
  | none => s
  | some x =>
    let s1 := s.modTask t fun x => { x with evalDue := s.axesOfTask t, tlmSig := [] }
    if x.d.kind = 1 then State.dropTask t (s1.p CTL.TRUN_SEND t 0b11)
    else if late && x.lateCounts then s1
    else State.reactTo t s1

/-- A late step of task `t` (R156). -/
def State.lateStep (t : Nat) (s : State) : State :=
  match s.task? t with
  | none => s
  | some x =>
    let s1 := (s.inc CTL.TRUN_LATE t).raise 1 0x62 t
    if x.lateCounts then State.reactTo t s1 else s1

/-- A step in flight is withheld because its engine failed (R13, R37): rolled back, and one rejected step. -/
def State.withhold (e : Nat) (s : State) : State :=
  overL (s.eng e).steps (fun st s => State.rejected st.task st.late (State.endStep st.task (State.rollback st s))) s

/-- The pending move of a task is off. -/
def State.cancelMove (t : Nat) (s : State) : State := (s.modTask t fun x => { x with move := none }).pb PLC.TLOC_MOVING t false

/-- The task is on its way to engine `e`. -/
def Task.movesTo (t : Task) (e : Nat) : Bool :=
  match t.move with
  | some m => m.dest.val == e
  | none => false

/-- Engine `e` is nobody's destination any more: what was to move there waits for another (R182), and a consolidation that
counted on it fails, so that its source stays as it was (R184). -/
def State.noDest (e : Nat) (s : State) : State :=
  let hit := (List.range 16).filter fun d => s.est d == eDRAIN && s.g PLC.ESTAT_REASON d == rCONSOL
    && (s.tasksOn d).any fun t => t.movesTo e
  let s1 := { s with engines := s.engines.map fun x => if x.drainDest == some (Fin.ofNat 16 e) then { x with drainDest := none } else x }
  let s2 := overL (s.tasks.filter fun t => t.movesTo e || hit.contains t.eng.val) (fun t s => State.cancelMove t.id s) s1
  overL hit (fun d s => State.setEst d eACTIVE 0 s) s2

/-- Retire an engine (R183, R195): with tasks it drains; without it is out at once, and what was to come to it finds
another destination (R182). An engine already out stays so; one in debug is not drained (R205), and its retirement waits
(DESIGN CHOICE, log entry 112). -/
def State.retireEngine (e : Nat) (s : State) : State :=
  let st := s.est e
  if st = eOFF || st = eRETIRED then s
  else if (s.tasksOn e).isEmpty && st != eDRAIN then (State.noDest e (State.setEst e eRETIRED 0 s)).plcAgain
  else if s.dbgEngine = some e then State.modEng e (fun x => { x with retireDue := true }) s
  else (State.noDest e (State.setEst e eDRAIN rRETIRE s)).plcAgain

/-- An engine has failed: its steps are withheld, and it is retired (R13, R37). -/
def State.engineFailed (e : Nat) (s : State) : State := State.retireEngine e (State.withhold e s)

/-- An engine becomes suspect at a verdict, and is drained for a targeted slice, as a drain for another reason goes on to
be; a suspect engine is retired (R194, R195). -/
def State.charge (e : Nat) (s : State) : State :=
  if s.gbit PYR.ESUSP_SUSP 0 e then State.retireEngine e s
  else
    let s1 := (s.pbit PYR.ESUSP_SUSP 0 e true).raise 1 0x73 e
    let s2 := State.modEng e (fun x => { x with suspAt := some s.tbase, targeted := true }) s1
    (if s.est e = eDRAIN && s.g PLC.ESTAT_REASON e != rRETIRE then State.setEst e eDRAIN rSUSPECT s2 else s2).plcAgain

/-! Admission (R163, R173, R174). -/

/-- The mirror of a word by its type (R111). -/
def mirrorWord (isF : Bool) (w : Word) : Word := if isF then w ^^^ 0x80000000 else -w

/-- SRAM places of the parts a layout does not keep local: STATE A, B, MBOX A, B and CONST (R169). -/
def State.sramFor (s : State) (d : Descr) (y : Layout) : Option (Place × Place × Place × Place × Place) :=
  let pair := fun (isLocal : Bool) (n : Nat) (used : List (Nat × Nat)) =>
    if isLocal then some (Place.localMem, Place.localMem, used)
    else
      match bankFit 0 n used with
      | none => none
      | some a =>
        -- the pass-B copy goes to another bank, searched from the next one
        let others := (List.range 16).map fun i => (a / 0x200000 + 1 + i) % 16
        match (others.filter (· != a / 0x200000)).findSome? fun b =>
            fitIn (b * 0x200000) (min ((b + 1) * 0x200000) hostArea) n ((a, n) :: used) with
        | none => none
        | some b => some (Place.sram a, Place.sram b, (b, n) :: (a, n) :: used)
  match pair y.st (2 ^ d.stLog2) s.usedRegions with
  | none => none
  | some (sa, sb, u1) =>
    match pair y.mb (2 ^ d.mbLog2) u1 with
    | none => none
    | some (ma, mb, u2) =>
      if y.cn then some (sa, sb, ma, mb, .localMem)
      else
        match bankFit 0 d.constLen u2 with
        | none => none
        | some c => some (sa, sb, ma, mb, .sram c)

/-- The engine of R174 for a task of port `n`. An engine whose layout has SRAM segments that find no room does not fit, and
engines in DRAIN and TEST count as in service (DESIGN CHOICE, log entry 111). The engine in debug takes no new task
(R205). -/
def State.chooseEngine (s : State) (n : Fin 4) (d : Descr) : Option Nat :=
  let lay := fun e => match layoutFor d (s.roomOn e) with
    | some y => if (s.sramFor d y).isSome then some y else none
    | none => none
  let avoid := fun e => s.gbit PLC.HINT_AVOID n e
  let grp := s.g PLC.HINT_GROUP n
  let act := (s.inState eACTIVE).filter fun e => !s.isDest e && s.dbgEngine != some e
  let round := fun (first : Bool) =>
    let list := if first then act.filter fun e => !avoid e else act
    let g := if grp = 0 then none else
      s.bestFit d (s.arriveOf d) lay (list.filter fun e => (s.tasksOn e).any fun t =>
        s.g PLC.TLOC_PORT t.id == n.val && s.g PLC.TLOC_GROUP t.id == grp)
    match g with
    | some e => some e
    | none =>
      match s.bestFit d (s.arriveOf d) lay list with
      | some e => some e
      | none =>
        let sp := s.inState eSPARE
        if 2 ≤ sp.length then
          (sp.filter fun e => s.dbgEngine != some e && !(first && avoid e) && (lay e).isSome).head?
        else none
  match round true with
  | some e => some e
  | none => round false

/-- The masks of R123 from a free value: a multiple of 16 below the size, with bit 4 and the highest offset bit set. -/
def maskOf (log2 : Nat) (w : Word) : Nat := w.toNat % 2 ^ log2 / 16 * 16 ||| 16 ||| 2 ^ (log2 - 1)

/-- Write words into both copies of a segment, each mirrored by its type in pass B (R124, R163). -/
def State.mboxPut (t off : Nat) (ws : List Word) (s : State) : State :=
  match s.task? t with
  | none => s
  | some x =>
    overL (List.range ws.length) (fun i s =>
      let w := ws.getD i 0
      let a := 4 * (off + i)
      State.segPut t true true (a ^^^ x.maskM) (leBytes 4 (mirrorWord (x.mtype.getD (off + i) false) w).toNat)
        (State.segPut t true false a (leBytes 4 w.toNat) s)) s

/-- Store a task's CONST in SRAM where it is placed there. -/
def State.constStore (t : Task) (s : State) : State :=
  match t.placeC with
  | .sram b => s.sramPut b t.konst
  | .localMem => s

/-- Zero both copies of the segments that live in SRAM (R163). -/
def State.segZero (t : Task) (s : State) : State :=
  let z := fun (p : Place) (n : Nat) (s : State) => match p with
    | .sram b => s.sramPut b (List.replicate n 0)
    | .localMem => s
  z t.placeMB (2 ^ t.d.mbLog2) (z t.placeMA (2 ^ t.d.mbLog2) (z t.placeSB (2 ^ t.d.stLog2) (z t.placeSA (2 ^ t.d.stLog2) s)))

/-- The type map of MBOX: one bit per word, the lower word in the less significant bit (R158; DESIGN CHOICE, log entry
108). -/
def State.typeMap (s : State) (d : Descr) : List Bool :=
  if d.mtypeOff = 0 then []
  else
    (List.range (2 ^ d.mbLog2 / 4)).map fun i => (leNat (s.imageBody (d.mtypeOff + i / 8) 1)).testBit (i % 8)

/-- The task record of a descriptor, before its segments are written. -/
def State.newTask (s : State) (n : Fin 4) (d : Descr) (id e : Nat) (p : Place × Place × Place × Place × Place) : Task where
  id := id
  port := n
  d := d
  eng := Fin.ofNat 16 e
  code := s.imageCode d
  konst := s.imageBody d.constOff d.constLen
  mtype := s.typeMap d
  stA := []
  stB := []
  mbA := []
  mbB := []
  maskS := maskOf d.stLog2 s.free
  maskM := maskOf d.mbLog2 s.used.free
  placeSA := p.1
  placeSB := p.2.1
  placeMA := p.2.2.1
  placeMB := p.2.2.2.1
  placeC := p.2.2.2.2
  stw := 0
  astat := 0
  stepn := 0
  admitted := s.tbase
  lastBoundary := none
  wait := none
  reqs := []
  retire := none
  rejRun := 0
  arrive := s.arriveOf d
  tlmLast := []
  tlmSig := []
  evalDue := []
  lastAccept := none
  timedOut := none
  dbgRan := false
  move := none
  prevFrame := []
  lastValid := []
  posAt := []

/-- The registers of a task ID take their reset values at admission (R408). -/
def State.taskRegs (t : Nat) (s : State) : State :=
  (((s.setWord CTL.TFLT t 0).setWord CTL.TFCD t 0).setWord CTL.TRUN t 0).setWord CTL.TREAS t 0

/-- Admit a checked descriptor (R163, R173, R174): the new task ID, or the code of the first step that fails. -/
def State.admitTask (s : State) (n : Fin 4) (d : Descr) (mailbox : List Word) : Except Code (Nat × State) :=
  match (List.range 256).find? fun t => (s.task? t).isNone with
  | none => .error eNOSPACE
  | some id =>
    let inService := (List.range 16).filter fun e => s.est e != eOFF && s.est e != eRETIRED
    match layoutFor d 114688 with
    | none => .error eNOENGINE
    | some y0 =>
      if inService.length < 2 || !s.accepts [⟨d, y0, s.arriveOf d⟩] then .error eNOENGINE
      else if (s.sramFor d y0).isNone || (s.inState eSPARE).isEmpty then .error eNOSPACE
      else
        match s.chooseEngine n d with
        | none => .error eNOSPACE
        | some e =>
          match layoutFor d (s.roomOn e) with
          | none => .error eNOSPACE
          | some y =>
            match s.sramFor d y with
            | none => .error eNOSPACE
            | some p =>
              let t := s.newTask n d id e p
              let s1 := State.taskRegs id { s.used.used with tasks := s.tasks ++ [t] }
              let s2 := State.mboxPut id 0 mailbox (State.segZero t (State.constStore t s1))
              let s3 := ((((((s2.pb PLC.TLOC_VALID id true).p PLC.TLOC_PORT id n).p PLC.TLOC_ENG id e).p PLC.TLOC_GROUP id
                (s.g PLC.HINT_GROUP n)).pb PLC.TLOC_SSRAM id !y.st).pb PLC.TLOC_MSRAM id !y.mb).pb PLC.TLOC_CSRAM id !y.cn
              let s4 := if d.kind = 1 then s3.p CTL.TRUN_RUNLEFT id d.runs else s3
              let s5 := if s4.est e = eSPARE then State.setEst e eACTIVE 0 s4 else s4
              .ok (id, (State.loadUpdate e s5).plc)

/-! Moves (R177 to R182). -/

/-- Every local STATE and MBOX word matches its pass-B copy by neg_I or neg_F (R180). -/
def State.copiesMatch (s : State) (t : Task) : Bool :=
  let ok := fun (mbox : Bool) (n mask : Nat) =>
    t.place mbox false != .localMem || (List.range (n / 4)).all fun i =>
      let a := BitVec.ofNat 32 (leNat (s.segGet t mbox false (4 * i) 4))
      let b := BitVec.ofNat 32 (leNat (s.segGet t mbox true ((4 * i) ^^^ mask) 4))
      b == mirrorWord false a || b == mirrorWord true a
  ok false (2 ^ t.d.stLog2) t.maskS && ok true (2 ^ t.d.mbLog2) t.maskM

/-- The task has a step on its engine. -/
def State.stepOf (s : State) (t : Task) : Option Step := (s.eng t.eng).steps.find? fun st => st.task == t.id

/-- Commit and release of a move (R177, R180, R181). -/
def State.commitMove (t : Nat) (s : State) : State :=
  match s.task? t with
  | none => s
  | some x =>
    match x.move with
    | none => s
    | some m =>
      if !s.copiesMatch x then
        let s1 := State.loseTask t s
        let s2 := if s1.est x.eng = eDRAIN && s1.g PLC.ESTAT_REASON x.eng = rRETIRE then s1
                  else State.setEst x.eng eDRAIN rRETIRE s1
        s2.plcAgain
      else
        let s1 := s.modTask t fun x => { x with eng := m.dest, move := none }
        let s2 := ((s1.p PLC.TLOC_ENG t m.dest).pb PLC.TLOC_MOVING t false).inc PLC.TLOC_MOVES t
        ((State.loadUpdate m.dest (State.loadUpdate x.eng s2)).raise 18 0x68 t).plc

end Sys2Proof.Machine
end

