-- ==== Sys2Proof/Machine/Operands.lean ====
section
/-! DEFINITION. A pass as an instruction sees it: its registers with their tags and types (R106, R111), the operand
rules of the mirror classes (R108, R112), what a result writes, the signatures (R107, R186, R187), and the faults of
R134. -/

namespace Sys2Proof.Machine

/-! Faults (R134). -/

def cILLOP : Nat := 0x01
def cPRIV : Nat := 0x02
def cCODELIM : Nat := 0x03
def cSEGLIM : Nat := 0x04
def cALIGN : Nat := 0x05
def cKIND : Nat := 0x06
def cWINDOW : Nat := 0x07
def cABSREF : Nat := 0x08
def cMEMUNC : Nat := 0x09
def cBUDGET : Nat := 0x0A
def cLOOPERR : Nat := 0x0B
def cQRANGE : Nat := 0x0C
def cIOLIM : Nat := 0x0D
def cTRAP : Nat := 0x0E
def cSPLIT : Nat := 0x0F

/-- A fault of an instruction: its code, the ERR value, the input-log entry it leaves (R127), and the SRAM bytes it has
read, whose codewords are found uncorrectable with it (R33). Code 0 stands for an instruction that cannot occur (an I/O
entry beyond the task's tables, which the code scan of R162 keeps out). -/
structure Flt where
  code : Nat
  err : Nat
  log : Option LogEntry
  touch : Option (Nat × Nat)
  deriving DecidableEq, Repr

/-- A fault with no ERR value. -/
def flt (c : Nat) : Flt := ⟨c, 0, none, none⟩

/-- An instruction at work: the machine, the engine, the task, its step, and where it goes next if not to the
following instruction: a checked branch target, or a loop body's end. -/
structure Run where
  s : State
  e : Nat
  t : Task
  st : Step
  jump : Option Nat
  goto : Option Nat

/-- What an instruction does. -/
abbrev Op := Run → Except Flt Run

/-- The running pass. -/
def Run.p (r : Run) : Pass := r.st.cur

/-- Replace the running pass. -/
def Run.setP (r : Run) (p : Pass) : Run := { r with st := { r.st with cur := p } }

/-- Stop unless a condition holds. -/
def need (b : Bool) (c : Nat) : Except Flt Unit := if b then .ok () else .error (flt c)

/-! Values (R111). -/

/-- g0: 0 with tag 0 and type I (R106). -/
def GReg.zero : GReg := ⟨0, false, false⟩

/-- The native value of a register (R111). -/
def GReg.native (x : GReg) : Word := if x.tag then mirrorWord x.isF x.raw else x.raw

/-- An immediate or a special: tag 0, with the type of its user (R111). -/
def GReg.imm (isF : Bool) (w : Word) : GReg := ⟨w, false, isF⟩

/-- A register of the pass. -/
def Run.g (r : Run) (i : Fin 32) : GReg := if i.val = 0 then GReg.zero else r.p.g[i]

/-- A register of a group (R137). -/
def Run.gi (r : Run) (i : Nat) : GReg := r.g (Fin.ofNat 32 i)

/-- The native value of a register. -/
def Run.nat (r : Run) (i : Fin 32) : Word := (r.g i).native

/-- The signed native value. -/
def Run.natI (r : Run) (i : Fin 32) : Int := sval (r.nat i)

/-- A source of another type enters as its native value with tag 0 (R112). -/
def GReg.asType (isF : Bool) (x : GReg) : GReg := if x.isF = isF then x else ⟨x.native, false, isF⟩

/-- A source as a signed number with its tag; the flag tells that R108 replaced it. -/
structure Src where
  v : Int
  tag : Bool
  sat : Bool

/-- A Q1.31 source (R108, R112). -/
def GReg.q (x : GReg) : Src :=
  let y := x.asType false
  if y.raw = 0x80000000 then ⟨if y.tag then 2 ^ 31 - 1 else -(2 ^ 31 - 1), y.tag, true⟩ else ⟨sval y.raw, y.tag, false⟩

/-- A Q1.31 source taken as its native value (R139). -/
def GReg.qNative (x : GReg) : Src := (GReg.imm false x.native).q

/-- A source aligned to tag `p` (class L). -/
def Src.align (p : Bool) (x : Src) : Int := if x.tag = p then x.v else -x.v

/-- The SAT flag of replaced sources (R108). -/
def satFlag (l : List Src) : Word := flagIf (l.any (·.sat)) fSAT

/-- An accumulator as a signed number. -/
def AReg.v (x : AReg) : Int := x.raw.toInt

/-- An accumulator aligned to tag `p`: its raw value, negated modulo 2^72 where the tags differ (R111, R112). -/
def AReg.align (p : Bool) (x : AReg) : Int := if x.tag = p then x.raw.toInt else (-x.raw).toInt

/-- The native value of an accumulator (R111). -/
def AReg.native (x : AReg) : BitVec 72 := if x.tag then -x.raw else x.raw

/-! Results and the register-write stream (R107, R187). -/

/-- A 16-byte signature entry (R187). -/
def sigEntry (b0 b1 off v n : Nat) : List Byte :=
  [BitVec.ofNat 8 b0, BitVec.ofNat 8 b1] ++ leBytes 2 off ++ leBytes n v ++ List.replicate (12 - n) 0

/-- Add an entry to the write signature. -/
def Pass.note (idx kind v n : Nat) (p : Pass) : Pass := { p with wsig := crc32Run p.wsig (sigEntry idx kind 0 v n) }

/-- Add an entry to the store signature. -/
def Pass.noteStore (mbox : Bool) (kind off v n : Nat) (p : Pass) : Pass :=
  { p with ssig := crc32Run p.ssig (sigEntry (if mbox then 1 else 0) kind off v n) }

/-- Write a g register; g0 discards the write and adds no entry (R106, R107). -/
def Run.wr (i : Nat) (raw : Word) (tag isF : Bool) (r : Run) : Run :=
  if i = 0 then r
  else
    let x : GReg := ⟨raw, tag, isF⟩
    r.setP ({ r.p with g := upd r.p.g i fun _ => x }.note i (if isF then 1 else 0) x.native.toNat 4)

/-- Write a signed result of type I. -/
def Run.wrI (i : Nat) (v : Int) (tag : Bool) (r : Run) : Run := r.wr i (ofInt v) tag false

/-- Write an accumulator. -/
def Run.wrA (i : Fin 8) (v : Int) (tag : Bool) (r : Run) : Run :=
  let x : AReg := ⟨BitVec.ofInt 72 v, tag⟩
  r.setP ({ r.p with a := r.p.a.set i x }.note (32 + i.val) 2 x.native.toNat 9)

/-- Write STW; an entry is added where its value changes. -/
def Run.putStw (v : Word) (r : Run) : Run :=
  let w := v &&& 0x1F
  if w = r.p.stw then r else r.setP ({ r.p with stw := w }.note 40 3 w.toNat 4)

/-- Set STW flags, after every other result of the instruction. -/
def Run.flag (f : Word) (r : Run) : Run := r.putStw (r.p.stw ||| f)

/-- Add an output to the step's list. -/
def Run.out (x : OutItem) (r : Run) : Run := r.setP { r.p with outs := r.p.outs ++ [x] }

/-- Outputs of the list that a test picks out. -/
def Run.countOuts (r : Run) (f : OutItem → Bool) : Nat := (r.p.outs.filter f).length

/-! Places in the code (R130, R133). -/

/-- A branch target in bytes: the word offset, or CODELIM. -/
def Run.target (r : Run) (byte : Int) : Except Flt Nat :=
  let w := byte.toNat / 4
  if 0 ≤ byte ∧ byte % 4 = 0 ∧ w < r.t.code.length ∧ w ∉ longSeconds false 0 r.t.code then .ok w else .error (flt cCODELIM)

/-- Jump to a byte address of the code segment. -/
def Run.jumpTo (byte : Int) (r : Run) : Except Flt Run := do
  let w ← r.target byte
  return { r with jump := some w }

/-- The byte address of the instruction. -/
def Run.here (r : Run) : Int := 4 * r.p.pc

end Sys2Proof.Machine
end

