-- ==== Sys2Proof/Machine/Float.lean ====
section
/-! DEFINITION. Binary32 arithmetic of R109: round to nearest even, subnormals read and written as +0, no −0, one
NaN. Values are taken apart, computed exactly and rounded once. -/

namespace Sys2Proof.Machine

/-- A binary32 value: NaN, an infinity, or m·2^e with its sign. -/
inductive F32
  | nan
  | inf (neg : Bool)
  | fin (neg : Bool) (m : Nat) (e : Int)
  deriving DecidableEq, Repr

/-- Zero. -/
def F32.zero : F32 := .fin false 0 0

/-- The value of a word; subnormals and both zeros read as +0. -/
def F32.of (w : Word) : F32 :=
  let x := w.toNat
  let neg := x.testBit 31
  let ex := bits x 23 8
  let fr := bits x 0 23
  if ex = 255 then if fr = 0 then .inf neg else .nan
  else if ex = 0 then .zero
  else .fin neg (fr + 2 ^ 23) ((ex : Int) - 150)

/-- The one NaN. -/
def nanWord : Word := 0x7FC00000

/-- An infinity. -/
def infWord (neg : Bool) : Word := if neg then 0xFF800000 else 0x7F800000

/-- Round (−1)^neg · (m + a part below it if `more`)·2^e to binary32, with the OVF flag where it overflows to infinity.
A result below the normal range is +0; whether it lies below is judged after rounding (DESIGN CHOICE, log entry 15). -/
def roundF (neg : Bool) (m : Nat) (e : Int) (more : Bool) : Word × Word :=
  if m = 0 then (0, 0)
  else
    let n := Nat.log2 m + 1
    let q0 := if n ≤ 24 then m * 2 ^ (24 - n) else m / 2 ^ (n - 24)
    let rem := if n ≤ 24 then 0 else m % 2 ^ (n - 24)
    let half := if n ≤ 24 then 1 else 2 ^ (n - 24 - 1)
    let up := decide (half < rem) || (rem == half && (more || q0 % 2 == 1))
    let q1 := if up then q0 + 1 else q0
    let q := if q1 = 2 ^ 24 then 2 ^ 23 else q1
    let ex := e + (n : Int) - 24 + (if q1 = 2 ^ 24 then 1 else 0) + 150
    if 255 ≤ ex then (infWord neg, fOVF)
    else if ex ≤ 0 then (0, 0)
    else (BitVec.ofNat 32 ((if neg then 2 ^ 31 else 0) + ex.toNat * 2 ^ 23 + (q - 2 ^ 23)), 0)

/-- Round an exact integer times 2^e. -/
def roundZ (v : Int) (e : Int) : Word × Word := roundF (decide (v < 0)) v.natAbs e false

/-- The exact sum of two finite values: an integer and its exponent. -/
def addExact (n1 : Bool) (m1 : Nat) (e1 : Int) (n2 : Bool) (m2 : Nat) (e2 : Int) : Int × Int :=
  let e := min e1 e2
  let v1 : Int := m1 * 2 ^ (e1 - e).toNat
  let v2 : Int := m2 * 2 ^ (e2 - e).toNat
  ((if n1 then -v1 else v1) + (if n2 then -v2 else v2), e)

/-- A finite value's exponent does not matter when it is 0. -/
def F32.norm : F32 → F32
  | .fin _ 0 _ => .zero
  | x => x

/-- a + b. -/
def addF (a b : F32) : Word × Word :=
  match a, b with
  | .nan, _ => (nanWord, fNAN)
  | _, .nan => (nanWord, fNAN)
  | .inf x, .inf y => if x = y then (infWord x, 0) else (nanWord, fNAN)
  | .inf x, .fin .. => (infWord x, 0)
  | .fin .., .inf y => (infWord y, 0)
  | .fin n1 m1 e1, .fin n2 m2 e2 =>
    if m1 = 0 then roundF n2 m2 e2 false
    else if m2 = 0 then roundF n1 m1 e1 false
    else roundZ (addExact n1 m1 e1 n2 m2 e2).1 (addExact n1 m1 e1 n2 m2 e2).2

/-- The negation. -/
def negF : F32 → F32
  | .nan => .nan
  | .inf n => .inf !n
  | .fin n m e => .fin (!n) m e

/-- a·b, not yet rounded; none for 0·∞ and NaN. -/
def mulExact (a b : F32) : F32 :=
  match a, b with
  | .nan, _ => .nan
  | _, .nan => .nan
  | .inf x, .inf y => .inf (x != y)
  | .inf x, .fin n m _ => if m = 0 then .nan else .inf (x != n)
  | .fin n m _, .inf y => if m = 0 then .nan else .inf (n != y)
  | .fin n1 m1 e1, .fin n2 m2 e2 => .fin (n1 != n2) (m1 * m2) (e1 + e2)

/-- Round a value. -/
def outF : F32 → Word × Word
  | .nan => (nanWord, fNAN)
  | .inf n => (infWord n, 0)
  | .fin n m e => roundF n m e false

/-- a / b for finite b ≠ 0, or an infinite b. -/
def divF (a b : F32) : Word × Word :=
  match a, b with
  | .nan, _ => (nanWord, fNAN)
  | _, .nan => (nanWord, fNAN)
  | .inf _, .inf _ => (nanWord, fNAN)
  | .inf x, .fin n _ _ => (infWord (x != n), 0)
  | .fin .., .inf _ => (0, 0)
  | .fin n1 m1 e1, .fin n2 m2 e2 =>
    if m2 = 0 then (nanWord, fNAN)
    else
      let q := m1 * 2 ^ 40 / m2
      roundF (n1 != n2) q (e1 - e2 - 40) (m1 * 2 ^ 40 % m2 != 0)

/-- √a. -/
def sqrtF (a : F32) : Word × Word :=
  match a with
  | .nan => (nanWord, fNAN)
  | .inf n => if n then (nanWord, fNAN) else (infWord false, 0)
  | .fin n m e =>
    if m = 0 then (0, 0)
    else if n then (nanWord, fNAN)
    else
      let k : Nat := if e % 2 = 0 then 60 else 61
      let x := m * 2 ^ k
      let r := isqrt x
      roundF false r ((e - (k : Int)) / 2) (r * r != x)

/-- a < b; false with a NaN. -/
def ltF (a b : F32) : Bool :=
  match a, b with
  | .nan, _ => false
  | _, .nan => false
  | .inf x, .inf y => x && !y
  | .inf x, .fin .. => x
  | .fin .., .inf y => !y
  | .fin n1 m1 e1, .fin n2 m2 e2 =>
    if m1 = 0 ∧ m2 = 0 then false
    else if m1 = 0 then !n2
    else if m2 = 0 then n1
    else decide ((addExact n1 m1 e1 (!n2) m2 e2).1 < 0)

/-- a = b; false with a NaN. -/
def eqF (a b : F32) : Bool :=
  match a, b with
  | .nan, _ => false
  | _, .nan => false
  | x, y => !ltF x y && !ltF y x

/-- a·2^k rounded half away from zero to an integer, or truncated; none for NaN and the infinities. -/
def toIntF (k : Int) (trunc : Bool) : F32 → Option Int
  | .fin n m e =>
    let v : Int := if n then -(m : Int) else m
    let x := e + k
    some (if 0 ≤ x then v * 2 ^ x.toNat
          else if trunc then v.tdiv (2 ^ (-x).toNat) else rndDiv v (2 ^ (-x).toNat))
  | _ => none

end Sys2Proof.Machine
end

