-- ==== Sys2Proof/Machine/Gate.lean ====
section
/-! DEFINITION. Gate channels (R240 to R256): carriers, edges, trims, refresh and sharing; switch faults; and the safe
states that follow in time (R257 to R263). Times within a carrier period are in units of 78.125 ps. -/

namespace Sys2Proof.Machine

/-- A channel's on-intervals, in units from an update point: a rise at −`farT` continues an on-pulse, other times before 0
are edges of a refresh, and a fall at `farT` is left to a later update point. -/
abbrev Ons := List (Int × Int)

/-- The waveform of on-intervals. -/
def waveOf (l : Ons) : Wave :=
  ⟨l.any fun x => decide (x.1 ≤ 0 ∧ 0 < x.2),
   l.flatMap fun x => (if 0 < x.1 then [x.1] else []) ++ if 0 < x.2 ∧ x.2 < farT then [x.2] else []⟩

/-- The bridge of a channel. -/
def brOf (n : Nat) : Nat := n / 6

/-- A protection output of source `src` has left its reset level (R61, R277). -/
def State.srcLeft (s : State) (src : Nat) (high : Bool) : Bool :=
  if src < 32 then
    let c := at' s.comp src (Comp.start false)
    if high then c.hi.left else c.lo.left
  else
    let c := at' s.dsm (src - 32) Dsm.init
    if high then c.relHi else c.relLo

/-- The protection sources of a phase (R253). -/
def State.sourcesOf (s : State) (b x : Nat) : List Nat :=
  (List.range 96).filter fun i => s.gb FBRK.OCMAP_EN i && s.g FBRK.OCMAP_BR i == b && s.g FBRK.OCMAP_PH i == x

/-- A protection output is tripped. -/
def State.srcTripped (s : State) (src : Nat) (high : Bool) : Bool :=
  if src < 32 then
    let c := at' s.comp src (Comp.start false)
    if high then c.hi.out else c.lo.out
  else s.gb (if high then DSM.STAT_PHI else DSM.STAT_PLO) (src - 32)

/-- The bridge whose sources guard a channel, and its phase and side (true for high): for an NPC pair the outer
bridge (R253). -/
def State.guardOf (s : State) (n : Nat) : Nat × Nat × Bool :=
  let b := brOf n
  (if s.topo b = 3 then b - 1 else b, n % 6 / 2, n % 2 == 0)

/-- A channel is held off whose source still holds its reset level: a source of its phase and side, or the overvoltage
comparator of its link (R277). -/
def State.guardHeld (s : State) (n : Nat) : Bool :=
  let (b, x, hi) := s.guardOf n
  (s.sourcesOf b x).any (fun i => !s.srcLeft i hi)
    || match s.linkOf b with
      | some l => !s.srcLeft (s.g DCL.CFG_OVCMP l) true
      | none => false

/-- A switch can be on: enabled, its bridge used, not latched, not waiting after a clear, and its pad not latched low
(R240, R255, R262). -/
def State.chanSelf (s : State) (n : Nat) : Bool :=
  s.gb GATE.CH_EN n && s.topo (brOf n) != 0 && !s.latched n && !s.pwr.padLow.getLsbD n
    && !(at' s.chans n Chan.none).waitUpd

/-- A channel can be driven; an outer NPC switch only with its inner partner (R241). -/
def State.chanOk (s : State) (n : Nat) : Bool := s.chanSelf n && (s.topo (brOf n) != 2 || s.chanSelf (n + 6))

/-- A channel follows its commands: while its protection source holds its reset level it is held off, but for the winding
path, which ranks higher (R262, R277). -/
def State.chanFree (s : State) (n : Nat) : Bool :=
  s.chanOk n && (!s.guardHeld n || s.g FBRK.BRST_PAT (s.unitOf (brOf n)) == 6)

/-- The units since channel `n`'s waveform was set. -/
def State.sinceUpd (s : State) (n : Nat) : Int := 64 * ((s.tbase : Int) - ((at' s.chans n Chan.none).upd : Int))

/-- The waveform fell within its first `u` units. -/
def Wave.fellBy (w : Wave) (u : Int) : Bool :=
  match if w.on then w.edges else w.edges.drop 1 with
  | e :: _ => decide (e ≤ u)
  | [] => false

/-- The carrier periods that have ended since the channel's last falling edge, at an update point; `mid` for the centre of
a period (R250). -/
def State.endedPeriods (s : State) (n : Nat) (mid : Bool) : Nat :=
  let c := at' s.chans n Chan.none
  (if c.wave.fellBy (s.sinceUpd n) then 0 else c.periods) + if mid then 0 else 1

/-- What a switch that may not be on does: an inner NPC switch waits for its outer partner (R241). -/
def State.offWave (s : State) (n : Nat) : Wave :=
  if s.padCmd n && s.offLag n != 0 then ⟨true, [(s.offLag n : Int)]⟩ else Wave.low

/-- Start a waveform on a channel, noting its edges for the skip windows (R226), those of a refresh that lie just before the
update point among them (R250). -/
def State.setWave (n : Nat) (l : Ons) (mid : Bool) (s : State) : State :=
  let free := s.chanFree n
  let w := if free then waveOf l else s.offWave n
  let now : Int := 64 * (s.tbase : Int)
  let lvl := s.padCmd n
  let past := if free then (l.flatMap fun x => [x.1, x.2]).filter fun e => decide (-farT < e ∧ e < 0) else []
  let times := past ++ (if past.isEmpty && lvl != w.on then [0] else []) ++ w.edges
  let periods := if lvl && !w.on || !past.isEmpty then 0 else s.endedPeriods n mid
  { s with
    chans := upd s.chans n fun c => { c with wave := w, upd := s.tbase, periods := periods }
    edges := (s.edges.filter fun e => e.1 != n || decide ((e.2 : Int) ≤ now)) ++ times.map fun t => (n, (now + t).toNat) }

/-- What the edges of one complementary pair depend on. -/
structure PairCfg where
  p64 : Int
  /-- The centre of the on-pulse after the update point. -/
  centre : Int
  /-- The update point is itself the centre: the rising edge came at the update before (R244). -/
  atCentre : Bool
  drH : Int
  drL : Int
  tH : Int
  tL : Int
  minp : Int
  hNow : Bool
  lNow : Bool
  /-- When each switch is on at the earliest: it is on, or its dead time runs from an edge before, or from now (R245). -/
  hStart : Int
  lStart : Int
  /-- The units since the latest edge of each switch, no more than half a period. -/
  hSince : Int
  lSince : Int

/-- The on-intervals of a pair whose pulse is centred after the update point, for n units of on-time of its first switch
(R244 to R247): the edges are trimmed, rising ones wait for the dead time and for the partner's fall, pulses that are too
short do not come, and gaps that are too short are filled. The pulse or gap that a later command completes is judged as if
that command repeated this one (DESIGN CHOICE, log entry 116). -/
def pairRise (c : PairCfg) (n : Int) : Ons × Ons :=
  let r0 := c.centre - n / 2
  let f0 := c.centre + (n + 1) / 2
  let fl := max 0 (r0 - c.tL)
  let rh := max (r0 + c.tH + c.drH) (fl + c.drH)
  let fh := f0 - c.tH
  let rl := max (f0 + c.tL + c.drL) (fh + c.drL)
  let h : Ons := if fh - rh < c.minp then [] else if c.p64 - (fh - rh) < c.minp then [(if c.hNow then -farT else rh, farT)] else [(rh, fh)]
  let low : Ons := if !c.lNow && fl - c.lStart < c.minp then [] else [(c.lStart, fl)]
  let l : Ons :=
    if c.p64 - (rl - fl) < c.minp then (if c.lNow then [(-farT, fl)] else [])
    else if rl - fl < c.minp then [(c.lStart, farT)]
    else low ++ [(rl, farT)]
  (h, l)

/-- The on-intervals of a pair at the centre of its pulse, where the command loaded there moves the falling edge (R244). A
pulse that has not begun comes only if it is long enough still. -/
def pairFall (c : PairCfg) (n : Int) : Ons × Ons :=
  let fh := c.centre + (n + 1) / 2 - c.tH
  let long := c.hNow || decide (c.minp ≤ fh - c.hStart && c.hStart < fh)
  let hOn := fh + if c.hNow then c.hSince else -c.hStart
  let rl := max (c.centre + (n + 1) / 2 + c.tL + c.drL) (if long then fh + c.drL else 0)
  let gap := rl + if c.lNow then 0 else c.lSince
  if long && decide (c.p64 - hOn < c.minp) then ([(c.hStart, farT)], [])
  else
    (if long then [(c.hStart, fh)] else [],
     if c.lNow && !long && decide (gap < c.minp) then [(-farT, farT)] else if c.p64 - gap < c.minp then [] else [(rl, farT)])

/-- The on-intervals of a complementary pair for n units of on-time of its first switch (R244 to R247). -/
def pairOns (c : PairCfg) (n : Int) : Ons × Ons :=
  if n ≤ 0 then ([], [(c.lStart, farT)])
  else if c.p64 ≤ n then ([(c.hStart, farT)], [])
  else if c.atCentre then pairFall c n
  else pairRise c n

/-- The effective trim of a switch (R247). -/
def State.trim (s : State) (n : Nat) : Int := clampI (-255) 255 (s.gs GATE.TRIM_TASK n + s.gs GATE.TRIM_AUTO n)

/-- When switch `n` is on at the earliest, if commanded on: it is on, a rise of its own is due while its partner `m` is
off, or its dead time runs from now (R245). -/
def State.startOf (s : State) (n m : Nat) : Int :=
  if s.padCmd n then -farT
  else if s.padCmd m then s.g GATE.CH_DEADRISE n
  else
    match (at' s.chans n Chan.none).wave.edges.find? fun e => decide (s.sinceUpd n < e) with
    | some e => e - s.sinceUpd n
    | none => s.g GATE.CH_DEADRISE n

/-- The settings of the pair (h, l) at an update point of unit `u`: with an odd PERIOD the peak lies half a tick after its
update point (R243). -/
def State.pairCfg (s : State) (u h l : Nat) (peak both : Bool) : PairCfg :=
  let per : Int := s.g GATE.CAR_PERIOD u
  let half := if peak then 32 * (per % 2) else 0
  { p64 := 64 * per
    centre := half + if both && peak then 0 else 32 * per
    atCentre := both && peak
    drH := s.g GATE.CH_DEADRISE h
    drL := s.g GATE.CH_DEADRISE l
    tH := s.trim h
    tL := s.trim l
    minp := 64 * s.g GATE.BRCFG_MINPULSE (brOf h)
    hNow := s.padCmd h
    lNow := s.padCmd l
    hStart := s.startOf h l
    lStart := s.startOf l h
    hSince := min (32 * per) (s.sinceEdge h)
    lSince := min (32 * per) (s.sinceEdge l) }

/-- Units of on-time of a two-level leg (R150). -/
def legUnits (p64 : Int) (u : Word) : Int := rndDiv ((2 ^ 31 + sval u) * p64) (2 ^ 32)

/-- Units of on-time of an NPC leg's outer switch (R241). -/
def npcUnits (p64 : Int) (u : Word) : Int := rndDiv (absI (sval u) * p64) (2 ^ 31)

/-- A refresh is due on high-side channel `h` with intervals `hi` and complement `l` (R250). -/
def State.refreshDue (s : State) (u h l : Nat) (mid : Bool) (hi : Ons) : Bool :=
  let bsn := s.g GATE.BRCFG_BSN u
  !mid && bsn != 0 && decide (bsn ≤ s.endedPeriods h false + 1) && !s.latched l && (waveOf hi).on && !(waveOf hi).falls

/-- The intervals of a pair with a refresh of `h` where it is due (R250): the high side is off around the update point, and
the complement on inside that gap for BSPULSE. -/
def State.refresh (s : State) (u h l : Nat) (mid : Bool) (x : Ons × Ons) : Ons × Ons :=
  if s.refreshDue u h l mid x.1 then
    let dL : Int := s.g GATE.CH_DEADRISE l
    let bp : Int := 128 * s.g GATE.CPH_BSPULSE u
    let total := s.g GATE.CH_DEADRISE h + dL + bp
    let r := -(total / 2)
    ([(-farT, r), (r + total, farT)], (r + dL, r + dL + bp) :: x.2)
  else x

/-- Set a complementary pair. -/
def State.setPair (h l : Nat) (mid : Bool) (x : Ons × Ons) (s : State) : State :=
  State.setWave l x.2 mid (State.setWave h x.1 mid s)

/-- An outer switch is on only while its inner partner is, rising `d` after it and falling `d` before it (R241). -/
def insideOf (d : Int) (inner outer : Ons) : Ons :=
  outer.flatMap fun x => inner.filterMap fun y =>
    let r := if y.1 = -farT then x.1 else max x.1 (y.1 + d)
    let f := if farT ≤ y.2 then x.2 else min x.2 (y.2 - d)
    if r < f then some (r, f) else none

/-- An inner switch that is on stays on for `lag` at least (R241). -/
def holdFor (lag : Int) (inner : Ons) : Ons :=
  let t := inner.foldl (fun m y => if y.1 ≤ m then max m y.2 else m) lag
  (-farT, t) :: inner.filter fun y => decide (t < y.1)

/-- A switch rises no earlier than `t`, unless it is on. -/
def riseAfter (t : Int) (l : Ons) : Ons :=
  l.filterMap fun x => if x.1 = -farT then some x else if max x.1 t < x.2 then some (max x.1 t, x.2) else none

/-- The on-intervals of an NPC phase while outer switch `o` works with complement `c` and its inner partner `a` is on
throughout (R241): `q` is the other outer switch, off, whose partner is `c`. The answer is for `o`, `c` and `a`. -/
def State.npcSide (s : State) (u o c a q : Nat) (n : PairCfg → Int) (peak both : Bool) : Ons × Ons × Ons :=
  let mid := both && peak
  let d : Int := s.npcDly u
  let cfg := s.pairCfg u o c peak both
  let p := pairOns cfg (n cfg)
  let p := if o % 2 = 0 then s.refresh u o c mid p else p
  let lag := if s.padCmd q then d else (s.offLag c : Int)
  let held := s.padCmd c && decide (0 < lag)
  (if held then riseAfter (lag + s.g GATE.CH_DEADRISE o) p.1 else p.1, if held then holdFor lag p.2 else p.2, [(s.startOf a q, farT)])

/-- The on-intervals of the phase's switches S1, S4, S2, S3 for a leg command (R241). -/
def State.npcOns (s : State) (u x : Nat) (cmd : Word) (peak both : Bool) : Ons × Ons × Ons × Ons :=
  let s1 := 6 * u + 2 * x
  let s4 := s1 + 1
  let s2 := s1 + 6
  let s3 := s1 + 7
  let mid := both && peak
  let d : Int := s.npcDly u
  let v := sval cmd
  let (a, d4, b, c) :=
    if v = 0 then ([], [], [(s.startOf s2 s4, farT)], [(s.startOf s3 s1, farT)])
    else if 0 < v then
      let (o, c, i) := s.npcSide u s1 s3 s2 s4 (fun k => npcUnits k.p64 cmd) peak both
      (o, [], i, c)
    else
      let (o, c, i) := s.npcSide u s4 s2 s3 s1 (fun k => npcUnits k.p64 cmd) peak both
      ([], o, c, i)
  let (b, d4) := s.refresh u s2 s4 mid (b, d4)
  (insideOf d b a, insideOf d c d4, b, c)

/-- The mode lets a unit's pads go high (R45). -/
def State.gateMode (s : State) (u : Nat) : Bool :=
  s.mode == mRUN || (s.mode == mCONFIGURE && s.gb SYS.MODE_BENCH
    && match s.linkOf u with
      | some l => s.below60 l
      | none => false)

/-- The unit is held off because a bridge of it is in the OUT table of a task on the debug engine while DBGDIV is set
(R207). -/
def State.dbgHeld (s : State) (u : Nat) : Bool :=
  s.gb PYR.STAT_DBGDIV
  && s.tasks.any (fun t => t.eng.val == s.g PYR.DBGCTL_ENG && t.d.driven.any fun b => s.unitOf b == u)
  && !(s.gb SYS.MODE_BENCH && match s.linkOf u with
      | some l => s.below60 l
      | none => false)

/-- A RUN to READY request is being carried out (R41). -/
def State.toReady (s : State) : Bool := s.ports.any fun p => match p.busy with
  | some (_, .runToReady) => true
  | _ => false

/-- An axis of the unit is in a state marked held off (R213). -/
def State.axisHeld (s : State) (u : Nat) : Bool := (s.axesOf u).any fun n => s.g CTL.AXST_STATE n ∈ [1, 2]

/-- The unit follows its task's commands (rank 5 of R262). -/
def State.unitNormal (s : State) (u : Nat) : Bool :=
  !s.forcedSto u && !s.dbgHeld u && !s.demanded u && s.g FBRK.BRST_PAT u != 6 && s.gateMode u && !s.axisHeld u && !s.toReady

/-- The task that drives unit `u`. -/
def State.driver (s : State) (u : Nat) : Option Task := s.tasks.find? fun t => t.d.driven.any fun b => s.unitOf b == u

/-- The automatic trim of one phase of follower `m` (R248). -/
def State.share (m x : Nat) (s : State) : State :=
  let prot := fun (n : Nat) => (at' s.dsm (n % 64) Dsm.init).prot
  let e := absI (prot (s.g GATE.SHARE_MSRC m + x)) - absI (prot (s.g GATE.SHARE_FSRC m + x))
  let step := absI e * 2 ^ (8 - s.g GATE.SHARE_KSH m) / 2 ^ 31
  overL [6 * m + 2 * x, 6 * m + 2 * x + 1] (fun n s =>
    s.p GATE.TRIM_AUTO n (codeOf 9 (clampI (-255) 255 (s.gs GATE.TRIM_AUTO n - sgnI e * step)))) s

/-- Sharing of unit `u` at an update point: frozen while a switch of the unit is latched (R248). -/
def State.shareUnit (u : Nat) (s : State) : State :=
  if (s.unitChans u).any s.latched then s
  else overL (s.members u) (fun m s =>
    if s.topo m = 4 && s.gb GATE.SHARE_EN m then overL [0, 1, 2] (State.share m) s else s) s

/-- The on-intervals of a waveform that only falls. -/
def waveBack (w : Wave) : Ons := if w.on then [(-farT, w.edges.headD farT)] else []

/-- Drive one phase of unit `u` by its loaded command (R241, R244). -/
def State.drivePhase (u x : Nat) (peak both : Bool) (s : State) : State :=
  match (at' s.legs (3 * u + x) ⟨.off, .off⟩).loaded with
  | .off =>
    overL ((s.members u).flatMap fun b => [6 * b + 2 * x, 6 * b + 2 * x + 1])
      (fun n s => State.setWave n (waveBack (s.offWave n)) (both && peak) s) s
  | .drive cmd =>
    if s.topo u = 2 then
      let (a, d, b, c) := s.npcOns u x cmd peak both
      let n1 := 6 * u + 2 * x
      -- the complementary pairs are (S1, S3) and (S2, S4)
      State.setPair (n1 + 6) (n1 + 1) (both && peak) (b, d) (State.setPair n1 (n1 + 7) (both && peak) (a, c) s)
    else
      overL (s.members u) (fun b s =>
        let h := 6 * b + 2 * x
        let c := s.pairCfg u h (h + 1) peak both
        State.setPair h (h + 1) (both && peak) (s.refresh u h (h + 1) (both && peak) (pairOns c (legUnits c.p64 cmd))) s) s

/-- Every loaded command of unit `u` is PWMOFF. -/
def State.pwmOff (s : State) (u : Nat) : Bool := [0, 1, 2].all fun x => (at' s.legs (3 * u + x) ⟨.off, .off⟩).loaded == .off

/-- The bridge a winding path of unit `u` runs on (R268): WBR, or the outer bridge of an NPC pair. -/
def State.windBr (s : State) (u : Nat) : Nat :=
  if s.topo u = 2 then u
  else
    match (List.range 4).find? fun l => s.gb DCL.STAT_WIND l && s.unitOf (s.g DCL.DSC_WBR l) == u with
    | some l => s.g DCL.DSC_WBR l
    | none => u

/-- The pulse of the winding path at a carrier valley (R268): U's high side, or S1 of U in an NPC unit, from its own
dead time to half the carrier period. -/
def State.windPulse (u : Nat) (s : State) : State :=
  let h := 6 * s.windBr u
  State.setWave h [((s.g GATE.CH_DEADRISE h : Int), 32 * (s.g GATE.CAR_PERIOD u : Int))] false s

/-- The winding path must stop: the speed is too high, or the mode is not RUN (R268). -/
def State.windMustStop (s : State) (u : Nat) : Bool :=
  s.mode != mRUN || (List.range 4).any (fun l => s.gb DCL.STAT_WIND l && s.unitOf (s.g DCL.DSC_WBR l) == u
    && match s.choiceSpeed u with
      | none => false
      | some v => decide ((s.g DCL.DSC_WSPD l : Int) * 2 ^ 19 ≤ absI v))

/-- A unit that may not follow its task's commands: under a debug hold its pads are low in every pattern, and without a
demand its pattern is OFF (R262). -/
def State.unitHold (u : Nat) (s : State) : State :=
  if s.demanded u || s.forcedSto u then (if s.dbgHeld u then s.unitOff u else s)
  else State.setPat u 1 (s.unitOff u)

/-- RUN to READY (R41): every switch of the unit goes off at its boundary. A demand's pattern becomes STO, through the
steps of R259: outside RUN and SAFE no ASC is driven (R45, R258). -/
def State.unitReady (u : Nat) (s : State) : State :=
  let s0 := State.windStop u s
  let s1 := if 3 ≤ s0.g FBRK.BRST_PAT u then State.takePattern u (s0.g FBRK.BRST_CAUSE u) (2, s0.gb FBRK.BRST_SPDUNK u, false) s0
    else State.unitHold u s0
  { s1 with units := upd s1.units u fun x => { x with stopped := true } }

/-- The winding path of unit `u` at a carrier extreme (R268): it stops, or pulses at the valley. -/
def State.windUpdate (u : Nat) (peak : Bool) (s : State) : State :=
  if s.g FBRK.BRST_PAT u ≠ 6 then s
  else if s.windMustStop u then State.windStop u s
  else if peak then s
  else State.windPulse u s

/-- The commands of unit `u` load, and what waits for its update point waits no more. -/
def State.loadUnit (u : Nat) (s : State) : State :=
  { s with
    units := upd s.units u fun x => { x with waitUpd := false }
    chans := (s.unitChans u).foldl (fun v n => upd v n fun c => { c with waitUpd := false }) s.chans
    legs := [0, 1, 2].foldl (fun v x => upd v (3 * u + x) fun l => { l with loaded := l.shadow }) s.legs
    edges := s.edges.filter fun e => decide (64 * s.tbase < e.2 + 2 ^ 28) }

/-- CARRIER_UPDATE_POINT (R244): the shadow commands of the unit load at the update points of its task's period source,
a unit that has waited follows again, and its pads take what R262 gives them. A unit whose commands are all PWMOFF shows
OFF. -/
def State.updatePoint (u : Nat) (peak : Bool) (s : State) : State :=
  if !s.up || !s.isUnit u then s
  else
    let mode := match s.driver u with
      | some t => t.d.upd
      | none => 0
    let both := mode == 2
    let due := both || peak == (mode == 1)
    let s1 := State.windUpdate u peak (if due then State.loadUnit u s else s)
    if !due then s1
    else if s1.toReady then State.unitReady u s1
    else if s1.unitNormal u then
      overL [0, 1, 2] (fun x s => State.drivePhase u x peak both s)
        (State.setPat u (if s1.pwmOff u then 1 else 0) (if s1.driver u = none then s1 else State.shareUnit u s1))
    else if s1.g FBRK.BRST_PAT u = 6 then s1
    else State.unitHold u s1

/-! Switch faults. -/

/-- The class field of a switch. -/
def State.swClass (s : State) (n : Nat) : Nat := bits (s.word GATE.SWCLS (n / 8)).toNat (4 * (n % 8)) 4

/-- Write the class of a switch. -/
def State.putClass (n c : Nat) (s : State) : State :=
  s.setWord GATE.SWCLS (n / 8) (BitVec.ofNat 32 (setBits (s.word GATE.SWCLS (n / 8)).toNat (4 * (n % 8)) 4 c))

/-- Set or clear a latch bit. -/
def State.putLatch (n : Nat) (b : Bool) (s : State) : State :=
  if n < 32 then s.pbit GATE.SWFLT0_FLT 0 n b else s.pbit GATE.SWFLT1_FLT 0 (n - 32) b

/-- The leg a channel counts for in R256: a pair of channels, or the phase of an NPC unit. -/
def State.escLeg (s : State) (n : Nat) : Nat :=
  if s.topo (s.unitOf (brOf n)) = 2 then n % 6 / 2 else n / 2

/-- Two legs of a unit have latched faults within 400 ticks: escalation (R256). -/
def State.escalate (n : Nat) (s : State) : State :=
  let u := s.unitOf (brOf n)
  let near := (s.unitChans u).any fun m => s.latched m && s.escLeg m != s.escLeg n
    && match (at' s.chans m Chan.none).fltAt with
      | some a => decide (s.tbase ≤ a + 400)
      | none => false
  if near && !(s.demanded u && s.g FBRK.BRST_CAUSE u == 1) then (State.demand (brOf n) 1 false s).raise 1 0x91 u else s

/-- The active ASC pattern has lost a switch: the next usable one follows, or STO with BRKARM (R260). -/
def State.rechooseAt (n : Nat) (s : State) : State :=
  let u := s.unitOf (brOf n)
  let pat := s.g FBRK.BRST_PAT u
  if s.demanded u && !s.forcedSto u && decide (3 ≤ pat ∧ pat ≤ 5) && (s.ascOn u pat).contains n then
    match (s.ascOrder u).find? (s.ascUsable u) with
    | some p => State.takePattern u 8 (p, s.gb FBRK.BRST_SPDUNK u, false) s
    | none => State.takePattern u 8 (2, s.gb FBRK.BRST_SPDUNK u, true) s
  else s

/-- Latch a fault on SWn with a class (R252, R253): it goes off `lag` units from now. -/
def State.latchFault (n cls lag : Nat) (s : State) : State :=
  let s1 := (State.putClass n cls (State.putLatch n true s)).raise 1 0x90 n
  let s2 := { s1 with chans := upd s1.chans n fun c => { c with fltAt := some s.tbase } }
  let u := s.unitOf (brOf n)
  let s3 := if s2.g FBRK.BRST_PAT u = 6 then State.windStop u s2 else s2
  State.escalate n (State.rechooseAt n (State.padLater n false lag s3))

/-- GFLT_FAULT (R252): a fault on a switch in use; an inner NPC switch takes its outer partner off with it (R254). -/
def State.gflt (n : Nat) (s : State) : State :=
  if !s.up || !s.gb GATE.CH_EN n || s.topo (brOf n) = 0 then s
  else
    let s1 := { s with chans := upd s.chans n fun c => { c with gflt := true } }
    if s1.latched n then s1
    else
      let s2 := State.latchFault n (if s1.gb GATE.CH_FLTCODE n then 1 else 2) 0 s1
      if s2.topo (brOf n) = 3 then State.forcePad (n - 6) false s2 else s2

/-- GFLT_FAULT (R252). -/
def execGfltFault (n : Fin 48) (s : State) : Out := .next (State.gflt n s)

/-- GFLT_CLASSIFY (R252): the assertion has ended after `held` ticks, or with 800 has reached 4 µs and goes on (log
entry 19). A PENDING class is written. -/
def execGfltClassify (n : Fin 48) (held : Nat) (s : State) : Out :=
  if !(at' s.chans n.val Chan.none).gflt then .next s
  else
    let s1 := if s.swClass n = 1 then
        State.putClass n (if 800 ≤ held then 2 else if 200 ≤ held ∧ held ≤ 400 then 3 else 4) s
      else s
    .next { s1 with chans := upd s1.chans n.val fun c => { c with gflt := held == 800 } }

/-- The channels a source's side guards: the outer or only switch, and its NPC inner partner (R253). -/
def State.sideChans (s : State) (b x : Nat) (high : Bool) : Nat × Option Nat :=
  if high then (6 * b + 2 * x, if s.topo b = 2 then some (6 * b + 6 + 2 * x) else none)
  else (6 * b + 2 * x + 1, if s.topo b = 2 then some (6 * b + 7 + 2 * x) else none)

/-- A tripped source of bridge `b`, phase `x` latches the switches of its side (R253, R254): in an NPC unit the inner one
goes off NPCDLY after the outer. In the winding path a TRIP of phase U only ends the pulse (R268). -/
def State.sideTrip (b x : Nat) (high hard : Bool) (s : State) : State :=
  let (o, i) := s.sideChans b x high
  if s.topo b = 0 || s.topo b = 3 then s
  else if s.g FBRK.BRST_PAT b = 6 && !hard && x == 0 && s.windBr (s.unitOf b) == b then State.forcePad (6 * b) false s
  else
    let cls := if hard then 6 else 5
    let s1 := if s.latched o then s else State.latchFault o cls 0 s
    match i with
    | none => s1
    | some m => if s1.latched m then s1 else State.latchFault m cls (s1.npcDly b) s1

/-! Safe states in time. -/

/-- How long after its inner partner an outer NPC switch turns on (R241, R259). -/
def State.onLag (s : State) (n : Nat) : Nat := if s.topo (brOf n) = 2 then s.npcDly (brOf n) else 0

/-- ASC_TURN_ON (R259): the switches of the chosen pattern turn on, inner before outer. -/
def State.ascTurnOn (u : Nat) (s : State) : State :=
  match (at' s.units u UnitSt.none).ascAt with
  | none => s
  | some (_, pat) =>
    let s1 := { s with units := upd s.units u fun x => { x with ascAt := none } }
    if s.demanded u && !s.forcedSto u && !s.dbgHeld u && (s.mode == mRUN || s.mode == mSAFE) then
      overL (s.ascOn u pat.toNat) (fun n s => if s.chanOk n then State.padLater n true (s.onLag n) s else s) s1
    else s1

/-- ASC_TURN_ON (R259). -/
def execAscTurnOn (k : Fin 8) (s : State) : Out := .next (State.ascTurnOn k s)

/-- SAFE_STATE_RECHOOSE (R260): ASC and STO change places by the speed and its hysteresis. An unknown speed changes
nothing (DEDUCED, log entry 20). -/
def State.rechoose (u : Nat) (s : State) : State :=
  if !s.isUnit u || !s.demanded u || s.forcedSto u || s.gb FBRK.BRST_BRKARM u || s.g FBRK.BRSS_MODE u == 1
    || !(s.mode == mRUN || s.mode == mSAFE) then s
  else
    let pat := s.g FBRK.BRST_PAT u
    let xo : Int := s.g FBRK.BRXO_XOVER u
    let hy : Int := s.g FBRK.BRXO_XHYS u
    match s.choiceSpeed u with
    | none => s
    | some v =>
      if decide (3 ≤ pat ∧ pat ≤ 5) && decide (absI v < (xo - hy) * 65536) then State.takePattern u 8 (2, false, false) s
      else if pat = 2 && decide ((xo + hy) * 65536 ≤ absI v) then
        match (s.ascOrder u).find? (s.ascUsable u) with
        | some p => State.takePattern u 8 (p, false, false) s
        | none => s
      else s

/-- SAFE_STATE_RECHOOSE (R260). -/
def execSafeStateRechoose (k : Fin 8) (s : State) : Out := .next (State.rechoose k s)

/-! What the register writes of this chapter check and do. -/

/-- A TRIP or HARD source of the switch's phase and side is tripped (R255). -/
def State.sideTripped (s : State) (n : Nat) : Bool :=
  let (b, x, hi) := s.guardOf n
  (s.sourcesOf b x).any fun i => s.srcTripped i hi

/-- The answer to a W1C of switch latches by port `n` (R255). -/
def State.swClearCode (s : State) (n : Fin 4) (sw : List Nat) : Code :=
  firstCode [
    (sw.any fun i => !s.owns n (brOf i), eOWNER),
    (sw.any fun i => (at' s.chans i Chan.none).gflt || s.sideTripped i || s.swClass i == 1, eSAFETY)]

/-- Clear switch latches: they follow their commands from the next update point (R255). -/
def State.swClear (sw : List Nat) (s : State) : State :=
  overL sw (fun i s =>
    if s.latched i then
      let s1 := State.putClass i 0 (State.putLatch i false s)
      { s1 with chans := upd s1.chans i fun c => { c with waitUpd := true, fltAt := none } }
    else s) s

/-- STO_A or STO_B demands (R334). -/
def State.stoDemand (s : State) : Bool := s.gb SAFE.STAT_STOA || s.gb SAFE.STAT_STOB

/-- The answer to a release of demands by port `n` (R263). -/
def State.releaseCode (s : State) (n : Fin 4) (ks : List Nat) : Code :=
  firstCode [
    (ks.any fun k => !s.owns n k, eOWNER),
    (ks.any fun k => s.topo k == 3 || s.topo k == 4, eRANGE),
    (ks.any fun k => s.demanded k && (decide (3 ≤ s.g FBRK.BRST_PAT k) || (s.unitChans k).any s.latched || s.stoDemand
      || match s.linkOf k with
        | some l => s.gb DCL.STAT_OVTRIP l
        | none => false), eSAFETY)]

end Sys2Proof.Machine
end

