-- ==== Sys2Proof/Machine/DcLink.lean ====
section
/-! DEFINITION. DC links (R264 to R269): the brake chopper, the overvoltage trip, discharge and its winding path. -/

namespace Sys2Proof.Machine

/-- The entry of link `l`. -/
def State.link (s : State) (l : Nat) : Link := at' s.links l Link.none

/-- Change the entry of link `l`. -/
def State.modLink (l : Nat) (f : Link → Link) (s : State) : State := { s with links := upd s.links l f }

/-- The chopper of link `l` is to be on: the mode may refuse it (R45). -/
def State.chopOn (l : Nat) (s : State) : State :=
  if s.brkAllowed then State.modLink l (fun x => { x with chopOn := true }) s
  else State.refuse (0x10 + l) (State.modLink l (fun x => { x with chopOn := false }) s)

/-- The chopper of link `l` is off. -/
def State.chopOff (l : Nat) (s : State) : State := State.modLink l (fun x => { x with chopOn := false }) s

/-- An overvoltage trip of link `l` (R266). One whose BRK is already forced is no new trip. -/
def State.ovTrip (l : Nat) (s : State) : State :=
  if !s.up || !s.gb DCL.CFG_EN l || (s.link l).ovForced then s
  else
    let s1 := State.modLink l (fun x => { x with ovForced := true }) s
    let s2 := if s1.brkAllowed then s1 else State.refuse (0x10 + l) s1
    let s3 := overL ((List.range 8).filter fun k => s.gbit DCL.CFG_BRMASK l k && s.isUnit (s.unitOf k))
      (fun k s => State.demand k 5 false s) s2
    (s3.pb DCL.STAT_OVTRIP l true).raise 1 0x93 l

/-- The winding path of link `l` stops, where it runs (R268). -/
def State.linkWindStop (l : Nat) (s : State) : State :=
  if s.gb DCL.STAT_WIND l then State.windStop (s.unitOf (s.g DCL.DSC_WBR l)) s else s

/-- The hysteretic chopper on a sample (R265); an armed chopper works so whatever its mode (R258). -/
def State.hyst (l : Nat) (s : State) : State :=
  if s.g DCL.BRK_MODE l = 1 || (s.link l).armed then
    if (s.g DCL.VTH_VON l : Int) ≤ s.vdc16 l then State.chopOn l s
    else if s.vdc16 l ≤ s.g DCL.VTH_VOFF l then State.chopOff l s
    else s
  else if s.g DCL.BRK_MODE l = 0 then State.chopOff l s
  else s

/-- The discharge of link `l` watches VSAFE (R267), and its winding path ends there (R268). -/
def State.watchSafe (l : Nat) (s : State) : State :=
  let low := decide (s.vdc16 l ≤ s.g DCL.OV_VSAFE l)
  let s1 := State.modLink l (fun x => { x with dsc := x.dsc.map fun d =>
      { d with belowSince := if low then some (d.belowSince.getD s.tbase) else none } }) s
  if low then State.linkWindStop l s1 else s1

/-- The gates that bench mode lets go high on link `l` fall as soon as it no longer measures below 60 V (R45, R207, R437). -/
def State.benchCheck (l : Nat) (s : State) : State :=
  if s.mode = mCONFIGURE then
    overL (s.allUnits.filter fun u => (s.linkOf u).any (·.val == l) && (!s.gateMode u || s.dbgHeld u)) State.unitHold s
  else s

/-- A new VDC sample of link `l`: its Q1.31 code, and whether it is valid (R265 to R268). -/
def State.dcLinkSample (l : Nat) (x : Int) (valid : Bool) (s : State) : State :=
  if !s.up then s
  else
    let s1 := State.benchCheck l (State.modLink l (fun y => { y with vdc := ofInt (sat31 x), valid := valid, stamp := s.tbase }) s)
    if !valid || !s.gb DCL.CFG_EN l then s1
    else
      let s2 := if s1.vdc16 l ≤ s.g DCL.VTH_VOFF l then State.modLink l (fun y => { y with ovForced := false }) s1 else s1
      let s3 := if (s.g DCL.OV_VOV l : Int) ≤ s2.vdc16 l then State.ovTrip l s2 else s2
      State.watchSafe l (State.hyst l s3)

/-- DC_LINK_SAMPLE (R265). -/
def execDcLinkSample (l : Fin 4) (x : Int) (valid : Bool) (s : State) : Out := .next (State.dcLinkSample l x valid s)

/-- Link `l` has its chopper in PEAK mode (R265). -/
def State.peakMode (s : State) (l : Nat) : Bool :=
  s.up && s.gb DCL.CFG_EN l && s.g DCL.BRK_MODE l == 2 && !(s.link l).armed

/-- The peak-current code of a period (R265). -/
def State.peakCode (s : State) (l : Nat) : Int :=
  min (s.g DCL.BCUR_IBMAX l : Int)
    (s.g DCL.BCUR_IB0 l + (s.vdc16 l - s.g DCL.VTH_VON l) * s.g DCL.BRK_KB l / 256)

/-- A PEAK period of link `l` begins (R265). -/
def State.chopperPeriod (l : Nat) (s : State) : State :=
  if !s.peakMode l then s
  else
    let on := decide ((s.g DCL.VTH_VON l : Int) ≤ s.vdc16 l)
      || ((s.link l).began && decide ((s.g DCL.VTH_VOFF l : Int) < s.vdc16 l))
    let ipk := s.peakCode l
    let s1 := State.modLink l (fun x => { x with period := some s.tbase, ipk := ipk, dac := max 0 ipk, began := on }) s
    if on then State.chopOn l s1 else State.chopOff l s1

/-- CHOPPER_PERIOD_START (R265). -/
def execChopperPeriodStart (l : Fin 4) (s : State) : Out := .next (State.chopperPeriod l s)

/-- CHOPPER_CURRENT_TRIP (R265): not a fault. -/
def execChopperCurrentTrip (l : Fin 4) (s : State) : Out :=
  .next (if s.peakMode l.val then State.chopOff l.val s else s)

/-- CHOPPER_PERIOD_LIMIT (R265). -/
def execChopperPeriodLimit (l : Fin 4) (s : State) : Out :=
  .next (if s.peakMode l.val then State.chopOff l.val s else s)

/-- The slope-compensated DAC code (R289). -/
def State.rampCode (s : State) (l : Nat) (start : Nat) : Int :=
  max 0 ((s.link l).ipk - ((s.g CMP.RAMP_SLOPE l * ((s.tbase - start) / 200) / 64 : Nat) : Int))

/-- CHOPPER_RAMP_UPDATE (R289). -/
def execChopperRampUpdate (l : Fin 4) (s : State) : Out :=
  match (s.link l.val).period with
  | none => .next s
  | some t => .next (if s.peakMode l.val then State.modLink l.val (fun x => { x with dac := s.rampCode l.val t }) s else s)

/-! Discharge. -/

/-- Discharge of link `l` is demanded (R267). A running one goes on; a mode that keeps DSC low refuses (R45). -/
def State.dscGo (l : Nat) (s : State) : State :=
  if (s.link l).dsc.isSome then s
  else if !s.dscAllowed then State.refuse (0x20 + l) s
  else State.modLink l (fun x => { x with dsc := some ⟨s.tbase, (s.vdc16 l).toNat, false, false, false,
      if s.vdc16 l ≤ s.g DCL.OV_VSAFE l then some s.tbase else none⟩ }) s

/-- Discharge of link `l` ends (R267, R268). -/
def State.dscStop (l : Nat) (s : State) : State := State.modLink l (fun x => { x with dsc := none }) (State.linkWindStop l s)

/-- The bridges whose switches the phases of WBR have: both of an NPC pair (R241, R268). -/
def State.windBridges (s : State) (b : Nat) : List Nat := if s.topo (s.unitOf b) = 2 then s.members (s.unitOf b) else [b]

/-- The winding path may start on link `l` (R268), unless its unit is held off for debug (R262) or is on its way to READY
(R41). -/
def State.windOk (s : State) (l : Nat) : Bool :=
  let b := s.g DCL.DSC_WBR l
  let u := s.unitOf b
  s.gb DCL.DSC_WEN l && s.mode == mRUN && !s.toReady && s.isUnit u && !s.dbgHeld u
    && (s.g FBRK.BRST_PAT u == 1 || (s.g FBRK.BRST_PAT u == 2 && !s.forcedSto u))
    && ((s.windBridges b).flatMap chansOf).all (fun n => !s.latched n)
    && match s.choiceSpeed u with
      | none => false
      | some v => decide (absI v < (s.g DCL.DSC_WSPD l : Int) * 2 ^ 19)

/-- The switches the winding path of bridge `b` in unit `u` holds on (R268). -/
def State.windHeld (s : State) (u b : Nat) : List Nat :=
  if s.topo u = 2 then [6 * u + 6, 6 * u + 3, 6 * u + 9, 6 * u + 5, 6 * u + 11] else [6 * b + 3, 6 * b + 5]

/-- The winding path of link `l` starts (R268); the inner switches it holds turn on before the outer ones (R241). Under a
demand it is a change of pattern (R259). -/
def State.windStart (l : Nat) (s : State) : State :=
  let b := s.g DCL.DSC_WBR l
  let u := s.unitOf b
  let s1 := (State.setPat u 6 (s.unitOff u)).pb DCL.STAT_WIND l true
  overL (s.windHeld u b) (fun n s => if s.chanOk n then State.padLater n true (s.onLag n) s else s)
    (if s.demanded u then s1.raise 1 0x92 u else s1)

/-- The check at TCHK (R267). -/
def State.dscSlow (l : Nat) (s : State) : State :=
  match (s.link l).dsc with
  | none => s
  | some d =>
    if d.checked then s
    else
      let s1 := State.modLink l (fun x => { x with dsc := some { d with checked := true } }) s
      if (d.v0 : Int) * s.g DCL.DSC_KCHK l < s.vdc16 l * 256 then
        let s2 := (s1.pb DCL.STAT_DSCSLOW l true).raise 1 0x94 l
        if s2.windOk l then State.windStart l s2 else s2
      else s1

/-- DISCHARGE_SLOW_CHECK (R267). -/
def execDischargeSlowCheck (l : Fin 4) (s : State) : Out := .next (State.dscSlow l s)

/-- VSAFE has held for 10 ms (R267). -/
def State.dscDone (l : Nat) (s : State) : State :=
  match (s.link l).dsc with
  | none => s
  | some d =>
    if d.done || d.belowSince.isNone then s
    else ((State.modLink l (fun x => { x with dsc := some { d with done := true } }) s).pb DCL.STAT_DSCDONE l true).raise 1 0x95 l

/-- DISCHARGE_DONE (R267). -/
def execDischargeDone (l : Fin 4) (s : State) : Out := .next (State.dscDone l s)

/-- Two seconds have passed without DSCDONE (R267). -/
def State.dscFail (l : Nat) (s : State) : State :=
  match (s.link l).dsc with
  | none => s
  | some d =>
    if d.done || d.failed then s
    else ((State.modLink l (fun x => { x with dsc := some { d with failed := true } }) s).pb DCL.STAT_DSCFAIL l true).raise 1 0x96 l

/-- DISCHARGE_FAIL (R267). -/
def execDischargeFail (l : Fin 4) (s : State) : Out := .next (State.dscFail l s)

/-- A write to a register of link `l` by port `n`: ownership of every bridge of the masks before and after, or
SAFEOWN where both are empty (R264). -/
def State.linkRights (s : State) (n : Fin 4) (l newMask : Nat) : Code :=
  let m := s.g DCL.CFG_BRMASK l
  if m = 0 && newMask = 0 then if s.gb HOST.RIGHTS_SAFEOWN n then eOK else eRIGHTS
  else if (List.range 8).all fun k => !(m.testBit k || newMask.testBit k) || s.owns n k then eOK else eOWNER

/-- The answer to a W1C of OVTRIP (R266). -/
def State.ovClearCode (s : State) (l : Nat) : Code := if s.vdc16 l ≤ s.g DCL.VTH_VOFF l then eOK else eSAFETY

end Sys2Proof.Machine
end

