-- ==== Sys2Proof/Machine/Axes.lean ====
section
/-! DEFINITION. Axes and their supervisor (R209 to R216, R226 to R235), and the command inputs (R236 to R239). -/

namespace Sys2Proof.Machine

/-- The entry of axis `n`. -/
def State.axis (s : State) (n : Nat) : Axis := at' s.axes n Axis.init

/-- Change the entry of axis `n`. -/
def State.modAxis (n : Nat) (f : Axis → Axis) (s : State) : State := { s with axes := upd s.axes n f }

/-- The state of axis `n` (R213). -/
def State.axState (s : State) (n : Nat) : Nat := s.g CTL.AXST_STATE n

/-- The task of axis `n`. -/
def State.axTask (s : State) (n : Nat) : Option Task := s.task? (s.g CTL.AXCFG_TASK n)

/-- The byte of AXTLM that holds an entry: its index, and EN as bit 7 (R210). -/
def State.tlmByte (s : State) (n : Nat) (f : FRef) : Nat := bits (s.word CTL.AXTLM n).toNat f.lo 8

/-- The value last released for a telemetry entry byte of AXTLM, if the entry is enabled and has been reported (R212). -/
def State.axTlm (s : State) (n : Nat) (f : FRef) : Option Int :=
  let b := s.tlmByte n f
  if 128 ≤ b then ((s.axTask n).bind fun t => t.tlm? (b % 32)).map sval else none

/-- The command of axis `n` (R214, R239). -/
def State.axCommand (s : State) (n : Nat) : Int :=
  if s.g CTL.AXCFG_CMDSRC n = 0 then sval (s.word CTL.AXHREF n)
  else
    let c := at' s.cmdin n ⟨[], 0, 0, 0, 0⟩
    if s.gb CTL.CMDST_VALID n then c.value
    else if s.g CTL.CMDCFG_REACT n = 1 then 0 else c.lastValid

/-- A safe-state demand by the supervisor (R212): the axis is in SAFE. -/
def State.axisToSafe (n : Nat) (s : State) : State := State.setAxis n 8 (State.demand (s.g CTL.AXCFG_BR n) 3 false s)

/-- A trigger of rank `r` may act on axis `n`: no transition of its rank or a higher one waits for its boundary (R235). -/
def State.axMay (s : State) (n r : Nat) : Bool := (s.axis n).rank == 0 || decide (r < (s.axis n).rank)

/-- A trigger of rank `r` acts on axis `n`, if it may; the transition it makes waits for its boundary with that rank. -/
def State.axGo (n r : Nat) (f : State → State) (s : State) : State :=
  if !s.axMay n r then s
  else
    let t := f s
    if t.axState n = s.axState n then t
    else State.modAxis n (fun a => { a with rank := if t.axState n = 8 then 1 else r }) t

/-- The axis is in state `st`, or leaves it at the next boundary (R235). -/
def State.axIn (s : State) (n st : Nat) : Bool := s.axState n == st || ((s.axis n).rank != 0 && (s.axis n).shown == st)

/-- Feedback loss of axis `n` is declared (R231), and the first step of R232 that applies is taken. A latched safe state
outranks it (R235), and outside RUN an axis is IDLE or SAFE (R214): there REACQ is left out, and SAFE stands for STOP
(DEDUCED, log entry 114). -/
def State.feedbackLoss (n : Nat) (s : State) : State :=
  let s1 := (s.pb CTL.AXST_FBLOST n true).raise 1 0x83 n
  let run := s1.mode == mRUN && s1.axState n != 8
  if s1.g CTL.AXCFG_ALT n ≠ 0 && !s1.gb CTL.AXST_ALTACT n then
    let s2 := State.modAxis n (fun a => { a with entered := s1.tbase }) (s1.pb CTL.AXST_ALTACT n true)
    if run && s2.g CTL.AXCFG_ALT n == 2 then State.setAxis n 6 s2 else s2
  else if s1.axState n = 8 then s1
  else if run && s1.gb CTL.AXCFG_SS1 n then State.modAxis n (fun a => { a with ss1Req := true }) (State.setAxis n 7 s1)
  else State.axisToSafe n s1

/-- The position port in use (R231). -/
def State.axPort (s : State) (n : Nat) : Nat := if s.gb CTL.AXST_ALTACT n then s.g CTL.AXCFG_ALTPORT n else s.g CTL.AXCFG_PORT n

/-- Count and status of the port in use, as they stood at the step's boundary (R231). -/
def State.axPosAt (s : State) (n : Nat) : Option Word × Word :=
  match s.axTask n with
  | none => (none, 0)
  | some t => t.posAt.getD (s.axPort n) (none, 0)

/-- A POSSTAT word with a sequence failure, a CRC failure or a wire disagreement (R231, R307). -/
def posFault (w : Word) : Bool := bits w.toNat 2 4 != 0

/-- A confirmation counter (R214). -/
def conf (b : Bool) (n : Nat) : Nat := if b then n + 1 else 0

/-- The observer's lock counts for axis `n` (R234). -/
def State.axObserver (s : State) (n : Nat) : Bool :=
  s.gb CTL.AXCFG_SLESS n || (s.gb CTL.AXST_ALTACT n && s.g CTL.AXCFG_ALT n == 2)

/-- The counters and the timer that an evaluation brings up to date (R214, R230, R231, R234). A POSCNT
that came stale is void for the stale-counter test (R309). -/
def State.axCounters (n : Nat) (s : State) : State :=
  let st := s.axState n
  let spd := (s.axTlm n CTL.AXTLM_SPD).map absI
  let lq := s.axTlm n CTL.AXTLM_LQ
  let below := fun (x : Option Int) (f : FRef) => match x with
    | none => false
    | some v => decide (v < (s.g f n : Int) * 65536)
  let above := fun (x : Option Int) (f : FRef) => match x with
    | none => false
    | some v => decide ((s.g f n : Int) * 65536 ≤ v)
  let lqOk := decide (s.tlmByte n CTL.AXTLM_LQ < 128) || above lq CTL.AXLIM_LQMIN
  let moving := st == 4 || st == 5 || st == 7
  let fe := match s.axTlm n CTL.AXTLM_FE with
    | none => false
    | some v => decide ((s.g CTL.AXLIM_FELIM n : Int) * 65536 < v)
  let cnt := (s.axPosAt n).1
  let stale := moving && !s.gb CTL.AXCFG_SLESS n && above (s.axTlm n CTL.AXTLM_VMAG) CTL.AXRATE_VSTALE
    && cnt == (s.axis n).lastCnt
  State.modAxis n (fun a =>
    { a with
      confHi := conf (st == 2 && above spd CTL.AXSPD_CATCHSPD && lqOk) a.confHi
      confLo := conf (st == 2 && below spd CTL.AXSPD_CATCHSPD) a.confLo
      confStand := conf ((st == 3 || st == 7) && below spd CTL.AXSPD_STANDSPD) a.confStand
      confLq := conf (st == 6 && above lq CTL.AXLIM_LQMIN) a.confLq
      confLoss := conf ((st == 4 || st == 5) && s.axObserver n && below lq CTL.AXLIM_LQMIN) a.confLoss
      still := if cnt.isNone then a.still else conf stale a.still
      lastCnt := if cnt.isNone then a.lastCnt else cnt
      feAt := if moving && fe then some (a.feAt.getD s.tbase) else none }) s

/-- Where a START or a confirmation takes axis `n` (R214), if anywhere. -/
def State.axNext (s : State) (n : Nat) : Option Nat :=
  let a := s.axis n
  let k := s.g CTL.AXTIM_CONFN n
  match s.axState n with
  | 1 =>
    if a.startReq && s.mode == mRUN then
      match (s.axTlm n CTL.AXTLM_SPD).map absI with
      | none => none
      | some v =>
        if (s.g CTL.AXSPD_CATCHSPD n : Int) * 65536 ≤ v then some 2
        else if (s.g CTL.AXSPD_STANDSPD n : Int) * 65536 ≤ v then some 3 else some 4
    else none
  | 2 => if k ≤ a.confHi then some 4 else if k ≤ a.confLo then some 3 else none
  | 3 => if k ≤ a.confStand then some 4 else none
  | 4 => if a.ref = s.axCommand n && a.shown == 4 then some 5 else none
  | 6 => if k ≤ a.confLq then some 4 else none
  | 7 => if a.ref = 0 && decide (k ≤ a.confStand) && !s.gb CTL.AXST_FBLOST n then some 1 else none
  | _ => none

/-- STOP, written or by command loss (R214, R215). Where a pending transition outranks it, it stays for the next evaluation
(R235). -/
def State.axStop (n : Nat) (s : State) : State :=
  if 2 ≤ s.axState n ∧ s.axState n ≤ 6 then
    if s.axMay n 7 then State.axGo n 7 (State.setAxis n 7) s else State.modAxis n (fun a => { a with stopReq := true }) s
  else s

/-- AXIS_EVALUATION (R212): the highest-ranked trigger takes effect (R235). -/
def State.axisEval (n : Nat) (s : State) : State :=
  match s.axTask n with
  | none => s
  | some t =>
    let st := s.axState n
    if !s.up || !s.gb CTL.AXCFG_EN n || st = 0 || !t.evalDue.contains n then s
    else
      let s0 := s.modTask t.id fun x => { x with evalDue := x.evalDue.filter (· != n) }
      let s1 := State.axCounters n s0
      let a := s1.axis n
      let k := s1.g CTL.AXTIM_CONFN n
      if s1.axMay n 3 && ((!s1.gb CTL.AXCFG_SLESS n && posFault (s1.axPosAt n).2) || decide (k ≤ a.still)) then
        State.axGo n 3 (fun s => State.feedbackLoss n (State.modAxis n (fun a => { a with still := 0 }) s)) s1
      else if s1.axMay n 6 && decide (k ≤ a.confLoss) then
        State.axGo n 6 (fun s => State.setAxis n 6 ((s.pb CTL.AXST_LOCKLOST n true).raise 1 0x84 n)) s1
      else if s1.axMay n 7 && a.stopReq && decide (2 ≤ st ∧ st ≤ 6) then State.axStop n s1
      else
        match s1.axNext n with
        | some st' => State.axGo n 9 (State.setAxis n st') s1
        | none => s1

/-- AXIS_EVALUATION (R212). -/
def execAxisEvaluation (n : Fin 8) (s : State) : Out := .next (State.axisEval n s)

/-- A timeout takes axis `n` to SAFE, with its flag (R214). -/
def State.axTimeout (n : Nat) (f : FRef) (s : State) : State := State.axisToSafe n (s.pb f n true)

/-- REACQ_TIMEOUT (R234): in CATCH since entry, or in REACQ since its first boundary. -/
def execReacqTimeout (n : Fin 8) (s : State) : Out :=
  .next (if s.axIn n 2 || (s.axIn n 6 && ((s.axis n.val).reacqAt.isSome || s.axState n != 6)) then
      State.axGo n 4 (fun s => State.axTimeout n CTL.AXST_REACQFAIL (s.raise 1 0x85 n)) s else s)

/-- BRAKE_TIMEOUT (R214). -/
def execBrakeTimeout (n : Fin 8) (s : State) : Out :=
  .next (if s.axIn n 3 || s.axIn n 7 then State.axGo n 4 (State.axTimeout n CTL.AXST_BRKFAIL) s else s)

/-- FE_TIMER_EXPIRY (R230): feedback loss is declared. -/
def execFeTimerExpiry (n : Fin 8) (s : State) : Out :=
  .next (if (s.axis n.val).feAt.isSome && (s.axState n.val == 4 || s.axState n.val == 5 || s.axState n.val == 7) then
      State.axGo n 3 (State.feedbackLoss n) (State.modAxis n (fun a => { a with feAt := none })
        ((s.pb CTL.AXST_FEEXP n true).raise 1 0x82 n))
    else s)

/-! The axis words at a period boundary. -/

/-- The reference moves toward a target by at most `d`. -/
def toward (x target d : Int) : Int := if target < x - d then x - d else if x + d < target then x + d else target

/-- The reference at the next boundary in state `st` (R213). -/
def State.refNext (s : State) (n st : Nat) (x d : Int) : Int :=
  if st = 4 ∨ st = 5 then toward x (s.axCommand n) d else if st = 7 then toward x 0 d else 0

/-- The slope of RAMPRATE in one step period of `half` half ticks (R213). -/
def State.rampStep (s : State) (n half : Nat) : Nat := s.openDiv (s.g CTL.AXRATE_RAMPRATE n * 2 ^ 15 * half) 400000

/-- Word 0 of the axis words (R211). -/
def axisWord (seq : BitVec 16) (skip slope : Nat) (first alt : Bool) (st : Nat) : Word :=
  BitVec.ofNat 32 (seq.toNat * 65536 + skip * 256 + slope * 64 + (if first then 32 else 0) + (if alt then 16 else 0) + st)

/-- SKIPRUN and its limit at a boundary (R227, R228). -/
def State.axisSkip (n : Nat) (skipped : Bool) (s : State) : State :=
  let run := if skipped then min 255 (s.g CTL.AXST_SKIPRUN n + 1) else 0
  let s1 := s.p CTL.AXST_SKIPRUN n run
  if run = 0 then State.modAxis n (fun a => { a with skipLimRaised := false }) s1
  else if s1.g CTL.AXSAMP_SKIPMAX n < run && !(s1.axis n).skipLimRaised then
    let s2 := State.modAxis n (fun a => { a with skipLimRaised := true }) ((s1.pb CTL.AXST_SKIPLIM n true).raise 1 0x81 n)
    if s2.gb CTL.AXSAMP_SKIPREACT n && s2.axState n != 8 then State.axGo n 5 (State.axisToSafe n) s2 else s2
  else s1

/-- The supervisor writes the axis words of axis `n` at a period boundary of its task (R211), after SKIPRUN. What was
decided less than 1 µs ago is not shown yet (R212); REF goes on moving meanwhile, and a state in which it counts takes it
over as it then stands. -/
def State.axisBoundary (n : Nat) (skipped : Bool) (s : State) : State :=
  match s.axTask n with
  | none => s
  | some t =>
    if !s.gb CTL.AXCFG_EN n || s.axState n = 0 then s
    else
      let s1 := State.axisSkip n skipped s
      let a := s1.axis n
      let late := decide (s1.tbase < a.entered + 200) && a.shown != 0
      let st := if late then a.shown else s1.axState n
      let alt := if late then a.shownAlt else s1.gb CTL.AXST_ALTACT n
      let old := if late then a.wordRef else a.ref
      let r := s1.refNext n st old (s1.rampStep n (s1.period2 t.d))
      let slope := if old < r then 1 else if r < old then 2 else 0
      let first := !late && a.first
      let s2 := State.modAxis n (fun a =>
        { a with seq := a.seq + 1, slope := BitVec.ofNat 2 slope, shown := st, shownAlt := alt, wordRef := r,
                 ref := if late && !([4, 5, 7].contains (s1.axState n)) then a.ref else r, first := late && a.first,
                 rank := if late then a.rank else 0,
                 reacqAt := if st = 6 && first then some s1.tbase else a.reacqAt }) s1.used
      State.mboxPut t.id (s2.g CTL.AXMB_MBOFF n)
        [axisWord (a.seq + 1) (s2.g CTL.AXST_SKIPRUN n) slope first alt st, ofInt r] s2

/-! What writes to axis registers check and do. -/

/-- A telemetry entry byte names an entry of the task, declared of type Q1.31 (R210). -/
def tlmByteOk (t : Task) (b : Nat) : Bool := decide (128 ≤ b) && t.d.tlm[b % 32]? == some 0

/-- The checks of a write that sets EN, on the state the write leaves (R210). -/
def State.axisEnableCode (s : State) (n : Nat) (skipOk : Task → Bool) : Code :=
  let t? := s.axTask n
  let t := t?.getD (s.newTask 0 Descr.none 0 0 (.localMem, .localMem, .localMem, .localMem, .localMem))
  let br := s.g CTL.AXCFG_BR n
  let npc := s.gb CTL.AXCFG_NPC n
  let mine := if npc then [br, br + 1] else [br]
  let theirs := fun (m : Nat) => if s.gb CTL.AXCFG_NPC m then [s.g CTL.AXCFG_BR m, s.g CTL.AXCFG_BR m + 1] else [s.g CTL.AXCFG_BR m]
  let mb := s.g CTL.AXMB_MBOFF n
  let sless := s.gb CTL.AXCFG_SLESS n
  let opt := fun (must : Bool) (f : FRef) => if must || decide (128 ≤ s.tlmByte n f) then tlmByteOk t (s.tlmByte n f) else true
  firstCode [
    (decide (s.g CTL.AXCFG_ALT n = 3 ∨ 2 ≤ s.g CTL.AXCFG_CMDSRC n) || (npc && br % 2 == 1), eENUM),
    (t?.isNone || t.d.kind == 1, eNOTASK),
    (!(t.d.cls == 0 && t.d.byBridge && t.d.psrcBr == br && t.d.out.contains (br, npc)), eRANGE),
    ((List.range 8).any (fun m => m != n && s.gb CTL.AXCFG_EN m && (theirs m).any mine.contains), eRANGE),
    (!(opt true CTL.AXTLM_FE && opt true CTL.AXTLM_SPD && opt (sless || s.g CTL.AXCFG_ALT n == 2) CTL.AXTLM_LQ
        && opt (!sless) CTL.AXTLM_VMAG), eRANGE),
    (!(mb % 2 == 0 && decide (4 * (mb + 2) ≤ 2 ^ t.d.mbLog2) && !t.mtype.getD mb false && !t.mtype.getD (mb + 1) false), eRANGE),
    ([CTL.AXRATE_RAMPRATE, CTL.AXTIM_CONFN, CTL.AXSAMP_SKIPMAX, CTL.AXTIM_TREACQ, CTL.AXTIM_BRKTMO, CTL.AXTIM_FETMO].any
        fun f => s.g f n == 0, eRANGE),
    (!skipOk t, eRANGE),
    (s.g CTL.AXCFG_CMDSRC n == 1 && s.g CTL.CMDCFG_MODE n == 0, eRANGE),
    (s.gb CTL.AXCFG_SS1 n && !s.gb SAFE.FN_EN n, eRANGE)]

/-- The answer to a write of START and STOP to AXCMD (R215). -/
def State.axCmdCode (s : State) (n : Nat) (start stop : Bool) : Code :=
  let st := s.axState n
  firstCode [
    (start && stop, eRANGE),
    (start && st == 0, eRANGE),
    (start && s.mode != mRUN, eMODE),
    (start && (st == 8 || st == 7), eSAFETY)]

/-- An accepted START: it is evaluated against the next SPD (R215). -/
def State.axStart (n : Nat) (s : State) : State :=
  if s.axState n = 1 then State.modAxis n (fun a => { a with startReq := true }) s else s

/-- EN is cleared: the axis returns to OFF (R210). -/
def State.axOff (n : Nat) (s : State) : State := State.setAxis n 0 s

/-- EN is set: the axis enters IDLE (R210). -/
def State.axIdle (n : Nat) (s : State) : State :=
  State.modAxis n (fun a => { a with lastCnt := none, still := 0 }) (State.setAxis n 1 s)

/-- RUN to READY takes every axis but those in SAFE to IDLE (R214). -/
def State.axesIdle (s : State) : State :=
  overL (List.range 8) (fun n s =>
    if s.gb CTL.AXCFG_EN n && s.axState n != 0 && s.axState n != 8 then
      State.modAxis n (fun a => { a with startReq := false }) (State.setAxis n 1 s)
    else s) s

/-! Command inputs. -/

/-- An entry of a command input. -/
def State.cin (s : State) (n : Nat) : CmdIn := at' s.cmdin n ⟨[], 0, 0, 0, 0⟩

/-- Command input `n` is in use by its axis (R239). -/
def State.cinUsed (s : State) (n : Nat) : Bool :=
  s.gb CTL.AXCFG_EN n && s.axState n != 0 && s.g CTL.AXCFG_CMDSRC n == 1

/-- VALID of command input `n` becomes `v`; a clearing while in use is a loss (R239). -/
def State.cinValid (n : Nat) (v : Bool) (s : State) : State :=
  let was := s.gb CTL.CMDST_VALID n
  let s1 := s.pb CTL.CMDST_VALID n v
  if was && !v && s1.cinUsed n then
    let s2 := ((s1.pb CTL.CMDST_LOSS n true).pb CTL.AXST_CMDLOSS n true).raise 1 0x86 n
    if s2.g CTL.CMDCFG_REACT n = 2 then State.axStop n s2 else s2
  else if v then { s1 with cmdin := upd s1.cmdin n fun c => { c with lastValid := c.value } }
  else s1

/-- The mean of the raw values in use, rounded half away from zero (R237). -/
def meanOf (l : List Nat) : Int := rndDiv (l.sum : Nat) (max 1 l.length : Nat)

/-- A new raw value: RAW, the mean, the entry value and CLIP (R237). Whether the mean lies within limits is told. -/
def State.cinRaw (n raw : Nat) (s : State) : State × Bool :=
  let l := (raw :: (s.cin n).raws).take (2 ^ s.g CTL.CMDCFG_FILT n)
  let m := meanOf l
  let y := rndDiv ((m - sval (s.word CTL.CMDOFF n)) * sval (s.word CTL.CMDGAIN n)) (2 ^ s.g CTL.CMDCFG_SH n : Nat)
  let s1 := (s.p CTL.CMDST_RAW n raw).pb CTL.CMDST_CLIP n (sat31 y != y)
  ({ s1 with cmdin := upd s1.cmdin n fun c => { c with raws := l, value := sat31 y, stamp := s.tbase } },
    decide ((s.g CTL.CMDLIM_LOLIM n : Int) ≤ m ∧ m ≤ s.g CTL.CMDLIM_HILIM n))

/-- One complete sample or period: it counts toward VALID if it is good (R238). -/
def State.cinCount (n : Nat) (good : Bool) (s : State) : State :=
  let k := if good then (s.cin n).good + 1 else 0
  State.cinValid n (decide (2 ≤ k)) { s with cmdin := upd s.cmdin n fun c => { c with good := k } }

/-- The raw value of a signal of `high` ticks in a period of `period` ticks, and whether it is in range (R236). A value
beyond 16 bits is not stated. -/
def State.cinSignal (s : State) (n high period : Nat) : Nat × Bool :=
  if s.g CTL.CMDCFG_MODE n = 2 then
    (min 65535 (s.openDiv (high * 65536) period), decide (9800 ≤ period ∧ period ≤ 204000))
  else
    let hz := (rndDiv 200000000 (period : Nat)).toNat
    (if hz < 65536 then hz else s.free.toNat % 65536, decide (hz ≤ 50000))

/-- A new raw value of a command input (R236 to R238). -/
def State.cinSample (n : Nat) (code : BitVec 16) (high period : Nat) (s : State) : State :=
  if !s.up then s
  else
    match s.g CTL.CMDCFG_MODE n with
    | 0 => s
    | 1 =>
      let r := State.cinRaw n code.toNat s
      State.cinCount n r.2 r.1
    | _ =>
      if period = 0 then s
      else
        let x := s.cinSignal n high period
        let r := State.cinRaw n x.1 s.used
        State.cinCount n (x.2 && r.2) r.1

/-- CMDIN_SAMPLE (R236). -/
def execCmdinSample (n : Fin 8) (code : BitVec 16) (high period : Nat) (s : State) : Out :=
  .next (State.cinSample n code high period s)

/-- No edge for the timeout of R238. -/
def State.cinTimeout (n : Nat) (s : State) : State :=
  match s.g CTL.CMDCFG_MODE n with
  | 2 => State.cinCount n false s
  | 3 =>
    let r := State.cinRaw n 0 s
    if s.gb CTL.CMDCFG_ZEROOK n && r.2 then
      if r.1.gb CTL.CMDST_VALID n then State.cinValid n true r.1 else r.1
    else State.cinCount n false r.1
  | _ => s

/-- CMDIN_EDGE_TIMEOUT (R238). -/
def execCmdinEdgeTimeout (n : Fin 8) (s : State) : Out := .next (if s.up then State.cinTimeout n s else s)

/-- A change of CMDCFG.MODE starts the input anew: its VALID waits for two samples (R238). -/
def State.cinRestart (n : Nat) (s : State) : State :=
  State.cinValid n false { (s.p CTL.CMDST_RAW n 0) with cmdin := upd s.cmdin n fun c => { c with raws := [], good := 0 } }

end Sys2Proof.Machine
end

