-- ==== Sys2Proof/Machine/Sensing.lean ====
section
/-! DEFINITION. Sensing (R271 to R291): delta-sigma channels, on-chip converters, plausibility groups, comparators and
readback, and the skip windows of R226. -/

namespace Sys2Proof.Machine

/-- The entry of delta-sigma channel `n`. -/
def State.dsmCh (s : State) (n : Nat) : Dsm := at' s.dsm n Dsm.init

/-- Change the entry of delta-sigma channel `n`. -/
def State.modDsm (n : Nat) (f : Dsm → Dsm) (s : State) : State := { s with dsm := upd s.dsm n f }

/-- A channel and its clock run (R272, R273). -/
def State.dsmRuns (s : State) (n : Nat) : Bool := s.up && s.gb DSM.CH_EN n && s.gb DSM.CLK_EN (s.g DSM.CH_CLK n)

/-- The order k and the ratio N of a control path (R274). -/
def State.dsmK (s : State) (n : Nat) : Nat := s.g DSM.CH_ORD n + 1
def State.dsmN (s : State) (n : Nat) : Nat := s.g DSM.CH_OSR n + 1

/-- The code of a filter sum (R271). -/
def State.dsmCode (s : State) (n sum : Nat) : Int :=
  let full : Int := (s.dsmN n ^ s.dsmK n : Nat)
  let x := sat31 (rndDiv ((2 * (sum : Int) - full) * 2 ^ 31) full)
  sat31 (rndDiv (sval (s.word DSM.GAIN n) * (x - sval (s.word DSM.OFF n))) (2 ^ 30))

/-- The code of a protection-path value p (R271). -/
def protCode (p : Int) : Int := sat31 (p * 2 ^ 26)

/-- DSM_OUTPUT (R274). VALID comes with the k-th output (R62); after a stuck level, the outputs count from the first
whose window holds both levels (R276; log entry 22). -/
def State.dsmOutput (n sum : Nat) (s : State) : State :=
  if !s.dsmRuns n || decide (s.dsmN n ^ s.dsmK n < sum) then s
  else
    let s1 := State.modDsm n (fun d => { d with stamp := s.tbase }) (s.setWord DSM.RES n (ofInt (s.dsmCode n sum)))
    if (s1.dsmCh n).stuck then
      if 0 < sum ∧ sum < s.dsmN n ^ s.dsmK n then
        State.modDsm n (fun d => { d with stuck := false, fill := 0, relHi := false, relLo := false, since := s.tbase })
          ((s1.pb DSM.STAT_PHI n true).pb DSM.STAT_PLO n true)
      else s1
    else
      let f := (s1.dsmCh n).fill + 1
      (State.modDsm n (fun d => { d with fill := f }) s1).pb DSM.STAT_VALID n (decide (s.dsmK n ≤ f))

/-- DSM_OUTPUT (R274). -/
def execDsmOutput (n : Fin 64) (sum : Nat) (s : State) : Out := .next (State.dsmOutput n sum s)

/-- The protection path has filled since its channel or its clock started, or its level changed after a stuck one (R62,
R277): 16 modulator clocks. -/
def State.protFilled (s : State) (n : Nat) : Bool :=
  decide ((s.dsmCh n).since + 16 * s.g DSM.CLK_DIV (s.g DSM.CH_CLK n) ≤ s.tbase)

/-- A protection source has tripped on one side (R253, R254): bound to a phase, it latches that side's switches. -/
def State.sourceTrip (src : Nat) (high : Bool) (s : State) : State :=
  if s.gb FBRK.OCMAP_EN src then
    State.sideTrip (s.g FBRK.OCMAP_BR src) (s.g FBRK.OCMAP_PH src) high (s.gb FBRK.OCMAP_ROLE src) s
  else s

/-- One output of a protection path, and whether it has left its reset level, are put. -/
def State.protPut (n : Nat) (high out : Bool) (s : State) : State :=
  State.modDsm n (fun d => { d with relHi := d.relHi || high, relLo := d.relLo || !high })
    (s.pb (if high then DSM.STAT_PHI else DSM.STAT_PLO) n out)

/-- One output of a protection path at the sample p: it trips, releases, or between the two thresholds stays (R275). A trip
acts if the output was released before, or has now left its reset level (R277). -/
def State.protSide (n : Nat) (high : Bool) (p : Int) (s : State) : State :=
  let was := s.srcLeft (32 + n) high && s.srcTripped (32 + n) high
  let trips := if high then decide (s.gs DSM.PTH_HI n ≤ p) else decide (p ≤ s.gs DSM.PTH_LO n)
  let frees := if high then decide (p < s.gs DSM.PTH_HI n - s.g DSM.PTH_PHYS n)
    else decide (s.gs DSM.PTH_LO n + s.g DSM.PTH_PHYS n < p)
  if trips then
    let s1 := State.protPut n high true s
    if was then s1 else State.sourceTrip (32 + n) high s1
  else if frees then State.protPut n high false s
  else s

/-- A sample p of a protection path (R275): the latest value, and both outputs once the path has filled. -/
def State.protFeed (n : Nat) (p : Int) (s : State) : State :=
  if !s.dsmRuns n then s
  else
    let s1 := State.modDsm n (fun d => { d with prot := protCode p }) s
    if s1.protFilled n then State.protSide n false p (State.protSide n true p s1) else s1

/-- DSM_PROTECTION_RELEASE (R275): the samples up to the one with which the output leaves its tripped or its reset
level. -/
def execDsmProtectionRelease (n : Fin 64) (earlier : List Int) (pv : Int) (s : State) : Out :=
  .next (overL (earlier ++ [pv]) (State.protFeed n) s)

/-- DSM_STUCK (R276): the level reads as ±full scale, and trips the protection path in its own direction. -/
def State.dsmStuck (n : Nat) (level : Bool) (s : State) : State :=
  if !s.dsmRuns n || (s.dsmCh n).stuck then s
  else
    let s1 := ((s.pb DSM.STAT_STUCK n true).pb DSM.STAT_VALID n false).raise 20 0xA0 n
    State.protFeed n (if level then 32 else -32) (State.modDsm n (fun d => { d with stuck := true, fill := 0 }) s1)

/-- DSM_STUCK (R276). -/
def execDsmStuck (n : Fin 64) (level : Bool) (s : State) : Out := .next (State.dsmStuck n level s)

/-- A channel starts anew: not valid, its protection outputs at their reset level (R62, R277). -/
def State.dsmRestart (n : Nat) (s : State) : State :=
  State.modDsm n (fun d => { d with fill := 0, stuck := false, relHi := false, relLo := false, since := s.tbase, cap := none, pcap := none })
    (((s.pb DSM.STAT_VALID n false).pb DSM.STAT_PHI n true).pb DSM.STAT_PLO n true)

/-- CARRIER_UPDATE_POINT (R244, R248), after the samples of protection paths that come with it. -/
def execCarrierUpdatePoint (k : Fin 8) (u : UpdateMoment) (s : State) : Out :=
  .next (State.updatePoint k u.peak (overL u.prot (fun x => State.protFeed x.1 x.2) s))

/-! Converters. -/

/-- The entry of converter `c`. -/
def State.cnv (s : State) (c : Nat) : Conv := at' s.conv c Conv.init

/-- Change the entry of converter `c`. -/
def State.modConv (c : Nat) (f : Conv → Conv) (s : State) : State := { s with conv := upd s.conv c f }


/-- The mode of converter `c` (R278). -/
def State.convMode (s : State) (c : Nat) : Nat := s.g ADC.CFG_MODE (s.convBase c)

/-- The output period of a mode, in ticks (R278). -/
def convPeriod (m : Nat) : Nat := [0, 20000, 5000, 1250].getD m 0

/-- The filter span W of a mode, in ticks (R278). -/
def convSpan (m : Nat) : Nat := [0, 60000, 15000, 3750].getD m 0

/-- The block that a calibration measures in the step in progress: M0–M23, then the DACs of CMP0–CMP31 (R395). -/
def calBlock (o : LongOp) : Option SliceBlock :=
  match o.kind with
  | .cal tg =>
    if tg = 1 then some (.comp (Fin.ofNat 32 o.done))
    else if o.done < 24 then some (.conv (Fin.ofNat 24 o.done)) else some (.comp (Fin.ofNat 32 (o.done - 24)))
  | _ => none

/-- A self-test slice, or a calibration (R395), has block `b`. -/
def State.sliceOn (s : State) (b : SliceBlock) : Bool := s.bgs.slices.contains b || s.ops.any fun o => calBlock o == some b

/-- A self-test slice runs on converter `c`, or it is being calibrated. -/
def State.convSlice (s : State) (c : Nat) : Bool := s.sliceOn (.conv (Fin.ofNat 24 c))

/-- The code of an input of x·2^40 (R271). -/
def convCode (x : Int) : Int := sat31 (rndDiv x (2 ^ 9))

/-- A converter's values are valid: three outputs since its start, and no readback (R62, R290). -/
def State.convValid (s : State) (c : Nat) : Bool := decide (3 ≤ (s.cnv c).outs) && !(s.cnv c).readback

/-- Write RES and RST of everything that answers for `c` (R280 to R282). -/
def State.convPut (c : Nat) (x : Int) (s : State) : State :=
  let half := (s.convSet c).any fun m => m != c && s.convSlice m
  let late := (s.convSet c).length == 1 && s.convSlice c
  overL (s.convSet c) (fun m s =>
    ((((State.modConv m (fun v => { v with stamp := s.tbase }) s).setWord ADC.RES m (ofInt (convCode x))).pb ADC.RST_VALID m
      (s.convValid c)).pb ADC.RST_HALF m half).pb ADC.RST_LATE m late) s

/-- ADC_OUTPUT (R280). -/
def State.adcOutput (c : Nat) (x : Int) (s : State) : State :=
  if !s.up || s.convMode c = 0 then s
  else State.convPut c x (State.modConv c (fun v => { v with outs := v.outs + 1 }) s)

/-- ADC_OUTPUT (R280). -/
def execAdcOutput (c : Fin 24) (x : Int) (s : State) : Out := .next (State.adcOutput c x s)

/-- The member a demanded capture goes to: the one whose previous capture is older (R281). -/
def State.captureMember (s : State) (c : Nat) : Nat :=
  match s.convSet c with
  | [a, b] =>
    if s.convSlice a then b else if s.convSlice b then a
    else
      match (s.cnv a).lastCap, (s.cnv b).lastCap with
      | none, _ => a
      | some _, none => b
      | some x, some y => if x ≤ y then a else b
  | _ => c

/-- A capture demanded now is taken: one output period after the previous one, or together with it (R280). -/
def State.captureOk (s : State) (m : Nat) : Bool :=
  match (s.cnv m).lastCap with
  | none => true
  | some t => t == s.tbase || decide (t + convPeriod (s.convMode m) ≤ s.tbase)

/-- Demand a capture of converter `c`: whether one is taken, and the member that takes it. -/
def State.capture (c : Nat) (s : State) : State × Option Nat :=
  if (s.convSet c).any (fun m => (s.cnv m).lastCap == some s.tbase) then
    (s, (s.convSet c).find? fun m => (s.cnv m).lastCap == some s.tbase)
  else
    let m := s.captureMember c
    if s.captureOk m then (State.modConv m (fun v => { v with lastCap := some s.tbase }) s, some m) else (s, none)

/-- What a sensing path delivers as `raw` for an entry, as a code of R271: the filter sum of a control path, p of a protection
path, x·2^40 of a converter. -/
def State.rawCode (s : State) (x : Nat × Nat) (raw : Int) : Int :=
  match x.1 with
  | 1 => s.dsmCode x.2 raw.toNat
  | 2 => protCode raw
  | _ => convCode raw

/-- A capture of an entry's source at a tick: valid once the path has filled (R62, R276, R290), and HALF from a pair member
that serves alone (R282). -/
def State.newCapture (s : State) (x : Nat × Nat) (tick : Nat) (raw : Int) : Capture :=
  { tick := tick, code := s.rawCode x raw
    valid := match x.1 with
      | 1 => s.gb DSM.STAT_VALID x.2
      | 2 => s.dsmRuns x.2 && !(s.dsmCh x.2).stuck && s.protFilled x.2
      | _ => s.convValid x.2
    half := x.1 == 3 && (s.convSet x.2).length == 2 && (s.convSet x.2).any s.convSlice }

/-- The captures delivered by an entry's source. -/
def State.gotten (s : State) (x : Nat × Nat) : List Capture :=
  match x.1 with
  | 1 => (s.dsmCh x.2).cap.toList
  | 2 => (s.dsmCh x.2).pcap.toList
  | _ => (s.convSet x.2).filterMap fun c => (s.cnv c).got

/-- The capture an entry's source has delivered for a tick: captures of one source at one tick are one (R274, R280). -/
def State.captureAt (s : State) (x : Nat × Nat) (tick : Nat) : Option Capture := (s.gotten x).find? fun c => c.tick == tick

/-- The latest capture of an entry's source. -/
def State.lastCapture (s : State) (x : Nat × Nat) : Option Capture :=
  (s.gotten x).foldl (fun m c => match m with
    | some y => if y.tick ≤ c.tick then some c else m
    | none => some c) none

/-- Note a capture as delivered: a converter pair's with the member that took it. -/
def State.keepCapture (x : Nat × Nat) (c : Capture) (s : State) : State :=
  match x.1 with
  | 1 => State.modDsm x.2 (fun d => { d with cap := some c }) s
  | 2 => State.modDsm x.2 (fun d => { d with pcap := some c }) s
  | _ =>
    let m := ((s.convSet x.2).find? fun m => (s.cnv m).lastCap == some c.tick).getD x.2
    State.modConv m (fun v => { v with got := some c }) s

/-- The capture of an entry's source at a tick that `raw` delivers, unless the source has delivered it before. -/
def State.deliver (x : Nat × Nat) (tick : Nat) (raw : Option Int) (s : State) : State × Option Capture :=
  match s.captureAt x tick, raw with
  | some c, _ => (s, some c)
  | none, some v => (State.keepCapture x (s.newCapture x tick v) s, some (s.newCapture x tick v))
  | none, none => (s, none)

/-- ADC_TRIGGER (R280): a capture that is not taken leaves RST unchanged. -/
def State.adcTrigger (c : Nat) (x : Int) (s : State) : State :=
  if !s.up || s.convMode c = 0 || s.g ADC.TRG_SRC c = 0 then s
  else
    match State.capture c s with
    | (_, none) => s
    | (s1, some m) => State.convPut m x (State.deliver (3, c) s.tbase (some x) s1).1

/-- ADC_TRIGGER (R280). -/
def execAdcTrigger (c : Fin 24) (x : Int) (s : State) : Out := .next (State.adcTrigger c x s)

/-- A converter starts anew (R62). -/
def State.convRestart (c : Nat) (s : State) : State :=
  overL (s.convSet c) (fun m s => (State.modConv m (fun v => { v with outs := 0, lastCap := none, got := none }) s).pb ADC.RST_VALID m false) s

/-! Skip windows (R226). -/

/-- The filter span W of a frame entry, in ticks; none for an entry that is never skipped. -/
def State.entrySpan (s : State) (x : Nat × Nat) : Option Nat :=
  match x.1 with
  | 1 => some (s.dsmK x.2 * s.dsmN x.2 * s.g DSM.CLK_DIV (s.g DSM.CH_CLK x.2))
  | 3 => some (convSpan (s.convMode x.2))
  | _ => none

/-- The bridges whose edges skip the samples of axis `n`; a follower counts as its master (R226, R242). -/
def State.skipBridges (s : State) (n : Nat) : List Nat :=
  let own := fun (k : Nat) => k == s.g CTL.AXCFG_BR n || (s.gb CTL.AXCFG_NPC n && k == s.g CTL.AXCFG_BR n + 1)
    || s.gbit CTL.AXSAMP_XBR n k
  (List.range 8).filter fun k => own k || (s.topo k == 4 && own (s.g GATE.BRCFG_MASTER k))

/-- A GCMD edge falls in the skip window of an entry of axis `n` that ends at sample instant `ts` (R226). -/
def State.skipped (s : State) (n : Nat) (x : Nat × Nat) (ts : Nat) : Bool :=
  match s.entrySpan x with
  | none => false
  | some w =>
    let hi : Int := (ts : Int) - s.g CTL.AXSAMP_DLY n
    let lo : Int := hi - w - s.g CTL.AXSAMP_GUARD n
    let br := s.skipBridges n
    s.edges.any fun e => br.contains (brOf e.1) && decide (64 * lo ≤ (e.2 : Int) ∧ (e.2 : Int) ≤ 64 * hi)

/-- Check 8 of R210. -/
def State.skipFits (s : State) (n : Nat) (t : Task) : Bool :=
  t.d.smp.all fun x => match s.entrySpan x with
    | none => true
    | some w => decide (4 * (w + s.g CTL.AXSAMP_GUARD n) < s.period2 t.d)

/-! Plausibility groups. -/

/-- The frame entry kind and index of a member code (R284). -/
def memberEntry (c : Nat) : Nat × Nat := if c < 64 then (1, c) else (3, c - 64)

/-- Two frame entries read the same source (R281). -/
def State.sameSource (s : State) (x y : Nat × Nat) : Bool :=
  x.1 == y.1 && (if x.1 = 3 then (s.convSet x.2).contains y.2 else x.2 == y.2)

/-- The members of group `g`. -/
def State.groupMembers (s : State) (g : Nat) : List Nat :=
  [s.g DSM.RGRP_A g, s.g DSM.RGRP_B g] ++ if s.gb DSM.RGRP_TYPE g then [s.g DSM.RGRP_C g] else []

/-- A member's capture falls in a skip window of an axis whose task reads it (R285). -/
def State.memberSkipped (s : State) (c : Nat) : Bool :=
  (List.range 8).any fun n => s.gb CTL.AXCFG_EN n && s.axState n != 0
    && match s.axTask n with
      | none => false
      | some t => t.d.smp.any (fun x => s.sameSource x (memberEntry c)) && s.skipped n (memberEntry c) s.tbase

/-- The check of a group (R284). -/
def State.groupHolds (s : State) (g : Nat) (a b c : Int) : Bool :=
  decide (absI (if s.gb DSM.RGRP_TYPE g then a + b + c else a - b) ≤ (s.g DSM.RTOL_TOL g : Int) * 65536)

/-- Change the entry of group `g`. -/
def State.modPlaus (g : Nat) (f : Plaus → Plaus) (s : State) : State := { s with plaus := upd s.plaus g f }

/-- The capture of member `m` of a group at the evaluation instant (R284, R285): none where it is not taken, not delivered,
not valid, or falls in a skip window. -/
def State.memberCapture (m : Nat) (raw : Option Int) (s : State) : State × Option Int :=
  let y := if m < 64 then (s, some m) else State.capture (m - 64) s
  match y with
  | (s1, none) => (s1, none)
  | (s1, some _) =>
    let z := State.deliver (memberEntry m) s.tbase raw s1
    (z.1, z.2.bind fun c => if c.valid && !s1.memberSkipped m then some c.code else none)

/-- A group is judged on its members' captures (R284, R285): the third consecutive miss fails it. -/
def State.plausJudge (g : Nat) (a b c : Option Int) (s : State) : State :=
  match a, b, c with
  | some a, some b, some c =>
    if s.groupHolds g a b c then State.modPlaus g (fun _ => ⟨0, true⟩) s
    else
      let k := (at' s.plaus g ⟨0, false⟩).misses + 1
      let s1 := State.modPlaus g (fun _ => ⟨k, false⟩) s
      if k = 3 then (s1.pbit DSM.RSTAT_FAIL 0 g true).raise 20 0xA1 g else s1
  | _, _, _ => State.modPlaus g (fun p => { p with lastPass := false }) s

/-- PLAUSIBILITY_EVALUATION (R285): every member is captured, and the group judged. -/
def State.plausEval (g : Nat) (a b c : Option Int) (s : State) : State :=
  if !s.up || !s.gb DSM.RGRP_EN g then s
  else
    let x := State.memberCapture (s.g DSM.RGRP_A g) a s
    let y := State.memberCapture (s.g DSM.RGRP_B g) b x.1
    let z := if s.gb DSM.RGRP_TYPE g then State.memberCapture (s.g DSM.RGRP_C g) c y.1 else (y.1, some 0)
    State.plausJudge g x.2 y.2 z.2 z.1

/-- PLAUSIBILITY_EVALUATION (R285). -/
def execPlausibilityEvaluation (g : Fin 32) (a b c : Option Int) (s : State) : Out := .next (State.plausEval g a b c s)

/-- The answer to a W1C of RSTAT.FAIL (R285). -/
def State.plausClearCode (s : State) (v : Word) : Code :=
  if (List.range 32).all fun g => !v.getLsbD g || (at' s.plaus g ⟨0, false⟩).lastPass then eOK else eSAFETY

/-! Comparators. -/

/-- Comparator `n` is a protection source (R277). -/
def State.protSource (s : State) (n : Nat) : Bool :=
  s.gb FBRK.OCMAP_EN n || (List.range 4).any fun l => s.gb DCL.CFG_EN l && s.g DCL.CFG_OVCMP l == n

/-- The comparator is the ICMP of an enabled link in PEAK mode: Firebreak drives its high DAC (R265, R289). -/
def State.peakLink (s : State) (n : Nat) : Option Nat :=
  (List.range 4).find? fun l => s.peakMode l && s.g DCL.BRK_ICMP l == n

/-- The high threshold of comparator `n`, a DAC code (R286, R289). -/
def State.compHi (s : State) (n : Nat) : Int :=
  match s.peakLink n with
  | some l => (s.link l).dac
  | none => s.g CMP.TH_HI n

/-- Which side of a raw output's band an input lies on, in units of code·2^16: beyond it, returned, or inside (R286). -/
def State.compClass (s : State) (n : Nat) (high : Bool) (v : Int) : Option Bool :=
  let hys : Int := s.g CMP.CFG_HYS n
  if high then
    if s.compHi n * 65536 < v then some true else if v < (s.compHi n - hys) * 65536 then some false else none
  else
    if v < (s.g CMP.TH_LO n : Int) * 65536 then some true else if ((s.g CMP.TH_LO n : Int) + hys) * 65536 < v then some false else none

/-- The n and m of a comparator's filter: a HARD source uses 1-of-1 (R253, R287). -/
def State.compNM (s : State) (n : Nat) : Nat × Nat :=
  if s.gb FBRK.OCMAP_EN n && s.gb FBRK.OCMAP_ROLE n then (1, 1) else (s.g CMP.CFG_FN n, s.g CMP.CFG_FM n)

/-- One sample through a side's filter (R61, R287): the reset level stays until m consecutive samples lie outside the band on
one side; from then on n of the last m samples decide. -/
def CompSide.feed (nm : Nat × Nat) (x : Option Bool) (c : CompSide) : CompSide :=
  let raw := x.or c.raw
  if c.left then
    let h := ((raw.getD c.out) :: c.hist).take nm.2
    let out := if nm.1 ≤ (h.filter id).length then true else if nm.1 ≤ (h.filter (!·)).length then false else c.out
    { c with raw := raw, hist := h, out := out }
  else
    match x with
    | none => { c with raw := raw, run := 0 }
    | some b =>
      let run := if c.side = b then c.run + 1 else 1
      if nm.2 ≤ run then ⟨b, true, raw, List.replicate nm.2 b, run, b⟩ else { c with raw := raw, run := run, side := b }

/-- A comparator output that trips acts as a protection source, as an overvoltage comparator on its high side, and as the
current comparator of a PEAK chopper (R253, R265, R266). -/
def State.compTrip (n : Nat) (high : Bool) (s : State) : State :=
  let s1 := State.sourceTrip n high s
  if !high then s1
  else
    let s2 := overL ((List.range 4).filter fun l => s1.gb DCL.CFG_EN l && s1.g DCL.CFG_OVCMP l == n) State.ovTrip s1
    match s2.peakLink n with
    | some l => State.chopOff l s2
    | none => s2

/-- A side of a comparator. -/
def State.compSide (s : State) (n : Nat) (high : Bool) : CompSide :=
  let c := at' s.comp n (Comp.start false)
  if high then c.hi else c.lo

/-- Put a side of a comparator: a change of its output raises CMP_CHANGE where EVEN is set, and an output that trips, or
leaves its reset level tripped, acts (R277, R287). -/
def State.compPut (n : Nat) (high : Bool) (x : CompSide) (s : State) : State :=
  let old := s.compSide n high
  let s1 := { s with comp := upd s.comp n fun c => if high then { c with hi := x } else { c with lo := x } }
  let s2 := if old.out != x.out && s1.gb CMP.CFG_EVEN n then s1.raise 21 0xA2 n else s1
  if x.left && x.out && !(old.left && old.out) then State.compTrip n high s2 else s2

/-- One sample of a comparator's input, in units of code·2^16 (R286, R287). -/
def State.compFeed (n : Nat) (v : Int) (s : State) : State :=
  if !s.up || !s.gb CMP.CFG_EN n then s
  else
    let s1 := State.compPut n true ((s.compSide n true).feed (s.compNM n) (s.compClass n true v)) s
    State.compPut n false ((s1.compSide n false).feed (s1.compNM n) (s1.compClass n false v)) s1

/-- COMPARATOR_CHANGE (R287): the samples that bring the change, one each 10 ns. -/
def execComparatorChange (n : Fin 32) (earlier : List Int) (last : Int) (s : State) : Out :=
  .next (overL (earlier ++ [last]) (State.compFeed n) s)

/-- PROTECTION_TRIP (R253): the samples that trip a source, of a comparator or of a protection path. -/
def execProtectionTrip (src : Fin 96) (samples : List Int) (s : State) : Out :=
  .next (overL samples (if src.val < 32 then State.compFeed src.val else State.protFeed (src.val - 32)) s)

/-- OVERVOLTAGE_TRIP (R266): the comparator of the link has tripped. -/
def execOvervoltageTrip (l : Fin 4) (s : State) : Out :=
  let n := s.g DCL.CFG_OVCMP l.val
  .next (State.ovTrip l (if s.up && s.gb DCL.CFG_EN l.val && s.gb CMP.CFG_EN n then
    State.compPut n true ⟨true, true, some true, List.replicate (s.compNM n).2 true, (s.compNM n).2, true⟩ s else s))

/-- A comparator is enabled: both outputs at the reset level (R61, R287). -/
def State.compRestart (n : Nat) (s : State) : State :=
  { s with comp := upd s.comp n fun _ => Comp.start (s.protSource n || s.gb CMP.CFG_RST n) }

/-! Readback (R290). -/

/-- The answer to a write that leaves RDBK.EN set, on the state after it. -/
def State.rdbkCode (s : State) : Code :=
  let c := s.g CMP.RDBK_CONV
  if (List.range 4).any (fun l => s.gb DCL.CFG_EN l && !s.gb DCL.CFG_VKIND l && (s.convSet c).contains (s.g DCL.CFG_VIDX l))
    || (s.convSet c).any (fun m => !(s.groupsOf (64 + m)).isEmpty) || !s.gb CMP.CFG_EN (s.g CMP.RDBK_CMP) then eRANGE else eOK

/-- What a write of RDBK does: `was` is the word before it. -/
def State.rdbkApply (was : Word) (s : State) : State :=
  let old := was.toNat
  let wasOn := old.testBit 31
  let now := (s.word CMP.RDBK 0).toNat
  let c0 := bits old 16 5
  let c1 := s.g CMP.RDBK_CONV
  let off := fun (c : Nat) (s : State) => State.convRestart c (State.modConv c (fun v => { v with readback := false }) s)
  let on := fun (c : Nat) (s : State) => State.modConv c (fun v => { v with readback := true }) s
  let changed := !wasOn || bits old 16 5 != bits now 16 5 || bits old 24 5 != bits now 24 5 || bits old 30 1 != bits now 30 1
  if now.testBit 31 then
    if changed then on c1 ((if wasOn && c0 != c1 then off c0 s else s).pb CMP.RDBK_DONE 0 false) else s
  else if wasOn then (off c0 s).pb CMP.RDBK_DONE 0 false
  else s

/-- Readback and its converter or comparator are under a slice: the readback waits, and RDVAL is deferred (R282). -/
def State.rdbkSlice (s : State) : Bool :=
  s.gb CMP.RDBK_EN && (s.convSlice (s.g CMP.RDBK_CONV) || s.sliceOn (.comp (Fin.ofNat 32 (s.g CMP.RDBK_CMP))))

/-- RDBK_DONE (R290): the capture that the readback demands (R280) has been measured. -/
def State.rdbkDone (x : Int) (s : State) : State :=
  if s.up && s.gb CMP.RDBK_EN && !s.rdbkSlice then
    let s1 := (State.capture (s.g CMP.RDBK_CONV) s).1
    ((s1.setWord CMP.RDVAL 0 (ofInt (convCode x))).pb CMP.RDBK_DONE 0 true).raise 21 0xA3 (s.g CMP.RDBK_CMP)
  else s

/-- RDBK_DONE (R290). -/
def execRdbkDone (x : Int) (s : State) : Out := .next (State.rdbkDone x s)

/-- A single converter under a slice: RES is deferred (R282). -/
def State.resDeferred (s : State) (c : Nat) : Bool := (s.convSet c).length == 1 && s.convSlice c

end Sys2Proof.Machine
end

