-- ==== Sys2Proof/Machine/Trig.lean ====
section
/-! DEFINITION. The exact trigonometric codes of R143: sine and cosine by their series in fixed point, and the angle of
a vector by bisection over the codes. -/

namespace Sys2Proof.Machine

/-- π with 96 fractional bits. -/
def pi96 : Nat := 248902613312231085230521944622

/-- The terms of an alternating series from term `t` = xⁿ/n!, with x² in 96 fractional bits. -/
def series (x2 : Nat) : Nat → Nat → Nat → Int
  | 0, _, _ => 0
  | fuel + 1, t, n => (t : Int) - series x2 fuel (t * x2 / 2 ^ 96 / ((n + 1) * (n + 2))) (n + 2)

/-- sin of t·π/2^32 with 96 fractional bits, for 0 ≤ t ≤ 2^31 (a quarter turn and less is used up to 2^30). -/
def sin96 (t : Nat) : Int :=
  let x := t * pi96 / 2 ^ 32
  series (x * x / 2 ^ 96) 24 x 1

/-- cos of t·π/2^32 with 96 fractional bits. -/
def cos96 (t : Nat) : Int :=
  let x := t * pi96 / 2 ^ 32
  series (x * x / 2 ^ 96) 24 (2 ^ 96) 0

/-- The code of sin(t·π/2^31) for 0 ≤ t ≤ 2^30: rounded once and held below 1.0. -/
def sinQuarter (t : Nat) : Int :=
  let v := if t ≤ 2 ^ 29 then sin96 (2 * t) else cos96 (2 * (2 ^ 30 - t))
  if t = 0 then 0 else min (2 ^ 31 - 1) (rndDiv v (2 ^ 65))

/-- sin of a signed angle code in −2^31 to 2^31 − 1. -/
def sinSigned (x : Int) : Int :=
  let a := x.natAbs
  sgnI x * sinQuarter (min a (2 ^ 31 - a))

/-- The sine code of an angle (R143). -/
def sinCode (w : Word) : Int := sinSigned w.toInt

/-- The cosine code of an angle: the sine of a quarter turn less its magnitude. -/
def cosCode (w : Word) : Int := sinSigned (2 ^ 30 - absI w.toInt)

/-- y / x ≥ tan((2n − 1)·π/2^32), for x, y ≥ 0 and 1 ≤ n ≤ 2^30. -/
def angleAtLeast (y x n : Nat) : Bool :=
  let t := 2 * n - 1
  if t ≤ 2 ^ 30 then decide ((x : Int) * sin96 t ≤ (y : Int) * cos96 t)
  else decide ((x : Int) * cos96 (2 ^ 31 - t) ≤ (y : Int) * sin96 (2 ^ 31 - t))

/-- The greatest code n ≤ 2^30 whose lower half step the angle reaches, searched bit by bit. -/
def angleSearch (y x : Nat) : Nat → Nat → Nat
  | 0, n => n
  | k + 1, n => let m := n + 2 ^ k
                angleSearch y x k (if m ≤ 2 ^ 30 && angleAtLeast y x m then m else n)

/-- rnd(atan2(y, x)·2^31/π) as a word (R143). -/
def atanCode (y x : Int) : Word :=
  let n : Int := angleSearch y.natAbs x.natAbs 31 0
  let a := if x < 0 then 2 ^ 31 - n else n
  ofInt (if y < 0 then -a else a)

end Sys2Proof.Machine
end

