-- ==== Sys2Proof/Machine/Position.lean ====
section
/-! DEFINITION. Position ports (R292 to R313, R316) and encoder emulators (R314, R315). -/

namespace Sys2Proof.Machine

/-- The entry of port `p`. -/
def State.port (s : State) (p : Nat) : PosPort := at' s.pos p PosPort.init

/-- Change the entry of port `p`. -/
def State.modPos (p : Nat) (f : PosPort → PosPort) (s : State) : State := { s with pos := upd s.pos p f }

/-- The mode of an enabled port; 0 for one that is off. -/
def State.posMode (s : State) (p : Nat) : Nat := if s.up && s.gb POS.CFG_EN p then s.g POS.CFG_MODE p else 0

/-- The entry of emulator `e`. -/
def State.emul (s : State) (e : Nat) : Emu := at' s.emu e ⟨0, 0, 0, 0, 0, false, false⟩

/-- Change the entry of emulator `e`. -/
def State.modEmu (e : Nat) (f : Emu → Emu) (s : State) : State := { s with emu := upd s.emu e f }

/-- The enabled emulators of port `p` (R314). -/
def State.emusOf (s : State) (p : Nat) : List Nat :=
  (List.range 4).filter fun e => s.gb POS.EMUCFG_EN e && s.g POS.EMUCFG_SRC e == p

/-! Errors. -/

/-- The sticky bit of a held flag: 0 SEQERR, 1 CRCERR, 2 WIREERR, 3 ENCERR (R307). -/
def errFld : Nat → FRef
  | 0 => POS.STAT_SEQERR
  | 1 => POS.STAT_CRCERR
  | 2 => POS.STAT_WIREERR
  | _ => POS.STAT_ENCERR

/-- An emulator holds its outputs, and drops its backlog and accumulator (R315). -/
def State.emuHold (e : Nat) (s : State) : State :=
  State.modEmu e (fun x => { x with acc := 0, backlog := 0, idxDue := false }) (s.pb POS.EMUST_HOLD e true)

/-- An emulator goes on from the present count (R315). -/
def State.emuResume (e : Nat) (s : State) : State :=
  if s.gb POS.EMUST_HOLD e then (s.pb POS.EMUST_HOLD e false).pb POS.EMUST_SKIP e true else s

/-- The source of an emulator may be followed: no held error flag, and a count (R315). -/
def State.emuSrcOk (s : State) (e : Nat) : Bool :=
  let p := s.port (s.g POS.EMUCFG_SRC e)
  p.heldFlags == 0 && p.cntSet

/-- Error `k` of port `p` occurs (R307). -/
def State.posErr (p k : Nat) (s : State) : State :=
  let was := (s.port p).heldFlags.getLsbD k
  let s1 := State.modPos p (fun x => { x with heldFlags := x.heldFlags ||| BitVec.ofNat 4 (2 ^ k),
                                              heldAt := upd x.heldAt k fun _ => s.tbase }) (s.pb (errFld k) p true)
  if was then s1 else overL (s1.emusOf p) State.emuHold (s1.raise 20 0xB0 p)

/-- HELD_FLAG_EXPIRY (R307). -/
def State.heldExpiry (p k : Nat) (s : State) : State :=
  let s1 := State.modPos p (fun x => { x with heldFlags := x.heldFlags &&& ~~~BitVec.ofNat 4 (2 ^ k) }) s
  overL (s1.emusOf p) (fun e s => if s.emuSrcOk e then State.emuResume e s else s) s1

/-- HELD_FLAG_EXPIRY (R307). -/
def execHeldFlagExpiry (n : Fin 8) (flag : Fin 4) (s : State) : Out := .next (State.heldExpiry n flag s)

/-- The status word with bits 5:2 from the held flags: a POSSTAT entry (R307). -/
def State.posStat (s : State) (p : Nat) : Word :=
  BitVec.ofNat 32 (setBits (s.word POS.STAT p).toNat 2 4 (s.port p).heldFlags.toNat)

/-! Compares. -/

/-- Compare `j` of port `p` fires at a stamp, which its record carries (R310, R311). -/
def State.cmpFire (p j stamp : Nat) (s : State) : State :=
  ((((s.pb POS.CMPC_EN (4 * p + j) false).pbit POS.STAT_CMPBEHIND p j false).pbit POS.STAT_CMPFIRED p j true).setWord
    POS.CMPTS (4 * p + j) (BitVec.ofNat 32 stamp)).raiseAt stamp 20 0xB2 (4 * p + j)

/-- The behind test of R312. -/
def State.cmpBehind (s : State) (p j : Nat) : Bool :=
  let d := sval (s.word POS.CMPV (4 * p + j) - s.word POS.CNT p)
  d == 0 || (!s.gb POS.STAT_STILL p && (if s.gb POS.STAT_DIR p then decide (0 < d) else decide (d < 0)))

/-- A compare is tested as a write sets or changes it (R312). -/
def State.cmpTest (p j : Nat) (s : State) : State :=
  let b := s.cmpBehind p j
  if b && s.gb POS.CMPC_IMM (4 * p + j) then State.cmpFire p j s.tbase s else s.pbit POS.STAT_CMPBEHIND p j b

/-- The compares that an update from `c0` by `d` reaches fire, in ascending order (R311, R313). -/
def State.cmpUpdate (p : Nat) (c0 : Word) (d : Int) (stamp : Nat) (s : State) : State :=
  overL [0, 1, 2, 3] (fun j s =>
    let x := sval (s.word POS.CMPV (4 * p + j) - c0)
    let dir := s.g POS.CMPC_DIRSEL (4 * p + j)
    if s.gb POS.CMPC_EN (4 * p + j) && (if 0 < d then decide (0 < x ∧ x ≤ d) && dir != 2 else decide (d ≤ x ∧ x < 0) && dir != 1)
    then State.cmpFire p j stamp s else s) s

/-- An index reset is not motion: every enabled compare is tested against the new count, and none fires (R311). -/
def State.cmpRetest (p : Nat) (s : State) : State :=
  overL [0, 1, 2, 3] (fun j s =>
    if s.gb POS.CMPC_EN (4 * p + j) then s.pbit POS.STAT_CMPBEHIND p j (s.cmpBehind p j) else s) s

/-! Emulators. -/

/-- A count change of the source reaches an emulator (R314, R315). -/
def State.emuMove (d : Int) (e : Nat) (s : State) : State :=
  if s.gb POS.EMUST_HOLD e then
    if s.emuSrcOk e then State.emuResume e s else s
  else
    let m : Int := s.g POS.EMUDIV_M e
    let acc := (s.emul e).acc + s.g POS.EMUDIV_N e * d
    let q := if m = 0 then 0 else acc.tdiv m
    let s1 := State.modEmu e (fun x => { x with acc := acc - q * m, backlog := x.backlog + q }) s
    if 256 < (s1.emul e).backlog.natAbs then State.emuHold e ((s1.pb POS.EMUST_OVF e true).raise 20 0xB3 e) else s1

/-- EMULATOR_EDGE (R314): one edge of the backlog, once MINGAP has passed. -/
def State.emuEdge (e : Nat) (s : State) : State :=
  let x := s.emul e
  if !s.up || !s.gb POS.EMUCFG_EN e || s.gb POS.EMUST_HOLD e || x.backlog == 0
    || decide (s.tbase < x.lastEdge + s.g POS.EMUCFG_MINGAP e) then s
  else
    let d := sgnI x.backlog
    let c := x.count + ofInt d
    let z := match s.g POS.EMUCFG_ZMODE e with
      | 1 => x.idxDue
      | 2 => s.g POS.EMUCFG_ZCPR e != 0 && sval c % (s.g POS.EMUCFG_ZCPR e : Int) == 0
      | _ => false
    State.modEmu e (fun x => { x with backlog := x.backlog - d, count := c, lastEdge := s.tbase,
                                      phase := x.phase + BitVec.ofInt 2 d, z := z, idxDue := false }) s

/-- EMULATOR_EDGE (R314). -/
def execEmulatorEdge (e : Fin 4) (s : State) : Out := .next (State.emuEdge e s)

/-- An emulator is enabled: its accumulator starts at 0 (R314), held while its source is at fault (R315). -/
def State.emuStart (e : Nat) (s : State) : State :=
  let s1 := { s with emu := upd s.emu e fun x => { x with acc := 0, backlog := 0, idxDue := false } }
  s1.pb POS.EMUST_HOLD e (!s1.emuSrcOk e)

/-! Counting and speed. -/

/-- v of R304: `k` counts in `ticks`, signed by `neg`, with the saturation told. -/
def State.speedOf (s : State) (p : Nat) (k : Int) (ticks : Nat) : Int :=
  rndDiv (k * (200000000 * 2 ^ 31)) (max 1 (ticks * (s.word POS.SPDFS p).toNat) : Nat)

/-- Write a speed, its saturation and its validity. -/
def State.putSpeed (p : Nat) (v : Int) (valid : Bool) (s : State) : State :=
  ((s.setWord POS.SPEED p (ofInt (sat31 v))).pb POS.STAT_SPDSAT p (sat31 v != v)).pb POS.STAT_SPD_VALID p valid

/-- A counted edge in direction `down` brings the speed up to date (R304). -/
def State.edgeSpeed (p : Nat) (down : Bool) (s : State) : State :=
  let x := s.port p
  let s1 := (s.pb POS.STAT_DIR p down).pb POS.STAT_STILL p false
  if x.edges.isEmpty then State.modPos p (fun x => { x with edges := [s.tbase], moved := true }) s1
  else if s.gb POS.STAT_DIR p != down then
    State.putSpeed p 0 false (State.modPos p (fun x => { x with edges := [s.tbase] }) s1)
  else
    let l := (s.tbase :: x.edges).take (2 ^ s.g POS.SPDTMO_AVG p + 1)
    let k : Int := (l.length - 1 : Nat)
    let v := s1.speedOf p (if down then -k else k) (s.tbase - l.getLastD s.tbase)
    State.putSpeed p v true (State.modPos p (fun x => { x with edges := l }) s1)

/-- One counted edge (R294, R296). -/
def State.count (p : Nat) (down : Bool) (s : State) : State :=
  let d : Int := if down then -1 else 1
  let c0 := s.word POS.CNT p
  let s1 := State.edgeSpeed p down (s.setWord POS.CNT p (c0 + ofInt d))
  overL (s1.emusOf p) (State.emuMove d) (State.cmpUpdate p c0 d s.tbase s1)

/-- An edge that resets the count on a qualified index (R297, R298). -/
def State.indexReset (p : Nat) (down : Bool) (s : State) : State :=
  let d : Int := if down then -1 else 1
  let would := s.word POS.CNT p + ofInt d
  let val := s.word POS.IDXVAL p
  let always := s.g POS.CFG_IDX p == 1
  let cpr : Int := s.g POS.REV_CPR p + 1
  let bad := always && decide (1 ≤ (s.port p).idxCount) && sval (would - val) % cpr != 0
  let s1 := State.edgeSpeed p down (s.setWord POS.CNT p val)
  let s2 := (s1.pb POS.STAT_IDXDONE p true).raise 20 0xB1 p
  let s3 := if always then State.modPos p (fun x => { x with idxCount := x.idxCount + 1 }) s2 else s2.pb POS.STAT_ARMED p false
  let s4 := State.cmpRetest p (if bad then State.posErr p 0 s3 else s3)
  overL (s4.emusOf p) (fun e s => State.modEmu e (fun x => { x with idxDue := true }) (State.emuMove d e s)) s4

/-- The place of (A, B) in the quadrature sequence in which A leads B. -/
def quadPos (a b : Bool) : Nat := if a then (if b then 2 else 1) else (if b then 3 else 0)

/-- Accepted levels of A, B and Z (R294, R297). -/
def State.encoderEdge (p : Nat) (a b z : Bool) (s : State) : State :=
  let x := s.port p
  let s1 := State.modPos p (fun x => { x with a := a, b := b, zActive := x.zActive && z }) s
  if s.posMode p ≠ 1 then s1
  else
    let step := (quadPos a b + 4 - quadPos x.a x.b) % 4
    if step = 0 then s1
    else if step = 2 then State.posErr p 0 s1
    else
      let down := (step == 3) != s.gb POS.CFG_DIR p
      let q := z && (!s.gb POS.CFG_ZQUAL p || (a && b))
      let idx := s.g POS.CFG_IDX p
      if q && !(s1.port p).zActive && idx != 0 then
        let s2 := State.modPos p (fun x => { x with zActive := true }) s1
        if idx = 1 || s.gb POS.STAT_ARMED p then State.indexReset p down s2 else State.count p down s2
      else State.count p down s1

/-- ENCODER_EDGE (R294). -/
def execEncoderEdge (n : Fin 8) (a b z : Bool) (s : State) : Out := .next (State.encoderEdge n a b z s)

/-- The sector of a Hall state (R296). -/
def hallSector (h : Nat) : Option Nat := [none, some 0, some 2, some 1, some 4, some 5, some 3, none].getD h none

/-- HALL_TRANSITION (R296). A port that does not count still sees the state of its inputs. -/
def State.hall (p h : Nat) (s : State) : State :=
  if s.posMode p ≠ 2 then State.modPos p (fun y => { y with sector := hallSector h }) s
  else
    match hallSector h with
    | none => State.posErr p 0 s
    | some x =>
      let s1 := State.modPos p (fun y => { y with sector := some x }) s
      match (s.port p).sector with
      | none => s1
      | some y =>
        let step := (x + 6 - y) % 6
        if step = 0 then s1
        else if step = 1 || step = 5 then State.count p ((step == 5) != s.gb POS.CFG_DIR p) s1
        else State.posErr p 0 s1

/-- HALL_TRANSITION (R296). -/
def execHallTransition (n h : Fin 8) (s : State) : Out := .next (State.hall n h s)

/-- A pair of a port is checked for wire disagreement: 0 A, 1 B, 2 Z (R295). -/
def State.wireChecked (s : State) (p pair : Nat) : Bool :=
  match s.posMode p with
  | 1 => decide (pair < 2) || s.g POS.CFG_IDX p != 0
  | 3 => decide (pair < 2)
  | 4 => decide (pair < 2)
  | _ => false

/-- WIRE_DISAGREEMENT (R295). -/
def execWireDisagreement (n : Fin 8) (pair : Fin 3) (s : State) : Out :=
  .next (if s.wireChecked n.val pair.val then State.posErr n.val 2 s else s)

/-- SPEED_TIMEOUT (R305). -/
def State.speedTimeout (p : Nat) (s : State) : State :=
  if s.posMode p = 0 ∨ s.posMode p = 5 then s
  else
    State.modPos p (fun x => { x with edges := [], moved := false, goodRun := 0 })
      (((s.setWord POS.SPEED p 0).pb POS.STAT_SPD_VALID p false).pb POS.STAT_STILL p true)

/-- SPEED_TIMEOUT (R305). -/
def execSpeedTimeout (n : Fin 8) (s : State) : Out := .next (State.speedTimeout n s)

/-- A count update by `d` that comes with a serial frame or a loop update, stamped `stamp`. -/
def State.advanceCount (p : Nat) (d : Int) (stamp : Nat) (s : State) : State :=
  if d = 0 then s
  else
    let c0 := s.word POS.CNT p
    let s1 := ((s.setWord POS.CNT p (c0 + ofInt d)).pb POS.STAT_DIR p (decide (d < 0))).pb POS.STAT_STILL p false
    overL (s1.emusOf p) (State.emuMove d) (State.cmpUpdate p c0 d stamp s1)

/-! Serial encoders. -/

/-- SERIAL_FRAME_START (R299): not before the previous frame has ended, nor during a slice of the serial engine (R316). -/
def State.frameStart (p : Nat) (s : State) : State :=
  if (s.posMode p = 3 ∨ s.posMode p = 4) ∧ (s.port p).inFrame.isNone ∧ !s.bgs.slices.contains (.port (Fin.ofNat 8 p)) then
    State.modPos p (fun x => { x with inFrame := some s.tbase }) s
  else s

/-- SERIAL_FRAME_START (R299). -/
def execSerialFrameStart (n : Fin 8) (s : State) : Out := .next (State.frameStart n s)

/-- The binary value of an `n`-bit Gray code: each bit is the exclusive or of the bits from it upward. -/
def fromGray (n g : Nat) : Nat := (List.range n).foldl (fun a i => a ^^^ (g / 2 ^ i)) 0

/-- The parity of the low `n` bits: true for an odd number of ones. -/
def parityOf (n d : Nat) : Bool := (List.range n).foldl (fun a i => a != d.testBit i) false

/-- CRC-6 of BiSS-C over bits given most significant first (R300). -/
def crc6 (l : List Bool) : Nat :=
  l.foldl (fun c b => if ((c.testBit 5) != b) then (c * 2 % 64) ^^^ 3 else c * 2 % 64) 0

/-- The bits of a BiSS-C frame the CRC covers. -/
def bissBits (n : Nat) (f : SerialFrame) : List Bool := (List.range n).map (fun i => f.data.testBit (n - 1 - i)) ++ [f.nE, f.nW]

/-- The data word of a frame: binary, or Gray code in SSI with GRAY = 1 (R300). -/
def State.frameValue (s : State) (p : Nat) (f : SerialFrame) : Nat :=
  let raw := f.data % 2 ^ s.g POS.SER_NBITS p
  if s.posMode p != 4 && s.gb POS.SER_GRAY p then fromGray (s.g POS.SER_NBITS p) raw else raw

/-- A frame is not good (R301, R306). -/
def State.badFrame (p : Nat) (s : State) : State :=
  State.modPos p (fun x => { x with goodRun := 0 }) (s.pb POS.STAT_SPD_VALID p false)

/-- The speed after a good frame: `d` counts since the previous good one (R306). -/
def State.frameSpeed (p : Nat) (d : Int) (ticks : Nat) (s : State) : State :=
  let x := s.port p
  let rev := d != 0 && x.moved && (s.gb POS.STAT_DIR p != decide (d < 0))
  let s1 := if d = 0 then s else State.modPos p (fun x => { x with moved := true }) s
  if rev then State.putSpeed p 0 false s1
  else if 1 ≤ x.goodRun then State.putSpeed p (s.speedOf p d ticks) true s1
  else s1

/-- A good frame with data word `v`, stamped `stamp` (R301). -/
def State.goodFrame (p v stamp : Nat) (s : State) : State :=
  let x := s.port p
  let n := s.g POS.SER_NBITS p
  match x.lastData with
  | none =>
    let s1 := State.modPos p (fun x => { x with cntSet := true, lastData := some v, lastStamp := stamp, goodRun := 1 })
      (s.setWord POS.CNT p (BitVec.ofNat 32 v))
    overL (s1.emusOf p) (fun e s => if s.emuSrcOk e then State.emuResume e s else s) s1
  | some w =>
    let d0 := sext n (v + 2 ^ n - w % 2 ^ n)
    let d := if s.gb POS.CFG_DIR p then -d0 else d0
    let s1 := State.frameSpeed p d (stamp - x.lastStamp) s
    State.advanceCount p d stamp
      (State.modPos p (fun x => { x with lastData := some v, lastStamp := stamp, goodRun := x.goodRun + 1 }) s1)

/-- The conditions of R301 that a received frame meets: SEQERR, CRCERR and ENCERR. -/
def State.frameErrs (s : State) (p : Nat) (f : SerialFrame) : Bool × Bool × Bool :=
  let biss := s.posMode p == 4
  let n := s.g POS.SER_NBITS p
  let raw := f.data % 2 ^ n
  let jump := match (s.port p).lastData with
    | none => false
    | some w => decide (s.g POS.REV_CPR p + 1 < 4 * (sext n (s.frameValue p f + 2 ^ n - w % 2 ^ n)).natAbs)
  if biss && !f.started then (true, false, false)
  else (jump, if biss then f.crc.toNat != 63 - crc6 (bissBits n f) else s.gb POS.SER_PAR p && (parityOf n raw != f.parity), biss && !f.nE)

/-- A frame ends: each condition sets its flag, `late` that the data line is not back high within TOUT, and its value is used
if it is good (R300, R301). -/
def State.frameEnd (p : Nat) (f : SerialFrame) (late : Bool) (s : State) : State :=
  match (s.port p).inFrame with
  | none => s
  | some stamp =>
    let s0 := State.modPos p (fun x => { x with inFrame := none }) s
    if s.posMode p ≠ 3 ∧ s.posMode p ≠ 4 then s0
    else
      let (seq, crc, enc) := s.frameErrs p f
      let s1 := if seq || late then State.posErr p 0 s0 else s0
      let s2 := if crc then State.posErr p 1 s1 else s1
      let s3 := if enc then State.posErr p 3 s2 else s2
      if seq || late || crc || enc then State.badFrame p s3 else State.goodFrame p (s.frameValue p f) stamp s3

/-- SERIAL_FRAME_RECEIVED (R301): the frame has come, and the data line is back high. -/
def execSerialFrameReceived (n : Fin 8) (f : SerialFrame) (s : State) : Out := .next (State.frameEnd n f false s)

/-- SERIAL_FRAME_TIMEOUT (R301): the data line is not back high within TOUT after the frame. -/
def execSerialFrameTimeout (x : LateFrame) (s : State) : Out := .next (State.frameEnd x.port x.frame true s)

/-! Resolvers. Angles and speeds of the loop are held in units of 2^−71 of a half turn, and half turns per tick, with
its quotients rounded openly (log entry 23). -/

/-- A signed quotient by 2^k with an open rounding. -/
def State.openShift (s : State) (x : Int) (k : Nat) : Int := sgnI x * s.openDiv x.natAbs (2 ^ k)

/-- The loop on a capture of sine `y` and cosine `x` (R302). -/
def State.resolver (p : Nat) (y x : Int) (s : State) : State :=
  if s.posMode p ≠ 5 ∨ s.bgs.slices.contains (.port (Fin.ofNat 8 p)) then s
  else
    let r := s.port p
    let code := BitVec.ofNat 32 (r.phi / 2 ^ 40).toNat
    let e := y * cosCode code - x * sinCode code
    let w := r.omega + s.openShift e (s.g POS.RSLV_KIS p)
    let f := r.phi + w * s.g POS.EXC_PER (s.g POS.RSLV_EXC p) + s.openShift e (s.g POS.RSLV_KPS p)
    let d := f / 2 ^ 56 - r.phi / 2 ^ 56
    let q := (y * y + x * x).toNat * 4096
    let amp := decide (s.g POS.RSLV_AMIN p ^ 2 * 2 ^ 80 ≤ q ∧ q ≤ s.g POS.RSLV_AMAX p ^ 2 * 2 ^ 80)
    let ok := amp && decide (e.natAbs < 2 ^ 61)
    let run := if ok then min 16 (r.lockRun + 1) else 0
    let lock := run == 16
    let first := lock && !r.cntSet
    let s1 := State.modPos p (fun z => { z with phi := f % 2 ^ 72, omega := w, lockRun := run, locked := lock,
                                                cntSet := z.cntSet || lock, lastStamp := s.tbase }) s.used
    let s2 := if amp then s1 else State.posErr p 2 s1
    let s3 := if first then s2.setWord POS.CNT p (BitVec.ofNat 32 (f % 2 ^ 72 / 2 ^ 56).toNat)
              else if r.cntSet then State.advanceCount p (if s.gb POS.CFG_DIR p then -d else d) s.tbase s2 else s2
    State.putSpeed p (rndDiv (w * 200000000 * (if s.gb POS.CFG_DIR p then -1 else 1)) (2 ^ 25 * max 1 (s.word POS.SPDFS p).toNat : Nat)) lock s3

/-- RESOLVER_UPDATE (R302). -/
def execResolverUpdate (n : Fin 8) (s c : Int) (st : State) : Out := .next (State.resolver n s c st)

/-! Writes. -/

/-- A port starts from standstill (R293); a Hall port is in the sector of its inputs (R296). -/
def State.portStart (p : Nat) (s : State) : State :=
  let set := s.g POS.CFG_MODE p == 1 || s.g POS.CFG_MODE p == 2
  let s1 := State.putSpeed p 0 false ((s.setWord POS.CNT p 0).pb POS.STAT_STILL p true)
  State.modPos p (fun x => { x with cntSet := set, edges := [], moved := false, zActive := false, idxCount := 0,
                                    lastData := none, lastStamp := 0, goodRun := 0, inFrame := none, phi := 0, omega := 0,
                                    lockRun := 0, locked := false }) s1

/-- A port is disabled: its compares clear (R313), and emulators that follow it hold (R315). -/
def State.portStop (p : Nat) (s : State) : State :=
  let s1 := overL [0, 1, 2, 3] (fun j s => (s.pb POS.CMPC_EN (4 * p + j) false).pbit POS.STAT_CMPBEHIND p j false) s
  let s2 := State.modPos p (fun x => { x with cntSet := false, inFrame := none, locked := false }) s1
  overL (s2.emusOf p) State.emuHold s2

/-- The frame time F in ticks (R299). -/
def State.frameTicks (s : State) (p : Nat) : Nat :=
  let n := s.g POS.SER_NBITS p
  let d := 2 * s.g POS.SER_DIV p
  if s.g POS.CFG_MODE p = 3 then (n + 1 + s.g POS.SER_PAR p) * d + s.g POS.SERT_SKEW p else (n + 11) * d + 200

/-- The resolver conditions of R302. -/
def State.resolverOk (s : State) (p : Nat) : Bool :=
  let e := s.g POS.RSLV_EXC p
  let a := s.g POS.RSLV_CSIN p
  let b := s.g POS.RSLV_CCOS p
  s.gb POS.EXC_EN e && decide (a < 24 ∧ b < 24) && s.convMode a != 0 && s.convMode b != 0
    && [a, b].all (fun c => s.g ADC.TRG_SRC c == 1 && s.g ADC.TPER_PER c == s.g POS.EXC_PER e)
    && s.g ADC.TPH_PH a == s.g ADC.TPH_PH b

/-- The checks of a write that sets CFG.EN, on the state after it (R293). -/
def State.portEnableCode (s : State) (p : Nat) : Code :=
  let m := s.g POS.CFG_MODE p
  let cpr := s.g POS.REV_CPR p + 1
  let ser := m == 3 || m == 4
  firstCode [
    (decide (6 ≤ m) || s.g POS.CFG_IDX p == 3, eENUM),
    ((m == 1 && decide (cpr < 4))
      || (ser && !(cpr == 2 ^ s.g POS.SER_STBITS p && decide (8 ≤ s.g POS.SER_NBITS p ∧ s.g POS.SER_NBITS p ≤ 40
            ∧ s.g POS.SER_STBITS p ≤ s.g POS.SER_NBITS p ∧ 10 ≤ s.g POS.SER_DIV p
            ∧ s.frameTicks p + 20 ≤ s.g POS.SERT_LEAD p)))
      || (decide (2 ≤ m) && s.g POS.CFG_IDX p != 0)
      || s.word POS.SPDFS p == 0 || s.g POS.SPDTMO_TMO p == 0, eRANGE),
    (m == 5 && !s.resolverOk p, eRANGE)]

/-- The ownership a write to a register of port `p` needs (R293). -/
def State.posRights (s : State) (n : Fin 4) (p : Nat) : Code :=
  let ax := (List.range 8).filter fun a => s.gb CTL.AXCFG_EN a && (s.g CTL.AXCFG_PORT a == p || s.g CTL.AXCFG_ALTPORT a == p)
  if ax.isEmpty then if s.gb HOST.RIGHTS_SAFEOWN n then eOK else eOWNER
  else if ax.all fun a => s.owns n (s.g CTL.AXCFG_BR a) then eOK else eOWNER

/-- The ports whose rights a write to EXCe needs (R293). -/
def State.excRights (s : State) (n : Fin 4) (e : Nat) : Code :=
  let ps := (List.range 8).filter fun p => s.g POS.CFG_MODE p == 5 && s.g POS.RSLV_EXC p == e
  if ps.isEmpty then if s.gb HOST.RIGHTS_SAFEOWN n then eOK else eOWNER
  else (ps.map fun p => s.posRights n p).foldl (fun a c => if a = eOK then c else a) eOK

/-- ARM is set (R297). -/
def State.armIndex (p : Nat) (s : State) : State := s.pb POS.STAT_ARMED p true

/-- A READ of a port's count, speed or angle is deferred during a slice of its serial engine or loop (R316). -/
def State.posDeferred (s : State) (p : Nat) : Bool :=
  decide (3 ≤ s.posMode p) && s.bgs.slices.contains (.port (Fin.ofNat 8 p))

end Sys2Proof.Machine
end

