-- ==== Sys2Proof/Machine/EventQ.lean ====
section
/-! DEFINITION. Event delivery (R317 to R331): the pending pool, targets, moderation and hold-off, and the records. -/

namespace Sys2Proof.Machine

/-- The source group of a source (R318). -/
def groupOf (src : Nat) : Nat :=
  if src ≤ 0x3FF then bits src 5 5 else if src ≤ 0xFFFF then 32 + bits src 12 4 else 47 + bits src 16 4

/-- A raise's number. -/
def Raise.num (r : Raise) : Nat := r.src.toNat

/-- A raise's group. -/
def Raise.grp (r : Raise) : Nat := groupOf r.num

/-- The pool holds a place for a raise (R320). -/
def State.poolRoom (s : State) (r : Raise) : Bool :=
  decide (s.ev.pool.length < 1024)
    && (decide (r.num < 0x400) || decide ((s.ev.pool.filter fun x => decide (0x400 ≤ x.num)).length < 768))

/-- A raise is lost for want of an entry (R320). -/
def State.loseRaise (s : State) : State :=
  let s1 := s.inc EVT.STAT_LOST 0
  { s1 with ev := { s1.ev with lost := match s1.ev.lost with
      | none => some (1, s.tbase, false)
      | some (n, t, d) => some (min (2 ^ 32 - 1) (n + 1), t, d) } }

/-- Remove the first element that a test picks out. -/
def dropFirst {α : Type} (f : α → Bool) : List α → List α
  | [] => []
  | x :: l => if f x then l else x :: dropFirst f l

/-- Change the first element that a test picks out. -/
def mapFirst {α : Type} (f : α → Bool) (g : α → α) : List α → List α
  | [] => []
  | x :: l => if f x then g x :: l else x :: mapFirst f g l

/-- The earliest raise on its way from island `i` reaches MEMF (R320). -/
def State.eventIn (i : Nat) (s : State) : State :=
  match s.ev.inFlight.find? fun r => r.island == i with
  | none => s
  | some r =>
    let s1 := { s with ev := { s.ev with inFlight := dropFirst (fun x => x.island == i) s.ev.inFlight } }
    if !s.up then s1
    else if s1.poolRoom r then { s1 with ev := { s1.ev with pool := s1.ev.pool ++ [{ r with since := s.tbase }] } }
    else s1.loseRaise

/-- EVENT_RAISE (R320). -/
def execEventRaise (i : Fin 26) (s : State) : Out := .next (State.eventIn i s)

/-! Targets (R322). -/

/-- The bridge whose owner is responsible for a source, if the source has one. -/
def State.srcBridge (s : State) (src tag : Nat) : Option Nat :=
  if src = 0x90 then some (tag / 6)
  else if src = 0x91 ∨ src = 0x92 then some tag
  else if 0x80 ≤ src ∧ src ≤ 0x86 then some (s.g CTL.AXCFG_BR tag)
  else if 0x93 ≤ src ∧ src ≤ 0x96 then (List.range 8).find? fun k => s.gbit DCL.CFG_BRMASK tag k
  else if 0xB0 ≤ src ∧ src ≤ 0xB2 then
    let p := if src = 0xB2 then tag / 4 else tag
    ((List.range 8).find? fun n => s.gb CTL.AXCFG_EN n && s.g CTL.AXCFG_PORT n == p).map fun n => s.g CTL.AXCFG_BR n
  else none

/-- The responsible port (R322). -/
def State.responsible (s : State) (r : Raise) : Option (Fin 4) :=
  match r.port with
  | some n => some n
  | none =>
    match (s.srcBridge r.num r.tag.toNat).bind s.ownerOf with
    | some n => some n
    | none => s.safeOwner

/-- Where a record goes: nowhere yet, away, or into a queue (R322, R323). -/
inductive Target
  | unresolved
  | discard
  | queue (q : Nat)
  deriving DecidableEq, Repr

/-- The target of a record, resolved now. -/
def State.target (s : State) (r : Raise) : Target :=
  let g := r.grp
  let t := s.g EVT.GRP_TGT g
  let own := match s.responsible r with
    | some n => Target.queue (8 + n.val)
    | none => .unresolved
  if s.gb EVT.GRP_MASK g then .discard
  else if r.num = 0x40 ∨ (0x44 ≤ r.num ∧ r.num ≤ 0x47) then own
  else if t ≤ 3 then .queue (8 + t)
  else if t ≤ 7 then if s.gb EVT.QBIND_EN (t - 4) then .queue (8 + t) else .discard
  else own

/-- Class S. -/
def State.classS (s : State) (r : Raise) : Bool := s.gb EVT.GRP_CLS r.grp

/-- A window of queue `q` is open, or the batch of the last one is still being written (R324). -/
def State.windowOpen (s : State) (q : Nat) : Bool :=
  (at' s.ev.window (q - 8) none).isSome || s.ev.pool.any fun x => x.batch == some q && s.target x == .queue q

/-- A record is held by a moderation window or by a hold-off (R324, R325). -/
def State.heldRec (s : State) (r : Raise) (q : Nat) : Bool :=
  (s.windowOpen q && r.batch != some q && !(!s.classS r && s.qLevel q == 0))
    || (s.classS r && (at' s.ev.hold r.grp none).isSome)

/-- The records that may be chosen, a full queue apart (R321, R329): in BOOT none, nor within 2 ticks of the previous write or
discard, and none on the tick on which it enters the pool. -/
def State.candidates (s : State) : List Raise :=
  let lost : List Raise := match s.ev.lost with
    | some (n, t, d) => [⟨1, 0, BitVec.ofNat 32 n, 0, t, 18, none, d, none, t⟩]
    | none => []
  if !s.up || s.mode = mBOOT || decide (s.tbase < s.ev.slotAt) then []
  else (s.ev.pool ++ lost).filter fun r => decide (r.since < s.tbase) && match s.target r with
    | .unresolved => false
    | .discard => true
    | .queue q => !s.heldRec r q && !(s.qFull q && r.dropped)

/-- The least element by an order given as a strict test; the first of equals. -/
def leastBy {α : Type} (lt : α → α → Bool) : List α → Option α
  | [] => none
  | x :: l => some (l.foldl (fun a b => if lt b a then b else a) x)

/-- The record the arbiter chooses, by the rule of R321: among records of one island and one stamp the lowest source number,
whatever order they were raised in (R28; DESIGN CHOICE, log entry 115). -/
def chooseRecord (l : List Raise) : Option Raise :=
  match leastBy (fun (a b : Raise) => decide (a.num < b.num ∨ (a.num = b.num ∧ (a.stamp < b.stamp ∨ (a.stamp = b.stamp ∧ a.island < b.island))))) l with
  | none => none
  | some x => leastBy (fun (a b : Raise) => decide (a.island < b.island ∨ (a.island = b.island ∧ a.num < b.num)))
      (l.filter fun r => r.stamp == x.stamp)

/-- A record leaves the pool, or the dedicated entry; the next write slot comes 2 ticks later (R321). -/
def State.unpool (r : Raise) (s : State) : State :=
  if r.num = 1 then { s with ev := { s.ev with lost := none, slotAt := s.tbase + 2 } }
  else { s with ev := { s.ev with pool := dropFirst (fun x => x == r) s.ev.pool, slotAt := s.tbase + 2 } }

/-- The full queue of a chosen record has been counted (R326). -/
def State.markDropped (r : Raise) (s : State) : State :=
  if r.num = 1 then { s with ev := { s.ev with lost := s.ev.lost.map fun x => (x.1, x.2.1, true) } }
  else { s with ev := { s.ev with pool := mapFirst (fun x => x == r) (fun x => { x with dropped := true }) s.ev.pool } }

/-- HPn_IRQ_N is low (R59, R328); it stays high while the port is carried over Ethernet (R378). -/
def State.irqLow (s : State) (n : Nat) : Bool :=
  s.up && s.mode != mBOOT && s.qLevel (8 + n) != 0 && !s.gb EVT.PSLEEP_ASLEEP n && !s.gb ETH.HBIND_EN n

/-- The asleep port of queue `q` watches group `g` (R328). -/
def State.wakes (s : State) (q g : Nat) : Bool :=
  decide (q < 12) && s.gb EVT.PSLEEP_ASLEEP (q - 8)
    && (if g < 32 then s.gbit EVT.PWLO_GRP (q - 8) g else s.gbit EVT.PWHI_GRP (q - 8) (g - 32))

/-- The four words of a record (R319). -/
def recordWords (r : Raise) (wake cls : Bool) : List Word :=
  [BitVec.ofNat 32 ((if wake then 2 ^ 30 else 0) + (if cls then 2 ^ 28 else 0) + r.tag.toNat * 2 ^ 20 + r.num),
   r.data, BitVec.ofNat 32 r.stamp, BitVec.ofNat 32 (r.aux.toNat * 65536 + r.stamp / 2 ^ 32 % 65536)]

/-- Words as bytes. -/
def wordsBytes (l : List Word) : List Byte := l.flatMap fun w => leBytes 4 w.toNat

/-- Write a record into queue `q`, and into the event log if its group is logged (R319, R324, R325, R328, R405). -/
def State.writeRecord (r : Raise) (q : Nat) (s : State) : State :=
  let g := r.grp
  let cls := s.classS r
  let wake := s.wakes q g
  let rec16 := wordsBytes (recordWords r wake cls)
  let logged := if g < 32 then s.gbit NVS.LOGGRP_LO_GRP 0 g else s.gbit NVS.LOGGRP_HI_GRP 0 (g - 32)
  let s0 := State.qPush q rec16 (State.unpool r s)
  let s1 := if logged then State.logEntry rec16 s0 else s0
  let s2 := if wake then s1.pb EVT.PSLEEP_ASLEEP (q - 8) false else s1
  let win := s.g EVT.QMOD_WIN (q - 8)
  let opens := win != 0 && !s2.windowOpen q
  let hold := s.g EVT.GRP_HOLD g
  { s2 with ev := { s2.ev with
      window := if opens then upd s2.ev.window (q - 8) fun _ => some (s.tbase + 200 * win) else s2.ev.window
      hold := if cls && hold != 0 then upd s2.ev.hold g fun _ => some (s.tbase + 2000 * hold) else s2.ev.hold } }

/-- One write slot (R321, R326): a record whose queue is full counts one drop and lets the next go ahead. `fuel`
bounds the records passed by. -/
def State.writeSlot : Nat → State → State
  | 0, s => s
  | fuel + 1, s =>
    match chooseRecord s.candidates with
    | none => s
    | some r =>
      match s.target r with
      | .unresolved => s
      | .discard => (State.unpool r s).inc EVT.STAT_DISC 0
      | .queue q =>
        if s.qFull q then State.writeSlot fuel (State.markDropped r (s.inc QUE.QSTAT_DROPS q))
        else State.writeRecord r q s

/-- EVENT_WRITE_SLOT (R321). -/
def execEventWriteSlot (s : State) : Out := .next (State.writeSlot (s.ev.pool.length + 2) s)

/-- MODERATION_WINDOW_CLOSE (R324): the records waiting for the queue form one batch. -/
def State.windowClose (q : Nat) (s : State) : State :=
  if (at' s.ev.window q none).isNone then s
  else
    { s with ev := { s.ev with
        window := upd s.ev.window q fun _ => none
        pool := s.ev.pool.map fun r => if s.target r == .queue (8 + q) then { r with batch := some (8 + q) } else r } }

/-- MODERATION_WINDOW_CLOSE (R324). -/
def execModerationWindowClose (q : Fin 8) (s : State) : Out := .next (State.windowClose q s)

/-- HOLD_OFF_EXPIRY (R325). -/
def execHoldOffExpiry (g : Fin 64) (s : State) : Out :=
  .next { s with ev := { s.ev with hold := upd s.ev.hold g.val fun _ => none } }

/-! Writes. -/

/-- The first source of port `n`'s doorbells (R317). -/
def doorbellBase (n : Nat) : Nat := 0x10000 + n * 0x10000

/-- The answer to a doorbell of port `n` (R85, R317). -/
def doorbellCode (n : Fin 4) (v : Word) : Code :=
  let src := bits v.toNat 0 20
  if doorbellBase n ≤ src ∧ src ≤ doorbellBase n + 0xFFFF then eOK else eRIGHTS

/-- A doorbell of port `n` (R85, R319). -/
def State.ring (n : Fin 4) (v : Word) (s : State) : State :=
  s.raiseFull 18 (bits v.toNat 0 20) (bits v.toNat 20 8) 0 (BitVec.ofNat 16 n.val) none

/-- The answer to a write of QBIND of queue 12 + `q` by port `n` (R327); `was` is the state before it. -/
def State.qbindCode (was s : State) (n : Fin 4) (q : Nat) : Code :=
  let t := s.g EVT.QBIND_TASK q
  if !s.gb EVT.QBIND_EN q then
    if was.gb EVT.QBIND_EN q && was.g EVT.QBIND_TASK q != t then eRANGE else eOK
  else firstCode [
    ((s.task? t).isNone, eNOTASK),
    (s.g PLC.TLOC_PORT t != n.val, eOWNER),
    (match s.task? t with
      | none => true
      | some x => !x.d.que.contains (12 + q, false), eRANGE),
    (was.gb EVT.QBIND_EN q && was.g EVT.QBIND_TASK q != t, eRANGE)]

end Sys2Proof.Machine
end

