-- ==== Sys2Proof/Machine/SafeIo.lean ====
section
/-! DEFINITION. The pins of the safety functions (R334 to R343): the STO inputs, the safe-input pairs and their test
pulses, and the tests of the safe outputs. -/

namespace Sys2Proof.Machine

/-- Change a safety axis. -/
def State.modSafe (a : Nat) (f : SafeAxis → SafeAxis) (s : State) : State :=
  { s with safe := { s.safe with axes := upd s.safe.axes a f } }

/-- A safety axis. -/
def State.safeAx (s : State) (a : Nat) : SafeAxis := at' s.safe.axes a SafeAxis.init

/-- Change a safe output. -/
def State.modSout (j : Nat) (f : Sout → Sout) (s : State) : State :=
  { s with safe := { s.safe with sout := upd s.safe.sout j f } }

/-- A safe output. -/
def State.sout (s : State) (j : Nat) : Sout := at' s.safe.sout j Sout.none

/-! STO inputs. -/

/-- The status bit of STO_A (`b` false) or STO_B. -/
def stoBit (b : Bool) : FRef := if b then SAFE.STAT_STOB else SAFE.STAT_STOA

/-- An STO input demands (R261, R334, R347): STO on every unit, also one that is configured later, every chopper armed, and
in RUN entry to SAFE. -/
def State.stoInput (b : Bool) (s : State) : State :=
  if !s.up || s.gb (stoBit b) then s else
  let s1 := (s.pb (stoBit b) 0 true).raise 1 0xC1 (if b then 1 else 0)
  let s2 := if s1.gb SAFE.STAT_STOFLT && s1.gb SAFE.STAT_STOA && s1.gb SAFE.STAT_STOB then
      { s1 with safe := { s1.safe with fltArm := max 1 s1.safe.fltArm } } else s1
  let s3 := overL s2.allUnits (fun u => State.forceSto .inputs u) s2
  let s4 := State.relink { s3 with units := s3.units.map fun x => { x with stoIn := true } }
  if s4.mode = mRUN then State.enterSafe 3 none s4 else s4

/-- STO_INPUT_DEMAND (R334). -/
def execStoInputDemand (b : Bool) (s : State) : Out := .next (State.stoInput b s)

/-- An STO input ends its demand (R334, R335): the forced STO stays until a reset. -/
def State.stoOpen (b : Bool) (s : State) : State :=
  let s1 := s.pb (stoBit b) 0 false
  if s1.safe.fltArm = 1 && !s1.stoDemand then { s1 with safe := { s1.safe with fltArm := 2 } } else s1

/-- STO_INPUT_RELEASE (R334). -/
def execStoInputRelease (b : Bool) (s : State) : Out := .next (if s.up then State.stoOpen b s else s)

/-- One input has demanded for longer than STODISC while the other stayed high (R335). -/
def State.stoDisc (b : Bool) (s : State) : State :=
  if s.up && s.gb (stoBit b) && !s.gb (stoBit !b) then
    ({ s.pb SAFE.STAT_STOFLT 0 true with safe := { s.safe with fltArm := 0 } }).raise 1 0xC1 2
  else s

/-- STO_DISCREPANCY (R335). -/
def execStoDiscrepancy (b : Bool) (s : State) : Out := .next (State.stoDisc b s)

/-! Safe inputs. -/

/-- A safe-input channel past the end of the array. -/
def SinCh.none : SinCh := ⟨false, false⟩

/-- A safe-input channel. -/
def State.sinCh (s : State) (ch : Nat) : SinCh := at' s.safe.sin ch SinCh.none

/-- Change a safe-input channel. -/
def State.modSin (ch : Nat) (f : SinCh → SinCh) (s : State) : State :=
  { s with safe := { s.safe with sin := upd s.safe.sin ch f } }

/-- Channel `ch` stands at its demand level (R336): low, but high for channel B of an ANTIV pair. -/
def State.sinDemands (s : State) (ch : Nat) : Bool := (s.sinCh ch).level == (ch % 2 == 1 && s.gb SAFE.SIN_TYPE (ch / 2))

/-- The TPO of channel `ch`; 8 for none (R337). -/
def State.sinTpo (s : State) (ch : Nat) : Nat := if ch % 2 = 0 then s.g SAFE.SIN_TPA (ch / 2) else s.g SAFE.SIN_TPB (ch / 2)

/-- A new demand of pair `i` with FN = DISCH discharges its links (R345). -/
def State.pairDischarge (i : Nat) (s : State) : State :=
  if s.g SAFE.MAP_FN i = 6 then
    overL [0, 1, 2, 3] (fun l s => if s.gbit SAFE.MAP_MASK i l then State.dscGo l s else s) s
  else s

/-- Bring the demand of pair `i` up to date (R336); a pair that is not enabled demands nothing. -/
def State.pairUpdate (i : Nat) (s : State) : State :=
  let a := s.sinDemands (2 * i)
  let b := s.sinDemands (2 * i + 1)
  let dem := s.gb SAFE.SIN_EN i && (a || b || s.gb SAFE.SINST_PAIRFLT i)
  let was := s.gb SAFE.SINST_DEMAND i
  let s1 := { s.pb SAFE.SINST_DEMAND i dem with safe := { s.safe with
    pair := upd s.safe.pair i fun x => { demand := dem, bothDem := x.bothDem || (a && b) } } }
  if dem && !was then State.pairDischarge i s1 else s1

/-- A debounced level changes (R336); inside a test-pulse window it does not count (R337). -/
def State.sinLevel (ch : Nat) (level : Bool) (s : State) : State :=
  if !s.up || (s.sinCh ch).window then s else
  let s1 := State.modSin ch (fun x => { x with level := level }) s
  State.pairUpdate (ch / 2) (s1.pb (if ch % 2 = 0 then SAFE.SINST_LEVA else SAFE.SINST_LEVB) (ch / 2) level)

/-- SAFE_INPUT_LEVEL (R336). -/
def execSafeInputLevel (ch : Fin 16) (level : Bool) (s : State) : Out := .next (State.sinLevel ch level s)

/-- Test pulses run: in READY, RUN and SAFE, and in CONFIGURE only while the configuration is locked (R59). -/
def State.tpoRuns (s : State) (k : Nat) : Bool :=
  s.up && s.padSupply && s.gbit SAFE.TPO_EN 0 k
    && (s.mode == mREADY || s.mode == mRUN || s.mode == mSAFE || (s.mode == mCONFIGURE && s.gb SAFE.STAT_LOCKED))

/-- TPOk begins its off-pulse: the windows of its channels open (R337). -/
def State.tpoPulse (k : Nat) (s : State) : State :=
  if s.tpoRuns k then
    overL (List.range 16) (fun ch s =>
      if s.gb SAFE.SIN_EN (ch / 2) && s.sinTpo ch == k then State.modSin ch (fun x => { x with window := true }) s else s) s
  else s

/-- TEST_PULSE_START (R337). -/
def execTestPulseStart (k : Fin 8) (s : State) : Out := .next (State.tpoPulse k s)

/-- A fault of pair `i` latches with its cause, and the pair counts as demanding (R338). A latched fault keeps its
cause. -/
def State.pairFault (i cause : Nat) (s : State) : State :=
  if s.gb SAFE.SINST_PAIRFLT i then s else
  let s1 := (s.pb SAFE.SINST_PAIRFLT i true).p SAFE.SINST_FCAUSE i cause
  let s2 := { s1 with safe := { s1.safe with pair := upd s1.safe.pair i fun x => { x with bothDem := false } } }
  (State.pairUpdate i s2).raise 1 0xC2 i

/-- A channel's window ends (R337); a pair switched off meanwhile takes no fault. -/
def State.windowEnd (ch : Nat) (wentLow : Bool) (s : State) : State :=
  if !(s.sinCh ch).window then s else
  let s1 := State.modSin ch (fun x => { x with window := false }) s
  if wentLow || !s.gb SAFE.SIN_EN (ch / 2) then s1 else State.pairFault (ch / 2) (2 + ch % 2) s1

/-- TEST_PULSE_WINDOW_END (R337). -/
def execTestPulseWindowEnd (ch : Fin 16) (wentLow : Bool) (s : State) : Out := .next (State.windowEnd ch wentLow s)

/-- SAFE_INPUT_DISCREPANCY (R338): only while the channels disagree. -/
def execSafeInputDiscrepancy (i : Fin 8) (s : State) : Out :=
  .next (if s.up && s.gb SAFE.SIN_EN i.val && s.sinDemands (2 * i.val) != s.sinDemands (2 * i.val + 1)
    then State.pairFault i.val 1 s else s)

/-! STO of a safety axis. -/

/-- The units of safety axis `a` (R346). -/
def State.unitsOf (s : State) (a : Nat) : List Nat :=
  if s.gb CTL.AXCFG_EN a then [s.unitOf (s.g CTL.AXCFG_BR a)] else []

/-- STO is forced on the units of axis `a` that it does not hold yet, and their choppers are armed (R346). -/
def State.stoUnits (a : Nat) (s : State) : State :=
  overL (s.unitsOf a) (fun u s =>
    if (at' s.units u UnitSt.none).stoSafe then s
    else
      let s1 := State.forceSto .safety u s
      match s1.linkOf u with
      | some l => State.armLink l s1
      | none => s1) s

/-- STO comes into force on axis `a` (R346, R347): a BRAKE output that is on stays on for TSBC (R339). -/
def State.stoAxis (a : Nat) (s : State) : State :=
  if s.gb SAFE.FST_STO a then State.stoUnits a s else
  let s1 := overL [0, 1, 2, 3] (fun j s =>
    if s.g SAFE.SOUT_SRC j == 1 && s.g SAFE.SOUT_AX j == a && s.soutOn j && s.g SAFE.SLDI_TSBC a != 0
    then State.modSout j (fun x => { x with hold := true }) s else s) s
  let s2 := State.modSafe a (fun x => { x with stoAt := some s.tbase }) (s1.pb SAFE.FST_STO a true)
  State.stoUnits a ((s2.pbit SAFE.STAT_ACT 0 a true).raise 1 0xC4 a)

/-! Safe outputs. -/

/-- A test of safe output `j` begins (R340). -/
def State.soutTest (j : Nat) (s : State) : State :=
  if s.up && (s.sout j).test.isNone then State.modSout j (fun x => { x with test := some (s.soutOn j) }) s else s

/-- SAFE_OUTPUT_TEST (R340). -/
def execSafeOutputTest (j : Fin 4) (s : State) : Out := .next (State.soutTest j s)

/-- A readback disagrees (R341). -/
def State.soutFault (j cause : Nat) (s : State) : State :=
  if s.gb SAFE.SOUTST_FLT j then s else
  let s1 := ((s.pb SAFE.SOUTST_FLT j true).p SAFE.SOUTST_FCAUSE j cause).raise 1 0xC3 j
  State.stoAxis (s1.g SAFE.SOUT_AX j) (State.modSout j (fun x => { x with hold := false }) s1)

/-- A test of safe output `j` ends (R340, R341): an off-pulse that an off-demand has ended is not judged. -/
def State.soutTestEnd (j : Nat) (r : SoutReadback) (s : State) : State :=
  match (s.sout j).test with
  | none => s
  | some on =>
    let s1 := State.modSout j (fun x => { x with test := none }) s
    if on && !s.soutDemand j then s1
    else match r with
      | .good => if on then s1 else State.modSout j (fun x => { x with needDark := false }) s1
      | .cannotOpen => State.soutFault j 1 s1
      | .pinLow => State.soutFault j 2 s1
      | .darkFailed => State.soutFault j 3 s1

/-- SAFE_OUTPUT_TEST_END (R340). -/
def execSafeOutputTestEnd (j : Fin 4) (r : SoutReadback) (s : State) : Out := .next (State.soutTestEnd j r s)

/-- BRAKE_DROP (R339). -/
def execBrakeDrop (j : Fin 4) (s : State) : Out := .next (State.modSout j.val (fun x => { x with hold := false }) s)

end Sys2Proof.Machine
end

