-- ==== Sys2Proof/Machine/SafeFn.lean ====
section
/-! DEFINITION. The safety functions of an axis (R344 to R348): the safe speed, the demands, the monitors and their
reactions, and the monitor cycle. -/

namespace Sys2Proof.Machine

/-- Position port `p` is enabled, its count is set and no error flag is held (R344). -/
def State.portKnown (s : State) (p : Nat) : Bool := s.posMode p != 0 && (s.port p).cntSet && !s.portFault p

/-- The safe speed of port `p`, if it is known (R344). -/
def State.safeSpeed (s : State) (p : Nat) : Option Int :=
  if s.portKnown p then some (if s.gb POS.STAT_SPD_VALID p then sval (s.posSpeed p) else 0) else none

/-- The speed of axis `a` is known and, with two sources, plausible (R344). -/
def State.speedPlausible (s : State) (a : Nat) : Bool :=
  match s.safeSpeed (s.g SAFE.FN_PORT a) with
  | none => false
  | some v =>
    !s.gb SAFE.FN_P2EN a
      || match s.safeSpeed (s.g SAFE.FN_PORT2 a) with
        | none => false
        | some w => decide (absI (v - w) ≤ (s.g SAFE.FN_PTOL a : Int) * 65536)

/-! Demands (R345). -/

/-- What is demanded on an axis: STO, SS1, the SLS limits, SDI with upward and with downward motion permitted. -/
structure SafeDem where
  sto : Bool
  ss1 : Bool
  sls : List Nat
  up : Bool
  dn : Bool
  deriving DecidableEq, Repr

/-- Nothing is demanded. -/
def SafeDem.zero : SafeDem := ⟨false, false, [], false, false⟩

/-- Two sources together: a demand is the OR of its sources (R345). -/
def SafeDem.join (x y : SafeDem) : SafeDem := ⟨x.sto || y.sto, x.ss1 || y.ss1, x.sls ++ y.sls, x.up || y.up, x.dn || y.dn⟩

/-- What pair `i` demands on axis `a` (R336, R345). -/
def State.pairDem (s : State) (a i : Nat) : SafeDem :=
  if s.gb SAFE.SIN_EN i && s.gb SAFE.SINST_DEMAND i && s.gbit SAFE.MAP_MASK i a then
    match s.g SAFE.MAP_FN i with
    | 1 => { SafeDem.zero with sto := true }
    | 2 => { SafeDem.zero with ss1 := true }
    | 3 => { SafeDem.zero with sls := [s.g SAFE.MAP_LSEL i] }
    | 4 => { SafeDem.zero with up := true }
    | 5 => { SafeDem.zero with dn := true }
    | _ => SafeDem.zero
  else SafeDem.zero

/-- Byte `k` of a PDU payload. -/
def payByte (l : List Byte) (k : Nat) : Nat := (l.getD k 0).toNat

/-- What a payload demands on axis `a` (R355). -/
def payDem (l : List Byte) (a : Nat) : SafeDem where
  sto := (payByte l 0).testBit a
  ss1 := (payByte l 1).testBit a
  sls := if (payByte l 2).testBit a then [bits (payByte l (3 + a / 4)) (2 * (a % 4)) 2] else []
  up := (payByte l 5).testBit a && !(payByte l 6).testBit a
  dn := (payByte l 5).testBit a && (payByte l 6).testBit a

/-- A payload with every demand bit set (R354). -/
def allDemand (l : List Byte) : List Byte :=
  [0xFF, 0xFF, 0xFF, l.getD 3 0, l.getD 4 0, 0xFF, l.getD 6 0, 0x0F]

/-- A connection past the end of the array. -/
def Conn.none : Conn := ⟨Option.none, Option.none, 0, [], [], Option.none, 0, 0, [], []⟩

/-- A safety connection. -/
def State.conn (s : State) (c : Nat) : Conn := at' s.safe.conn c Conn.none

/-- What connection `c` demands on axis `a`: its accepted payload, the demands taken early, and on a fault every
demand bit with REACT (R353 to R355). -/
def State.connDem (s : State) (a c : Nat) : SafeDem :=
  if s.gb SAFE.CONN_EN c && !s.gb SAFE.CONN_DIR c && s.gbit SAFE.CONN_MAP c a then
    if s.gb SAFE.CST_FAULT c then
      (payDem (allDemand (s.conn c).payload) a).join
        (if s.gb SAFE.CONN_REACT c then { SafeDem.zero with ss1 := true } else { SafeDem.zero with sto := true })
    else (payDem (s.conn c).payload a).join (payDem (s.conn c).early a)
  else SafeDem.zero

/-- GREACT acts: in RUN with GUAR = 0 (R332). -/
def State.greactActs (s : State) : Bool :=
  s.mode == mRUN && !s.gb SAFE.STAT_GUAR && s.g SAFE.GCFG_GREACT != 0
    && (List.range 8).any fun a => s.gb SAFE.FN_EN a

/-- Everything demanded on axis `a` (R332, R341, R345). -/
def State.axisDem (s : State) (a : Nat) : SafeDem :=
  let d1 := (List.range 8).foldl (fun d i => d.join (s.pairDem a i)) SafeDem.zero
  let d2 := (List.range 16).foldl (fun d c => d.join (s.connDem a c)) d1
  let soutFlt := (List.range 4).any fun j => s.gb SAFE.SOUTST_FLT j && s.g SAFE.SOUT_AX j == a
  let fbl := s.gb CTL.AXCFG_EN a && (at' s.axes a Axis.init).ss1Req && s.g CTL.AXST_STATE a == 7
  let gr := s.mode == mRUN && !s.gb SAFE.STAT_GUAR
  { d2 with
    sto := d2.sto || s.stoDemand || soutFlt || (gr && s.g SAFE.GCFG_GREACT == 2)
    ss1 := d2.ss1 || fbl || (gr && s.g SAFE.GCFG_GREACT == 1) }

/-! Monitors (R346). -/

/-- NV: the violating cycles required. -/
def State.nvReq (s : State) : Nat := s.g SAFE.GCFG_NV + 1

/-- Limit L_k of axis `a`, in Q1.31 units. -/
def State.slsLimit (s : State) (a k : Nat) : Int :=
  ((match k with
    | 0 => s.g SAFE.SLSA_L0 a
    | 1 => s.g SAFE.SLSA_L1 a
    | 2 => s.g SAFE.SLSB_L2 a
    | _ => s.g SAFE.SLSB_L3 a : Nat) : Int) * 65536

/-- `|v|` is within the SS1 ramp, `t` ticks after a demand at speed `v0`:
max(VZERO, |v0| − DEC · t / 65,536) + TOL, compared exactly (R346). -/
def State.rampOk (s : State) (a : Nat) (v0 v : Int) (t : Nat) : Bool :=
  let x := absI v - (s.g SAFE.SS1B_TOL a : Int) * 65536
  decide (x ≤ (s.g SAFE.SS1B_VZERO a : Int) * 65536)
    || decide ((x - absI v0) * 200000 ≤ -((s.g SAFE.SS1_DEC a * t * 2 ^ 15 : Nat) : Int))

/-- The further of two counts, upwards, across the wrap. -/
def furtherUp (c x : Word) : Word := if 0 < (x - c).toInt then x else c

/-- The further of two counts, downwards. -/
def furtherDn (c x : Word) : Word := if (x - c).toInt < 0 then x else c

/-- Axis `a` has moved more than DTOL against the permitted direction (R346). -/
def State.sdiBeyond (s : State) (a : Nat) : Bool :=
  let x := s.safeAx a
  s.portKnown (s.g SAFE.FN_PORT a)
    && ((match x.sdiUp with
        | none => false
        | some c => decide ((x.cnt - c).toInt < -(s.g SAFE.SLDI_DTOL a : Int)))
      || match x.sdiDn with
        | none => false
        | some c => decide ((s.g SAFE.SLDI_DTOL a : Int) < (x.cnt - c).toInt))

/-- Read the speed and the count of axis `a`, and watch their plausibility (R344). -/
def State.monSpeed (a : Nat) (s : State) : State :=
  let p := s.g SAFE.FN_PORT a
  let v := s.safeSpeed p
  let ok := s.speedPlausible a
  let s1 := State.modSafe a (fun x =>
    { x with bad := if ok then 0 else min 3 (x.bad + 1), vs := v.getD x.vs, vsKnown := v.isSome,
             cnt := if v.isSome then s.word POS.CNT p else x.cnt }) s
  let s2 := s1.p SAFE.FST_VS a (codeOf 16 ((s1.safeAx a).vs / 65536))
  if (s2.safeAx a).bad = 3 then s2.pb SAFE.FST_SPDFLT a true else s2

/-- SLS and SDI follow their demands (R346, R347). -/
def State.monWatch (a : Nat) (d : SafeDem) (s : State) : State :=
  let s1 := State.modSafe a (fun x =>
    let at1 := (List.range 4).foldl (fun w k =>
      upd w k fun t => if d.sls.contains k then some (t.getD s.tbase) else none) x.slsAt
    let viol := (List.range 4).any fun k =>
      match at' at1 k none with
      | none => false
      | some t => decide (t + 200000 * s.g SAFE.SLDI_TTR a ≤ s.tbase) && decide (s.slsLimit a k < absI x.vs)
    { x with
      slsAt := at1
      slsBad := if d.sls.isEmpty then 0 else if !x.vsKnown then x.slsBad else if viol then x.slsBad + 1 else 0
      sdiUp := if !d.up then none else if !x.vsKnown then x.sdiUp else some (furtherUp (x.sdiUp.getD x.cnt) x.cnt)
      sdiDn := if !d.dn then none else if !x.vsKnown then x.sdiDn else some (furtherDn (x.sdiDn.getD x.cnt) x.cnt) }) s
  (s1.pb SAFE.FST_SLS a (!d.sls.isEmpty)).pb SAFE.FST_SDI a (d.up || d.dn)

/-- SS1 begins on axis `a`, ramp-monitored where `ramp` (R346); while STO is latched it is only recorded (R348). One already in
force goes on, without its ramp once the reaction to a violation is a time-monitored SS1. -/
def State.ss1Begin (a : Nat) (ramp : Bool) (s : State) : State :=
  if s.gb SAFE.FST_SS1 a then State.modSafe a (fun y => { y with ss1Ramp := y.ss1Ramp && ramp }) s else
  let x := s.safeAx a
  let s1 := State.modSafe a (fun y =>
    { y with ss1At := some s.tbase, ss1V0 := if x.vsKnown then some x.vs else none, ss1Ramp := ramp, ss1Bad := 0 })
    (s.pb SAFE.FST_SS1 a true)
  if s1.gb SAFE.FST_STO a || !s1.gb CTL.AXCFG_EN a then s1 else State.axStop a s1

/-- The ramp check of this cycle (R346). -/
def State.monRamp (a : Nat) (s : State) : State :=
  State.modSafe a (fun x =>
    match x.ss1At with
    | none => x
    | some t =>
      if !x.ss1Ramp || s.gb SAFE.FST_STO a then x
      else match x.vsKnown, x.ss1V0 with
        | true, some v0 => { x with ss1Bad := if s.rampOk a v0 x.vs (s.tbase - t) then 0 else x.ss1Bad + 1 }
        | _, _ => { x with ss1Bad := s.nvReq }) s

/-- SS1 has reached standstill, or its time has passed (R346). -/
def State.ss1Over (s : State) (a : Nat) : Bool :=
  let x := s.safeAx a
  match x.ss1At with
  | none => false
  | some t =>
    (x.vsKnown && decide (absI x.vs ≤ (s.g SAFE.SS1B_VZERO a : Int) * 65536))
      || decide (t + 200000 * s.g SAFE.SS1_T a ≤ s.tbase)

/-- The violation that holds on axis `a` now, as a VCAUSE; 0 for none (R346). -/
def State.violation (s : State) (a : Nat) : Nat :=
  let x := s.safeAx a
  let ramp := s.gb SAFE.FST_SS1 a && x.ss1Ramp && !s.gb SAFE.FST_STO a
  if ramp && decide (s.nvReq ≤ x.ss1Bad) then 1
  else if decide (s.nvReq ≤ x.slsBad) then 2
  else if s.sdiBeyond a then 3
  else if s.gb SAFE.FST_SPDFLT a && (ramp || s.gb SAFE.FST_SLS a || s.gb SAFE.FST_SDI a) then 4
  else 0

/-- A violation latches and REACT applies (R346). -/
def State.violate (a : Nat) (s : State) : State :=
  let c := s.violation a
  if c = 0 then s else
  let s1 := if s.gb SAFE.FST_LATCH a then s
    else ((s.pb SAFE.FST_LATCH a true).p SAFE.FST_VCAUSE a c).raise 1 0xC5 a
  let spd := s.gb SAFE.FST_SPDFLT a
  if c = 4 || spd || !s1.gb SAFE.FN_REACT a then State.stoAxis a s1 else State.ss1Begin a false s1

/-- Whether a safety function of axis `a` is in force or latched (SAFE.STAT.ACT). -/
def State.safeActive (s : State) (a : Nat) : Bool :=
  s.gb SAFE.FST_STO a || s.gb SAFE.FST_SS1 a || s.gb SAFE.FST_SLS a || s.gb SAFE.FST_SDI a || s.gb SAFE.FST_LATCH a

/-- A change of the state of a function raises SF_DEMAND (R346). -/
def State.noteChange (a : Nat) (was : Bool) (f : FRef) (s : State) : State :=
  if s.gb f a = was then s else s.raise 1 0xC4 a

/-- One monitor cycle of axis `a` (R344 to R348). -/
def State.monAxis (a : Nat) (s : State) : State :=
  if !s.gb SAFE.FN_EN a then s else
  let d := s.axisDem a
  let s1 := State.monWatch a d (State.monSpeed a s)
  let s2 := if d.ss1 then State.ss1Begin a (s1.gb SAFE.FN_SS1R a) s1 else s1
  let s3 := State.violate a (State.monRamp a s2)
  let s4 := if d.sto || (s3.gb SAFE.FST_SS1 a && s3.ss1Over a) || s3.gb SAFE.FST_STO a then State.stoAxis a s3 else s3
  let s5 := State.noteChange a (s.gb SAFE.FST_SS1 a) SAFE.FST_SS1 s4
  let s6 := State.noteChange a (s.gb SAFE.FST_SLS a) SAFE.FST_SLS s5
  let s7 := State.noteChange a (s.gb SAFE.FST_SDI a) SAFE.FST_SDI s6
  s7.pbit SAFE.STAT_ACT 0 a (s7.safeActive a)

/-- A latch, or GREACT, is the safety-function demand of R41 (R347). -/
def State.devSafe (s : State) : State :=
  if s.gb SAFE.GCFG_DEVSAFE && ((List.range 8).any (fun a => s.gb SAFE.FST_LATCH a) || s.greactActs)
  then State.enterSafe 7 none s else s

/-- One monitor cycle (R344). -/
def State.monitor (s : State) : State :=
  if s.up then State.devSafe (overL (List.range 8) State.monAxis s.guarUpdate) else s

/-- MONITOR_CYCLE (R344). -/
def execMonitorCycle (s : State) : Out := .next s.monitor

/-! The safety reset. -/

/-- The cause of the latched violation of axis `a` still stands (R343). -/
def State.violStands (s : State) (a : Nat) : Bool :=
  match s.g SAFE.FST_VCAUSE a with
  | 1 => s.gb SAFE.FST_SS1 a && (s.axisDem a).ss1 && decide (0 < (s.safeAx a).ss1Bad)
  | 2 => decide (0 < (s.safeAx a).slsBad)
  | 3 => s.sdiBeyond a
  | 4 => s.gb SAFE.FST_SPDFLT a
  | _ => false

/-- A safety reset on axis `a` (R343, R347): SPDFLT and LATCH whose cause is gone, then STO and SS1 if nothing
demands either and no violation is kept. -/
def State.resetAxis (a : Nat) (s : State) : State :=
  let s1 := if (s.safeAx a).bad = 0 then s.pb SAFE.FST_SPDFLT a false else s
  let s2 := if s1.violStands a then s1 else (s1.pb SAFE.FST_LATCH a false).p SAFE.FST_VCAUSE a 0
  let d := s2.axisDem a
  if s2.gb SAFE.FST_LATCH a || d.sto || d.ss1 || !(s2.gb SAFE.FST_STO a || s2.gb SAFE.FST_SS1 a) then
    s2.pbit SAFE.STAT_ACT 0 a (s2.safeActive a)
  else
    let s3 := State.modSafe a (fun x => { x with stoAt := none, ss1At := none, ss1V0 := none, ss1Ramp := false, ss1Bad := 0 })
      ((s2.pb SAFE.FST_STO a false).pb SAFE.FST_SS1 a false)
    let s4 := State.noteChange a (s2.gb SAFE.FST_STO a) SAFE.FST_STO (State.noteChange a (s2.gb SAFE.FST_SS1 a) SAFE.FST_SS1 s3)
    s4.pbit SAFE.STAT_ACT 0 a (s4.safeActive a)

/-- Take one source of forced STO away from every unit it no longer holds (R261, R347). -/
def State.stoFree (s : State) : State :=
  overL (List.range 8) (fun u s =>
    let x := at' s.units u UnitSt.none
    let safety := (List.range 8).any fun a => s.gb SAFE.FST_STO a && (s.unitsOf a).contains u
    let keepIn := x.stoIn && s.stoDemand
    let keepSafe := x.stoSafe && safety
    if x.stoIn = keepIn ∧ x.stoSafe = keepSafe then s
    else
      let s1 := { s with units := upd s.units u fun y => { y with stoIn := keepIn, stoSafe := keepSafe } }
      if s1.isUnit u then State.unitFree u s1 else s1) s

/-- A latch that a reset would clear is still set (R343). -/
def State.latchesKept (s : State) : Bool :=
  s.safetyLatch || s.units.any (·.stoIn)
    || (List.range 8).any fun a => s.gb SAFE.FST_STO a || s.gb SAFE.FST_SS1 a || s.gb SAFE.FST_SPDFLT a

/-- An accepted safety reset (R335, R338, R341, R343, R347, R354). -/
def State.safetyReset (s : State) : State :=
  let s1 := overL [0, 1, 2, 3] (fun j s =>
    if s.gb SAFE.SOUTST_FLT j then
      State.modSout j (fun x => { x with needDark := true }) ((s.pb SAFE.SOUTST_FLT j false).p SAFE.SOUTST_FCAUSE j 0)
    else s) s
  let s2 := if s1.safe.fltArm = 2 then { s1.pb SAFE.STAT_STOFLT 0 false with safe := { s1.safe with fltArm := 0 } } else s1
  let s3 := overL (List.range 8) (fun i s =>
    if s.gb SAFE.SINST_PAIRFLT i && (at' s.safe.pair i ⟨true, false⟩).bothDem then
      State.pairUpdate i ((s.pb SAFE.SINST_PAIRFLT i false).p SAFE.SINST_FCAUSE i 0)
    else s) s2
  let s4 := overL (List.range 16) (fun c s =>
    if s.gb SAFE.CST_FAULT c && decide (2 ≤ (s.conn c).agree) then (s.pb SAFE.CST_FAULT c false).p SAFE.CST_FCAUSE c 0
    else s) s3
  let s5 := (overL (List.range 8) State.resetAxis s4).stoFree.relink
  (s5.pb SAFE.STAT_RSTOK 0 true).raise 1 0xC6 (if s5.latchesKept then 3 else 0)

/-- An SRST press of `held` ticks is released (R342). -/
def State.srst (held : Nat) (s : State) : State :=
  if !s.up || s.gb SAFE.STAT_RSTSTUCK || held < 20000000 || 2000000000 ≤ held then s
  else if held ≤ 600000000 then s.safetyReset
  else (s.pb SAFE.STAT_RSTHELD 0 true).raise 1 0xC6 1

/-- SRST_RELEASE (R342). -/
def execSrstRelease (held : Nat) (s : State) : Out := .next (State.srst held s)

/-- The button is found stuck (R342). -/
def State.srstStick (s : State) : State :=
  if s.gb SAFE.STAT_RSTSTUCK then s else (s.pb SAFE.STAT_RSTSTUCK 0 true).raise 1 0xC6 2

/-- SRST_STUCK (R342). -/
def execSrstStuck (s : State) : Out := .next (if s.up then s.srstStick else s)

/-- SRST_UNSTUCK (R342). -/
def execSrstUnstuck (s : State) : Out := .next (s.pb SAFE.STAT_RSTSTUCK 0 false)

end Sys2Proof.Machine
end

