-- ==== Sys2Proof/Machine/SafePdu.lean ====
section
/-! DEFINITION. Safety PDUs (R350 to R355), the digest and the commit checks of the safety configuration (R270, R288,
R356, R360), and the conditions of the fault guarantee (R416, R417). -/

namespace Sys2Proof.Machine

/-- Change a safety connection. -/
def State.modConn (c : Nat) (f : Conn → Conn) (s : State) : State :=
  { s with safe := { s.safe with conn := upd s.safe.conn c f } }

/-- Bytes `off` to `off + n − 1` of a list, as a number. -/
def byteNat (l : List Byte) (off n : Nat) : Nat := leNat ((l.drop off).take n)

/-- The demand bits of a payload (R355). -/
def demandMask : List Byte := [0xFF, 0xFF, 0xFF, 0, 0, 0xFF, 0, 0x0F]

/-- Bits of `new` that are demands and clear in `old`. -/
def newDemands (old new : List Byte) : List Byte :=
  (List.range 8).map fun k => new.getD k 0 &&& ~~~ old.getD k 0 &&& demandMask.getD k 0

/-- The demands a first copy sets at its arrival, with the limit and direction selects they come with (R353). -/
def earlyOf (old new : List Byte) : List Byte :=
  let d := newDemands old new
  [d.getD 0 0, d.getD 1 0, d.getD 2 0, new.getD 3 0, new.getD 4 0, d.getD 5 0, new.getD 6 0, d.getD 7 0]

/-- Discharge the links whose bits are newly set (R267, R355). -/
def State.pduDischarge (old new : List Byte) (s : State) : State :=
  overL [0, 1, 2, 3] (fun l s => if (payByte (newDemands old new) 7).testBit l then State.dscGo l s else s) s

/-- A connection takes a fault with its cause (R354). -/
def State.connFault (c cause : Nat) (s : State) : State :=
  let x := s.conn c
  let s1 := ((s.pb SAFE.CST_FAULT c true).p SAFE.CST_FCAUSE c cause).raise 1 0xC8 c
  State.pduDischarge (if s.gb SAFE.CST_FAULT c then allDemand [] else x.payload) (allDemand [])
    (State.modConn c (fun y => { y with window := none, early := [], agree := 0 }) s1)

/-- A PDU is accepted, with both copies or with one (R353). -/
def State.connAccept (c seq : Nat) (bytes : List Byte) (both : Bool) (s : State) : State :=
  let x := s.conn c
  let new := (bytes.drop 14).take 14
  let s1 := State.modConn c (fun y =>
    { y with lastSeq := some seq, window := none, lastAcc := s.tbase, payload := new, early := [],
             degrSince := if both then none else some (y.degrSince.getD s.tbase),
             agree := if both then y.agree + 1 else 0 }) s
  let s2 := (s1.pb SAFE.CST_OK c true).p SAFE.CST_SEQLO c seq
  let s3 := State.pduDischarge (x.payload.zipWith (fun a b => a ||| b) (x.early ++ List.replicate 14 0)) new s2
  if both then s3.pb SAFE.CST_DEGR c false
  else if s3.gb SAFE.CST_DEGR c then s3 else (s3.pb SAFE.CST_DEGR c true).raise 1 0xC7 c

/-- A copy is discarded (R352). -/
def State.connBad (c : Nat) (s : State) : State := s.inc SAFE.CST_BADCNT c

/-- A copy that opens a window, whose new demands act at once (R353). -/
def State.connOpen (c seq : Nat) (second : Bool) (bytes : List Byte) (s : State) : State :=
  let x := s.conn c
  let new := (bytes.drop 14).take 14
  State.pduDischarge x.payload new
    (State.modConn c (fun y => { y with window := some (seq, bytes.take 28, second, s.tbase), early := earlyOf y.payload new }) s)

/-- The copy passes every check of R352 but that of its SEQ. -/
def State.pduWellFormed (s : State) (c : Nat) (b : List Byte) : Bool :=
  b.length == 32
    && BitVec.ofNat 32 (byteNat b 28 4) == crc32cFrom (s.word SAFE.CSEED c) (b.take 28)
    && byteNat b 0 2 == s.g SAFE.CONN_ID c
    && byteNat b 12 2 == 0 && byteNat b 22 6 == 0 && byteNat b 21 1 < 16

/-- The window of connection `c` ends without a partner (R353). -/
def State.connWindowEnd (c : Nat) (s : State) : State :=
  match (s.conn c).window with
  | none => s
  | some (seq, bytes, _, _) => State.connAccept c seq bytes false s

/-- A SEQ is greater than the last accepted one (R352). -/
def Conn.newer (x : Conn) (seq : Nat) : Bool := decide ((x.lastSeq.map (· + 1)).getD 0 ≤ seq)

/-- A copy arrives on connection `c`, from the second network of the pair if `second` (R352, R353). A further SEQ ends
the open window; a repeat of the first copy on its own network changes nothing. -/
def State.pduIn (c : Nat) (second : Bool) (bytes : List Byte) (s : State) : State :=
  if !s.up || !s.islandUp 23 || !s.gb SAFE.CONN_EN c || s.gb SAFE.CONN_DIR c then s
  else if !s.pduWellFormed c bytes then State.connBad c s
  else
    let seq := byteNat bytes 2 4
    match (s.conn c).window with
    | some (seq0, first, net0, _) =>
      if seq = seq0 then
        if second = net0 then s
        else if bytes.take 28 = first then State.connAccept c seq first true s
        else State.connFault c 1 s
      else if !(s.conn c).newer seq then State.connBad c s
      else
        let s1 := State.connWindowEnd c s
        if (s1.conn c).newer seq then State.connOpen c seq second bytes s1 else State.connBad c s1
    | none => if (s.conn c).newer seq then State.connOpen c seq second bytes s else State.connBad c s

/-- PDU_COPY_RECEIVED (R353). -/
def execPduCopyReceived (c : Fin 16) (second : Bool) (bytes : List Byte) (s : State) : Out :=
  .next (State.pduIn c second bytes s)

/-- PDU_WINDOW_END (R353). -/
def execPduWindowEnd (c : Fin 16) (s : State) : Out := .next (State.connWindowEnd c s)

/-- An enabled RX connection. -/
def State.rxConn (s : State) (c : Nat) : Bool := s.up && s.gb SAFE.CONN_EN c && !s.gb SAFE.CONN_DIR c

/-- PDU_DEGRADED_TIMEOUT (R353). -/
def execPduDegradedTimeout (c : Fin 16) (s : State) : Out :=
  .next (if s.rxConn c.val && s.gb SAFE.CST_DEGR c.val then State.connFault c.val 3 s else s)

/-- PDU_WATCHDOG_TIMEOUT (R354). -/
def execPduWatchdogTimeout (c : Fin 16) (s : State) : Out :=
  .next (if s.rxConn c.val then State.connFault c.val 2 (s.pb SAFE.CST_OK c.val false) else s)

/-- A byte with one bit per axis. -/
def axisByte (f : Nat → Bool) : Byte := BitVec.ofNat 8 ((List.range 8).foldl (fun a i => a + if f i then 2 ^ i else 0) 0)

/-- The TX payload of connection `c` (R355). -/
def State.txPayload (s : State) (c : Nat) : List Byte :=
  let x := s.safeAx (s.g SAFE.CTIM_TXAX c)
  [axisByte fun a => s.gb SAFE.FST_STO a, axisByte fun a => s.gb SAFE.FST_SS1 a, axisByte fun a => s.gb SAFE.FST_SLS a,
   axisByte fun a => s.gb SAFE.FST_SDI a, axisByte fun a => s.gb SAFE.FST_LATCH a,
   BitVec.ofNat 8 (s.g SAFE.STAT_GUAR + 2 * s.g SAFE.STAT_LOCKED + 4 * s.g SAFE.STAT_RSTOK + 8 * s.mode
     + 64 * s.g SAFE.STAT_STOA + 128 * s.g SAFE.STAT_STOB)]
    ++ leBytes 4 (ofInt x.vs).toNat ++ leBytes 4 x.cnt.toNat

/-- A PDU of connection `c` with a SEQ (R350). -/
def State.pduBytes (s : State) (c : Nat) (seq : Word) : List Byte :=
  let b := leBytes 2 (s.g SAFE.CONN_ID c) ++ leBytes 4 seq.toNat ++ leBytes 6 s.tbase ++ [0, 0] ++ s.txPayload c
  b ++ leBytes 4 (crc32cFrom (s.word SAFE.CSEED c) b).toNat

/-! Sessions, and the safety configuration. -/

/-- SESSION_TIMEOUT (R357). -/
def execSessionTimeout (s : State) : Out := .next (State.sessEnd 2 s)

/-- The RWL bits of a register (R8). -/
def rwlMask (r : Reg) : Nat := r.flds.foldl (fun a f => if f.ty == .rwl then a + (2 ^ f.w - 1) * 2 ^ f.lo else a) 0

/-- Enter an address and its mask into a list by rising address. -/
def insertAddr (x : Nat × Reg × Nat) : List (Nat × Reg × Nat) → List (Nat × Reg × Nat)
  | [] => [x]
  | y :: l => if x.1 < y.1 then x :: y :: l else y :: insertAddr x l

/-- Every register that holds an RWL field, with its address, in ascending order of address (R356). -/
def rwlRegs : List (Nat × Reg × Nat) :=
  blockTable.flatMap fun b =>
    ((b.regs.filter fun r => rwlMask r != 0).flatMap fun r =>
      (List.range (r.n1 * r.n2)).map fun k => (r.addr k, r, k)).foldl (fun l x => insertAddr x l) []

/-- The value of a register with every bit that is not RWL at 0 (R356). -/
def State.rwlWord (s : State) (r : Reg) (k : Nat) : Word := s.word r k &&& BitVec.ofNat 32 (rwlMask r)

/-- The digest D of the safety configuration (R356). -/
def State.digest (s : State) : List Byte :=
  sha384 (rwlRegs.flatMap fun x => leBytes 4 x.1 ++ leBytes 4 (s.rwlWord x.2.1 x.2.2).toNat)

/-- A bridge is used (R240). -/
def State.used? (s : State) (k : Nat) : Bool := s.topo k != 0

/-- The bound of R251 of protection source `i` on bridge `b`, in units of one nanosecond: whether it is at most
1 µs (R270 item 6). -/
def State.pathOk (s : State) (b i : Nat) : Bool :=
  let npc := if s.topo b = 2 then 5 * s.g GATE.BRCFG_NPCDLY b else 0
  if i < 32 then
    if s.gb FBRK.OCMAP_ROLE i then true else decide (120 + 10 * s.g CMP.CFG_FN i + npc ≤ 1000)
  else decide (16 * 5 * s.g DSM.CLK_DIV (s.g DSM.CH_CLK (i - 32)) + 75 + npc ≤ 1000)

/-- The comparators bound to a phase with a role (R253). -/
def State.compsOf (s : State) (b x : Nat) (hard : Bool) : List Nat :=
  (s.sourcesOf b x).filter fun i => i < 32 && s.gb FBRK.OCMAP_ROLE i == hard

/-- The thresholds of HARD comparator `h` are twice those of TRIP comparator `t`, measured from the ZERO of `h`, within
one DAC code (R270 item 5, R288). -/
def State.twiceOk (s : State) (h t : Nat) : Bool :=
  let z : Int := s.g CMP.ZERO_ZERO h
  let near (a b : Int) : Bool := decide (absI (a - 2 * b) ≤ 1)
  near (s.g CMP.TH_HI h - z) (s.g CMP.TH_HI t - z) && near (s.g CMP.TH_LO h - z) (s.g CMP.TH_LO t - z)

/-- The checks of R270 on the bridges and phases, items 1 to 7, with those of R288. -/
def State.gateCfgBad (s : State) : Bool :=
  (List.range 8).any fun k =>
    let t := s.topo k
    (t == 2 && s.topo (k + 1) != 3) || (t == 3 && (k == 0 || s.topo (k - 1) != 2))
    || (t == 4 && (s.topo (s.g GATE.BRCFG_MASTER k) != 1 || s.g GATE.BRCFG_MASTER k == k))
    || (chansOf k).any (fun n => s.gb GATE.CH_EN n != s.used? k)
    || ((t == 1 || t == 2 || t == 4) && (List.range 3).any fun x =>
          let srcs := s.sourcesOf k x
          let hard := s.compsOf k x true
          let trip := s.compsOf k x false
          (srcs.filter fun i => i ≥ 32 || !s.gb FBRK.OCMAP_ROLE i).isEmpty || hard.isEmpty
            || hard.any (fun h => trip.any fun c => !s.twiceOk h c)
            || (!hard.isEmpty && trip.isEmpty)
            || srcs.any (fun i => !s.pathOk k i))
    || ((t == 0 || t == 3) && (List.range 96).any fun i => s.gb FBRK.OCMAP_EN i && s.g FBRK.OCMAP_BR i == k)
    || s.g GATE.CPH_BSPULSE k < 40

/-- The checks of R270 on the links, items 8 to 11, with that of R288 on ICMP. -/
def State.linkCfgBad (s : State) : Bool :=
  (List.range 8).any (fun k => decide (1 < ((List.range 4).filter fun l => s.gbit DCL.CFG_BRMASK l k).length))
  || (List.range 4).any fun l => s.gb DCL.CFG_EN l &&
      (!(s.g DCL.OV_VSAFE l < s.g DCL.VTH_VOFF l ∧ s.g DCL.VTH_VOFF l < s.g DCL.VTH_VON l ∧ s.g DCL.VTH_VON l < s.g DCL.OV_VOV l)
      || s.g DCL.BRK_ICMP l == s.g DCL.CFG_OVCMP l
      || (s.g DCL.BRK_MODE l == 2 && !(50 ≤ s.g DCL.BRK_BPER l ∧ s.g DCL.BRK_BPER l ≤ 1000))
      || (s.gb DCL.DSC_WEN l && !s.gbit DCL.CFG_BRMASK l (s.g DCL.DSC_WBR l))
      || (s.g DCL.BRK_MODE l == 2 && s.gb FBRK.OCMAP_EN (s.g DCL.BRK_ICMP l)))

/-- The checks of R360. -/
def State.safeCfgBad (s : State) : Bool :=
  (List.range 8).any (fun a =>
    (s.gb SAFE.FN_EN a && (!s.gb POS.CFG_EN (s.g SAFE.FN_PORT a)
      || (s.gb SAFE.FN_P2EN a && (!s.gb POS.CFG_EN (s.g SAFE.FN_PORT2 a) || s.g SAFE.FN_PORT2 a == s.g SAFE.FN_PORT a))
      || (s.gb SAFE.FN_SS1R a && s.g SAFE.SS1_DEC a == 0)))
    || (s.gb CTL.AXCFG_EN a && s.gb CTL.AXCFG_SS1 a && !s.gb SAFE.FN_EN a))
  || (List.range 4).any (fun j => (s.g SAFE.SOUT_SRC j == 1 || s.g SAFE.SOUT_SRC j == 2) && !s.gb SAFE.FN_EN (s.g SAFE.SOUT_AX j))
  || (List.range 8).any (fun i =>
    let x := s.g SAFE.SIN_TPA i
    let y := s.g SAFE.SIN_TPB i
    (s.gb SAFE.SIN_EN i && ((x == y && x < 8) || (x < 8 && !s.gbit SAFE.TPO_EN 0 x) || (y < 8 && !s.gbit SAFE.TPO_EN 0 y)))
    || (s.g SAFE.MAP_FN i != 0 && !s.gb SAFE.SIN_EN i))
  || (List.range 16).any (fun c => s.gb SAFE.CONN_EN c && (s.word SAFE.CSEED c == 0
    || (List.range 16).any fun e => e != c && s.gb SAFE.CONN_EN e && s.g SAFE.CONN_ID e == s.g SAFE.CONN_ID c
        && s.g SAFE.CONN_NETS e == s.g SAFE.CONN_NETS c))

/-- SAFE_COMMIT refuses the configuration (R270, R288, R360). -/
def State.commitBad (s : State) : Bool := s.gateCfgBad || s.linkCfgBad || s.safeCfgBad

/-! The conditions of the guarantee. -/

/-- SUPPLY_RANGE_CHANGE (R416). -/
def execSupplyRangeChange (k : Fin 8) (out : Bool) (s : State) : Out :=
  .next (if s.up then State.guarUpdate { s with safe := { s.safe with
    condSupply := BitVec.ofNat 8 (setBits s.safe.condSupply.toNat k.val 1 (if out then 1 else 0)) } } else s)

/-- A die-temperature judgement (R416, R417). -/
def State.dieTemp (j : DieJudgement) (s : State) : State :=
  if !s.up then s else
  match j with
  | .above130 => State.guarUpdate { s with safe := { s.safe with condTemp := true } }
  | .below128 => State.guarUpdate { s with safe := { s.safe with condTemp := false } }
  | .high145 => (State.faultSafe { s with safe := { s.safe with hot := true } }).raise 1 0xE5 0
  | .spread25 => s.faultSafe.raise 1 0xE5 1
  | .below125 => { s with safe := { s.safe with hot := false } }

/-- DIE_TEMPERATURE (R417). -/
def execDieTemperature (j : DieJudgement) (s : State) : Out := .next (State.dieTemp j s)

end Sys2Proof.Machine
end

