-- ==== Sys2Proof/Machine/Networks.lean ====
section
/-! DEFINITION. The CAN FD controllers and the Ethernet MACs (R362 to R383), host transport apart. -/

namespace Sys2Proof.Machine

/-- NETW serves the networks. -/
def State.netUp (s : State) : Bool := s.up && s.islandUp 23

/-- Controller `c` is enabled. -/
def State.canOn (s : State) (c : Nat) : Bool := s.netUp && s.gb CAN.CFG_EN c

/-- Change a CAN controller. -/
def State.modCan (c : Nat) (f : Can → Can) (s : State) : State := { s with can := upd s.can c f }

/-- A CAN controller. -/
def State.canAt (s : State) (c : Nat) : Can := at' s.can c ⟨0, none, none, [], none⟩

/-- CAN_ERR of controller `c` with a kind (R366). -/
def State.canErr (c kind : Nat) (s : State) : State := s.raise 23 0xD4 (c + 4 * kind)

/-! Bit timing (R363, R365). -/

/-- CANCLK cycles of a nominal bit. -/
def State.canNb (s : State) (c : Nat) : Nat := (s.g CAN.NBT_NBRP c + 1) * (3 + s.g CAN.NBT_NTSEG1 c + s.g CAN.NBT_NTSEG2 c)

/-- CANCLK cycles of a data bit. -/
def State.canDb (s : State) (c : Nat) : Nat := (s.g CAN.DBT_DBRP c + 1) * (3 + s.g CAN.DBT_DTSEG1 c + s.g CAN.DBT_DTSEG2 c)

/-- The answer to setting EN of controller `c` (R363, R365). -/
def State.canEnableCode (s : State) (c : Nat) : Code :=
  let nb := s.canNb c
  let db := s.canDb c
  if nb < 80 || (s.gb CAN.CFG_BRSE c && (decide (db < 10) || decide (nb < db)))
    || s.g CAN.NBT_NTSEG2 c < s.g CAN.NBT_NSJW c || s.g CAN.DBT_DTSEG2 c < s.g CAN.DBT_DSJW c
    || 0x7F0 < s.g CAN.CFG_SAFEID c || (s.g CAN.TREF_ROLE c == 1 && s.g CAN.CFG_MODE c != 0)
    || (s.gb CAN.CFG_TRIPLE c && decide (nb < 640)) || (!s.gb CAN.DBT_TDCEN c && decide (db < 40))
  then eRANGE else eOK

/-- Controller `c` starts: active, its error counters 0 (R366). -/
def State.canStart (c : Nat) (s : State) : State :=
  (((s.p CAN.STAT_TEC c 0).p CAN.STAT_REC c 0).pb CAN.STAT_RP c false).p CAN.STAT_FCS c 0

/-! Rings (R367). -/

/-- Where bytes 16 and up of the entry of index `i` of ring `q` lie: CAN 48 bytes each, Ethernet 1,536 (R367, R377). -/
def State.netBuf (s : State) (q i : Nat) : Nat :=
  let k := i % s.qN q
  if q < 20 then (s.word (if q % 2 = 0 then ETH.TXBUF else ETH.RXBUF) ((q - 16) / 2)).toNat + k * 1536
  else (s.word (if q % 2 = 0 then CAN.TXBUF else CAN.RXBUF) ((q - 20) / 2)).toNat + k * 48

/-- The bytes of the buffer area of ring `q` (R367). -/
def State.netBufSize (s : State) (q : Nat) : Nat := s.qN q * (if q < 20 then 1536 else 48)

/-- A received frame enters ring `q`: its entry and its buffer bytes. A full ring drops it (R99); a disabled one has no
place for it. -/
def State.netPush (q : Nat) (entry : List Word) (buf : List Byte) (s : State) : State :=
  if !s.gb QUE.QCFG_EN q then s
  else if s.qFull q then s.inc QUE.QSTAT_DROPS q
  else
    let i := (s.word QUE.QTAIL q).toNat
    State.qPush q (wordBytes entry) (s.sramPut (s.netBuf q i) buf)

/-- The entry at the head of ring `q`, with its index. -/
def State.netHead (s : State) (q : Nat) : Option (Nat × List Word) :=
  if s.gb QUE.QCFG_EN q && s.qLevel q != 0 then
    let i := (s.word QUE.QHEAD q).toNat
    some (i, s.qEntry q i)
  else none

/-- The head entry of ring `q` has been dealt with: TXST at bit `lo` of word `w`, for a sent frame the stamp, and QHEAD
(R369, R377). -/
def State.netDone (q i w lo txst : Nat) (stamp : Option Nat) (s : State) : State :=
  let a := s.qAddr q i
  let s1 := s.sramPut (a + 4 * w) (leBytes 4 (setBits (wordAt s.sram (a + 4 * w)).toNat lo 2 txst))
  let s2 := match stamp with
    | none => s1
    | some t => s1.sramPut (a + 8) (leBytes 6 t ++ [0, 0])
  State.qDrop q 1 s2

/-- An admitted task declares ring `q` (R158, R367). -/
def State.ringTaken (s : State) (q : Nat) : Bool := s.tasks.any fun t => t.d.que.any fun x => x.1 == q

/-- The answer to a push of `n` entries into ring `q` (R367). -/
def State.pushCode (s : State) (q n : Nat) : Code :=
  firstCode [(s.ringTaken q, eOWNER), (n == 0, eRANGE), (!s.gb QUE.QCFG_EN q || decide (s.qN q < s.qLevel q + n), eNOSPACE)]

/-- The answer to a pop of `n` entries from ring `q` (R367). -/
def State.popCode (s : State) (q n : Nat) : Code :=
  firstCode [(s.ringTaken q, eOWNER), (n == 0 || decide (s.qLevel q < n), eRANGE)]

/-- Advance QTAIL. -/
def State.qPushN (q n : Nat) (s : State) : State := s.setWord QUE.QTAIL q (s.word QUE.QTAIL q + BitVec.ofNat 32 n)

/-! Receiving on CAN. -/

/-- The entry of a received frame (R368). -/
def canEntry (f : CanFrame) (fidx : Nat) (nm : Bool) : List Word :=
  let b (x : Bool) (k : Nat) : Nat := if x then 2 ^ k else 0
  [BitVec.ofNat 32 (b f.rtr 30 + b f.xtd 29 + f.id.toNat),
   BitVec.ofNat 32 (fidx * 2 ^ 24 + b nm 23 + b f.esi 22 + b f.brs 21 + b f.fdf 20 + f.data.length),
   BitVec.ofNat 32 f.stamp, BitVec.ofNat 32 (f.stamp / 2 ^ 32 % 65536)]
  ++ bytesWords ((f.data ++ List.replicate 16 0).take 16)

/-- Bytes 16 and up of a received frame. -/
def canRest (f : CanFrame) : List Byte := f.data.drop 16

/-- Element `k` of controller `c` matches (R371). -/
def State.canMatch (s : State) (c k : Nat) (f : CanFrame) : Bool :=
  let i := 64 * c + k
  let x := s.g CAN.FLTID1_ID i
  let y := s.g CAN.FLTID2_ID i
  let id := f.id.toNat
  s.g CAN.FLTCFG_ACT i != 0 && s.gb CAN.FLTCFG_XTD i == f.xtd
    && match s.g CAN.FLTCFG_TYPE i with
      | 0 => decide (x ≤ id ∧ id ≤ y)
      | 1 => id == x || id == y
      | _ => id &&& y == x &&& y

/-- A frame enters the high-priority buffer (R372). -/
def State.canHp (c k : Nat) (f : CanFrame) (s : State) : State :=
  let words := (canEntry f k false).take 8 ++ bytesWords ((canRest f ++ List.replicate 48 0).take 48)
  let s1 := overL (List.range 20) (fun w s => s.setWord CAN.HPB (20 * c + w) (words.getD w 0)) s
  let s2 := if s.gb CAN.STAT_HPNEW c then s1.pb CAN.STAT_HPOVR c true else s1
  ((s2.pb CAN.STAT_HPNEW c true).p CAN.STAT_HPSEQ c ((s.g CAN.STAT_HPSEQ c + 1) % 64)).raise 23 (0xD0 + c) k

/-- A network doorbell (R373). -/
def State.netBell (net off tag : Nat) (data : Word) (s : State) : State :=
  s.raiseFull 23 (0x50000 + 0x10000 * net + off) tag data (BitVec.ofNat 16 net) none

/-- The safety connection of controller `c` whose identifier is `id`, if it is enabled there (R370, R379). -/
def State.canSafety (s : State) (c : Nat) (f : CanFrame) : Option Nat :=
  let base := s.g CAN.CFG_SAFEID c
  let id := f.id.toNat
  if f.xtd || id < base || base + 15 < id then none
  else
    let k := id - base
    if s.gb SAFE.CONN_EN k && s.g SAFE.CONN_NETS k == c + 1 then some k else none

/-- A safety copy on CAN (R352, R379). -/
def State.canPdu (k : Nat) (f : CanFrame) (s : State) : State :=
  if !s.rxConn k then s else if f.fdf && f.data.length == 32 then State.pduIn k true f.data s else State.connBad k s

/-- A reference message reaches a time slave (R375). -/
def State.refReceived (c : Nat) (f : CanFrame) (s : State) : State :=
  let cyc := byteNat f.data 0 1 % 64
  let carried := byteNat f.data 2 6
  let s1 := State.modCan c (fun x => { x with refIn := some (cyc, f.stamp) }) s
  match (s.canAt c).refIn with
  | none => s1
  | some (old, t) =>
    if cyc = (old + 1) % 64 then
      let off : BitVec 64 := BitVec.ofInt 64 (sext 48 (codeOf 48 ((carried : Int) - t)))
      (((s1.setWord CAN.TOFS_LO c (off.setWidth 32)).setWord CAN.TOFS_HI c ((off >>> 32).setWidth 32)).pb
        CAN.STAT_TSVALID c true).raise 23 0xD5 c
    else s1

/-- A valid frame is routed by the filters (R370, R371, R373). -/
def State.canFilter (c : Nat) (f : CanFrame) (s : State) : State :=
  let q := 21 + 2 * c
  match (List.range 64).find? fun k => s.canMatch c k f with
  | none => if s.gb CAN.CFG_NOMATCH c then State.netPush q (canEntry f 0 true) (canRest f) s else s
  | some k =>
    let ring (s : State) := State.netPush q (canEntry f k false) (canRest f) s
    let bell (s : State) := State.netBell c (s.g CAN.FLTCFG_DBOFF (64 * c + k)) k (BitVec.ofNat 32 (byteNat f.data 0 4)) s
    match s.g CAN.FLTCFG_ACT (64 * c + k) with
    | 2 => ring s
    | 3 => State.canHp c k f s
    | 4 => bell s
    | 5 => bell (ring s)
    | _ => s

/-- A frame that is valid on the bus of controller `c` (R370, R375, R382). -/
def State.canIn (c : Nat) (f : CanFrame) (s : State) : State :=
  if !s.canOn c || s.g CAN.STAT_FCS c = 2 || (f.fdf && !s.gb CAN.CFG_FDOE c) then s
  else if f.cmpErr then s.pb CAN.STAT_CMPERR c true
  else match s.canSafety c f with
    | some k => State.canPdu k f s
    | none =>
      if s.g CAN.TREF_ROLE c = 2 && !f.xtd && !f.fdf && !f.rtr && f.id.toNat = s.g CAN.TREF_ID c && f.data.length = 8
      then State.refReceived c f s
      else State.canFilter c f s

/-- CAN_FRAME_RECEIVED (R370). -/
def execCanFrameReceived (c : Fin 4) (f : CanFrame) (s : State) : Out := .next (State.canIn c f s)

/-! Transmitting on CAN. -/

/-- The fields of a transmit entry (R368). -/
structure TxEntry where
  frame : CanFrame
  len : Nat
  deriving DecidableEq, Repr

/-- Read a transmit entry of controller `c`, with its bytes 16 and up (R367, R368). -/
def State.txEntry (s : State) (c i : Nat) (e : List Word) (stamp : Nat) : TxEntry :=
  let w0 := (e.getD 0 0).toNat
  let w1 := (e.getD 1 0).toNat
  let len := bits w1 0 7
  let b := wordBytes (e.drop 4) ++ bytesAt s.sram (s.netBuf (20 + 2 * c) i) 48
  ⟨⟨BitVec.ofNat 29 w0, w0.testBit 29, w0.testBit 30, w1.testBit 20, w1.testBit 21, w1.testBit 22,
    if w0.testBit 30 then [] else b.take len, false, stamp⟩, len⟩

/-- A bad entry (R369). -/
def State.txBad (s : State) (c : Nat) (t : TxEntry) : Bool :=
  !(t.len ∈ [0, 1, 2, 3, 4, 5, 6, 7, 8, 12, 16, 20, 24, 32, 48, 64])
  || (decide (8 < t.len) && !t.frame.fdf) || (t.frame.fdf && !s.gb CAN.CFG_FDOE c)
  || (t.frame.brs && (!s.gb CAN.CFG_BRSE c || !t.frame.fdf)) || (t.frame.rtr && t.frame.fdf)

/-- A frame ended in an error: it is retried, unless ONESHOT = 1 (R369). -/
def State.canRetry (c i : Nat) (s : State) : State :=
  if s.gb CAN.CFG_ONESHOT c then State.netDone (20 + 2 * c) i 1 30 2 none s else s

/-- The entry at the head of the transmit ring of controller `c` is dealt with (R366, R369, R382). -/
def State.canTx (c : Nat) (r : CanTxResult) (s : State) : State :=
  let q := 20 + 2 * c
  if !s.canOn c || s.g CAN.CFG_MODE c = 1 || s.g CAN.STAT_FCS c = 2 then s else
  match s.netHead q with
  | none => s
  | some (i, e) =>
    let stamp := match r with
      | .sent t => t
      | _ => 0
    let t := s.txEntry c i e stamp
    if s.txBad c t then State.canErr c 4 (State.netDone q i 1 30 3 none s)
    else match r with
      | .sent st =>
        let s1 := State.modCan c (fun x => { x with txLast := some t.frame }) (State.netDone q i 1 30 1 (some st) s)
        if s.g CAN.CFG_MODE c = 3 then State.canFilter c t.frame s1 else s1
      | .failed => State.canRetry c i s
      | .cmpErr => State.canRetry c i (s.pb CAN.STAT_CMPERR c true)

/-- CAN_TRANSMIT_COMPLETE (R369). -/
def execCanTransmitComplete (c : Fin 4) (r : CanTxResult) (s : State) : Out := .next (State.canTx c r s)

/-- A bus error or a protocol exception (R366): the counters of ISO 11898-1 after it, frozen in RESTRICTED mode. -/
def State.canBusError (c : Nat) (k : CanError) (s : State) : State :=
  if !s.canOn c || s.g CAN.STAT_FCS c = 2 then s else
  let s1 := s.p CAN.STAT_LEC c k.lec.toNat
  let s2 := if s.g CAN.CFG_MODE c = 2 then s1 else
    let fcs := if 256 ≤ k.newTec then 2 else if 128 ≤ k.newTec ∨ 128 ≤ k.newRec then 1 else 0
    let s' := (((s1.p CAN.STAT_TEC c (min 255 k.newTec)).p CAN.STAT_REC c (min 127 k.newRec)).pb
      CAN.STAT_RP c (decide (128 ≤ k.newRec))).p CAN.STAT_FCS c fcs
    if fcs = 2 then State.canErr c 1 s'
    else if fcs = 1 ∧ s.g CAN.STAT_FCS c = 0 then State.canErr c 0 s' else s'
  if k.exception then State.canErr c 3 (s2.pb CAN.STAT_PXE c true) else s2

/-- CAN_BUS_ERROR (R366). -/
def execCanBusError (c : Fin 4) (k : CanError) (s : State) : Out := .next (State.canBusError c k s)

/-- CAN_BUS_OFF_RECOVERY (R366). -/
def execCanBusOffRecovery (c : Fin 4) (s : State) : Out :=
  .next (if s.canOn c.val && s.g CAN.STAT_FCS c.val == 2 && s.gb CAN.CFG_AUTOREC c.val
    then State.canErr c.val 2 (State.canStart c.val s) else s)

/-- A time master's PERIOD has passed (R375, R383): the message, if it is sent, and the cycle count, which continues
in bus-off. -/
def State.refSend (c : Nat) (sent : Option Nat) (s : State) : State :=
  if !s.canOn c || s.g CAN.TREF_ROLE c != 1 then s else
  let x := s.canAt c
  State.modCan c (fun y => { y with
    cycle := (y.cycle + 1) % 64
    refLast := if s.g CAN.STAT_FCS c = 2 then y.refLast
               else [BitVec.ofNat 8 x.cycle, 0] ++ leBytes 6 (x.refSent.getD 0)
    refSent := if s.g CAN.STAT_FCS c = 2 then y.refSent else match sent with
      | none => y.refSent
      | some t => some t }) s

/-- TIME_REFERENCE_SEND (R375). -/
def execTimeReferenceSend (c : Fin 4) (sent : Option Nat) (s : State) : Out := .next (State.refSend c sent s)

/-! Ethernet. -/

/-- MAC `m` is enabled. -/
def State.ethOn (s : State) (m : Nat) : Bool := s.netUp && s.gb ETH.CFG_EN m

/-- The link of MAC `m` changes (R376). -/
def State.ethLink (m : Nat) (upNow : Bool) (spd : Nat) (s : State) : State :=
  if !s.netUp then s else
  let s1 := (s.pb ETH.STAT_LINK m upNow).p ETH.STAT_SPD m spd
  if s.gb ETH.STAT_LINK m = upNow then s1 else s1.raise 23 0xD8 (m + if upNow then 2 else 0)

/-- ETH_LINK (R376). -/
def execEthLink (m : Fin 2) (up : Bool) (spd : BitVec 2) (s : State) : Out := .next (State.ethLink m up spd.toNat s)

/-- The entry at the head of the transmit ring of MAC `m` is dealt with (R376, R377, R382): a frame is padded to 64 bytes
with its FCS; one that the copies disagree on has failed. -/
def State.ethTx (m : Nat) (r : EthTxResult) (s : State) : State :=
  let q := 16 + 2 * m
  if !s.ethOn m then s else
  match s.netHead q with
  | none => s
  | some (i, e) =>
    let len := bits (e.getD 0 0).toNat 0 11
    if ¬(14 ≤ len ∧ len ≤ 1518) then State.netDone q i 0 28 3 none s
    else match r with
      | .sent stamp =>
        let b := bytesAt s.sram (s.netBuf q i) len
        State.netDone q i 0 28 1 (some stamp)
          { s with eth := upd s.eth m fun x => { x with txLast := b ++ List.replicate (60 - len) 0 } }
      | .cmpErr => State.netDone q i 0 28 2 none (s.pb ETH.STAT_CMPERR m true)

/-- ETH_TRANSMIT_COMPLETE (R377). -/
def execEthTransmitComplete (m : Fin 2) (r : EthTxResult) (s : State) : Out := .next (State.ethTx m r s)

/-- MDIO_DONE (R376). -/
def execMdioDone (m : Fin 2) (data : BitVec 16) (s : State) : Out :=
  .next (if s.gb ETH.MDIO_BUSY m.val then
      let s1 := s.pb ETH.MDIO_BUSY m.val false
      if (s.eth[m]).mdioWrite then s1 else s1.p ETH.MDIO_DATA m.val data.toNat
    else s)

/-- Two bytes, most significant first, at offset `o`. -/
def be16 (b : List Byte) (o : Nat) : Nat := beNat ((b.drop o).take 2)

/-- Offset of the EtherType after any 802.1Q tag. -/
def etAt (b : List Byte) : Nat := if be16 b 12 = 0x8100 then 16 else 12

/-- A 6-byte address held in two registers, byte 0 in the lowest bits. -/
def addr6 (lo hi : Word) : List Byte := leBytes 4 lo.toNat ++ leBytes 2 hi.toNat

/-- The address of MAC `m`. -/
def State.macAddr (s : State) (m : Nat) : List Byte := addr6 (s.word ETH.MACL m) (s.word ETH.MACH m)

/-- MAC `m` takes a frame to this destination (R377). -/
def State.ethTakes (s : State) (m : Nat) (b : List Byte) : Bool :=
  let d := b.take 6
  d == s.macAddr m || d == List.replicate 6 0xFF || (s.gb ETH.CFG_MCAST m && (b.getD 0 0).getLsbD 0) || s.gb ETH.CFG_PROMISC m

/-- An IEEE 1588 event message: EtherType 0x88F7, or UDP over IPv4 to port 319 (R377). -/
def isPtp (b : List Byte) : Bool :=
  let e := etAt b
  let ip := e + 2
  be16 b e == 0x88F7
    || (be16 b e == 0x0800 && (b.getD (ip + 9) 0).toNat == 17 && be16 b (ip + 4 * ((b.getD ip 0).toNat % 16) + 2) == 319)

/-- The entry of a received frame (R377). -/
def ethEntry (f : EthFrame) : List Word :=
  let b := f.bytes
  let vlan := be16 b 12 == 0x8100
  [BitVec.ofNat 32 ((if vlan then 2 ^ 31 else 0) + (if isPtp b then 2 ^ 30 else 0) + b.length),
   BitVec.ofNat 32 ((if vlan then be16 b 14 else 0) * 65536 + be16 b (etAt b)),
   BitVec.ofNat 32 f.stamp, BitVec.ofNat 32 (f.stamp / 2 ^ 32 % 65536), 0, 0, 0, 0]

/-- A frame is dropped (R377). -/
def State.ethDrop (m : Nat) (s : State) : State := s.inc ETH.STAT_DROP m

/-- A safety copy on MAC `m`: for each connection there that its CONNID names (R352, R379). -/
def State.ethPdu (m : Nat) (pay : List Byte) (s : State) : State :=
  overL (List.range 16) (fun c s =>
    let nets := s.g SAFE.CONN_NETS c
    if s.rxConn c && (nets == 0 || (m == 0 && nets ≤ 4)) && s.g SAFE.CONN_ID c == byteNat pay 0 2 then
      if pay.length == 46 && (pay.drop 32).all (· == 0) then State.pduIn c (m == 1) (pay.take 32) s else State.connBad c s
    else s) s

/-- The checks of R377 a frame must pass: nothing is left of one that fails but a count. -/
def State.ethCheck (m : Nat) (f : EthFrame) (s : State) : State × Bool :=
  if f.cmpErr then (State.ethDrop m (s.pb ETH.STAT_CMPERR m true), false)
  else if !f.fcsOk then (s.inc ETH.STAT_FCSERR m, false)
  else if 1518 < f.bytes.length || !s.ethTakes m f.bytes || be16 f.bytes (etAt f.bytes) = 0x8808 then (State.ethDrop m s, false)
  else (s, true)

/-! Safety PDUs sent (R351, R379). -/

/-- The copies of a PDU of connection `c` that leave: on a MAC that is enabled, and on a controller that is enabled, in
NORMAL mode, with FDOE = 1 and not bus-off (R379). -/
def State.pduCopies (s : State) (c : Nat) (pdu : List Byte) : List PduCopy :=
  let eth (m : Nat) : List PduCopy :=
    let et := s.g ETH.ETYPE_SAFEET m
    if s.ethOn m then
      [.eth (Fin.ofNat 2 m) (addr6 (s.word ETH.SDSTL m) (s.word ETH.SDSTH m) ++ s.macAddr m
        ++ [BitVec.ofNat 8 (et / 256), BitVec.ofNat 8 et] ++ pdu ++ List.replicate 14 0)]
    else []
  let k := s.g SAFE.CONN_NETS c - 1
  eth 0 ++ if s.g SAFE.CONN_NETS c = 0 then eth 1
    else if s.canOn k && s.g CAN.CFG_MODE k == 0 && s.gb CAN.CFG_FDOE k && s.g CAN.STAT_FCS k != 2 then
      [.can (Fin.ofNat 4 k) (s.g CAN.CFG_SAFEID k + c) (s.gb CAN.CFG_BRSE k) pdu]
    else []

/-- A TX connection sends one copy on each network (R351). -/
def State.pduSend (c : Nat) (s : State) : State :=
  if s.netUp && s.gb SAFE.CONN_EN c && s.gb SAFE.CONN_DIR c then
    let seq := (s.conn c).txSeq + 1
    let pdu := s.pduBytes c seq
    State.modConn c (fun y => { y with txSeq := seq, txLast := pdu, txCopies := s.pduCopies c pdu }) s
  else s

/-- PDU_TRANSMIT (R351). -/
def execPduTransmit (c : Fin 16) (s : State) : Out := .next (State.pduSend c s)

/-! Register writes. -/

/-- A write of MDIO starts a transaction (R376). -/
def State.mdioStart (m : Nat) (s : State) : State :=
  { s.pb ETH.MDIO_BUSY m true with eth := upd s.eth m fun x => { x with mdioWrite := s.gb ETH.MDIO_OP m } }

/-- A write of PTPOFS_HI applies the held low half with it (R380). -/
def State.ptpApply (s : State) : State := { s with ptpOfs := (s.word ETH.PTPOFS_HI).append s.ptpHeld }

/-- The 1588 time, in ns, of a stamp (R380). -/
def State.ptpTime (s : State) (t : Nat) : Int := s.ptpOfs.toInt + 5 * t + 5 * t * sval (s.word ETH.PTPRATE) / 2 ^ 40

end Sys2Proof.Machine
end

