-- ==== Sys2Proof/Machine/Islands.lean ====
section
/-! DEFINITION. Failures of islands, clocks, crossings, REFIN and TBASE (R11 to R19, R24), and their reactions. -/

namespace Sys2Proof.Machine

/-- The reaction of R13 for a failed island. -/
def State.islandFails (i : Nat) (s : State) : State :=
  let s1 := { s with pwr := { s.pwr with failed := s.pwr.failed ||| BitVec.ofNat 26 (2 ^ i) } }
  if i = 0 then s1.pb CNPY.STAT_RTCBAD 0 true
  else if i = 1 then
    let s2 := overL (List.range 48) (fun n => State.forcePad n false) s1
    State.faultSafe { s2 with pwr := { s2.pwr with padLow := BitVec.allOnes 60 } }
  else if i ≤ 17 then State.engineFailed (i - 2) s1
  else if i ≤ 21 then s1.faultSafe
  else if i = 25 then
    State.enterSafe 4 none (State.guarUpdate { s1 with bgs := { s1.bgs with slices := [] } })
  else s1

/-- The islands whose clock or crossing failure keeps the FAULT cause present (R435). -/
def causeIsland (i : Nat) : Bool := i ∈ [1, 18, 19, 20, 21, 25]

/-- Note a failure for R435. -/
def State.noteFault (i : Nat) (s : State) : State :=
  if causeIsland i then { s with pwr := { s.pwr with fltCause := true } } else s

/-- An island's clock is declared failed (R11, R13). CLK_FAIL is raised from MEMF, through which every checker reports.
DESIGN CHOICE (log entry 102). -/
def State.clockFails (i : Nat) (s : State) : State :=
  if !s.up then s
  else
    let s1 := (s.pbit SYS.ISLCLK_FAIL 0 i true).raise 18 0x0A i
    State.afterCause s1 (State.islandFails i (State.noteFault i s1))

/-- CLOCK_FAILURE (R11). -/
def execClockFailure (i : Fin 26) (s : State) : Out := .next (State.clockFails i s)

/-- A direct crossing joins two islands (R16). -/
def crossing (a b : Nat) : Bool :=
  let one (x y : Nat) : Bool :=
    (2 ≤ x && x ≤ 17 && y ∈ [18, 20, 1]) || (x == 1 && y ∈ [19, 20, 21, 18, 23, 0])
      || (x == 18 && y ∈ [19, 20, 21, 22, 23, 24, 0]) || (x == 20 && y ∈ [21, 19]) || (x == 25 && y != 25)
  one a b || one b a

/-! Crossing transfers (R17, R18). -/

/-- The DATA field of a transfer. -/
def xferData (t : Transfer) : BitVec 64 := (t.word >>> 32).setWidth 64
/-- The STAMP16 field of a transfer. -/
def xferStamp16 (t : Transfer) : Nat := bits t.word.toNat 16 16
/-- The KIND field of a transfer. -/
def xferKind (t : Transfer) : Nat := bits t.word.toNat 14 2
/-- The SEQ field of a transfer. -/
def xferSeq (t : Transfer) : Nat := bits t.word.toNat 10 4
/-- The DST field of a transfer. -/
def xferDst (t : Transfer) : Nat := bits t.word.toNat 5 5
/-- The SRC field of a transfer. -/
def xferSrc (t : Transfer) : Nat := bits t.word.toNat 0 5

/-- One bit into a CRC-16 of polynomial 0x1021 (R17). -/
def crc16Bit (c : BitVec 16) (b : Bool) : BitVec 16 := if c.msb != b then (c <<< 1) ^^^ 0x1021 else c <<< 1

/-- The check code of R17 over bits 95:0, bit 95 first (log entry 103). -/
def crc16 (w : BitVec 96) : BitVec 16 := (List.range 96).foldl (fun c i => crc16Bit c (w.getLsbD (95 - i))) 0xFFFF

/-- The full stamp of a cause from its low 16 bits and the receiver's view: the one less than 2^15 ticks from the view
(R17). -/
def fullStamp (low16 view : Nat) : Nat := ((view : Int) + sext 16 ((low16 + 65536 - view % 65536) % 65536)).toNat

/-- The entry of a crossing in `State.xings`. -/
def xingKey (src dst : Nat) : Nat := 32 * src + dst

/-- The receiver finds nothing wrong with a transfer: its CRC, and its SEQ, the successor of the previous one (R17, R18).
Any SEQ may come first (log entry 103). -/
def State.xferOk (s : State) (src dst : Nat) (t : Transfer) : Bool :=
  t.chk == crc16 t.word && match assocGet s.xings (xingKey src dst) with
    | none => true
    | some x => xferSeq t == (x.seq + 1) % 16

/-- A checked transfer is passed on: its payload, unless it is a heartbeat or an acknowledge, and its cause's stamp
(R17). -/
def State.xferIn (src dst : Nat) (t : Transfer) (s : State) : State :=
  let was := (assocGet s.xings (xingKey src dst)).getD ⟨0, 0, 0⟩
  let now : Received := if xferKind t = 0 then ⟨xferSeq t, xferData t, fullStamp (xferStamp16 t) s.tbase⟩ else { was with seq := xferSeq t }
  { s with xings := assocPut s.xings (xingKey src dst) now }

/-- A crossing works: it is a direct one, and no side is unpowered or treated so (R13, R16). -/
def State.xingLive (s : State) (src dst : Nat) : Bool :=
  s.up && crossing src dst && !(src ∈ [22, 23] && s.pwr.failed.getLsbD src) && !(dst ∈ [22, 23] && s.pwr.failed.getLsbD dst)

/-- A crossing is declared failed (R18): the reactions of both islands, as though both clocks had failed. XING_FAIL is
raised from MEMF. DESIGN CHOICE (log entry 102). -/
def State.crossingFails (src dst : Nat) (s : State) : State :=
  let s1 := if s.gb SYS.XSTAT_FAIL then s
    else ((s.pb SYS.XSTAT_FAIL 0 true).p SYS.XSTAT_SRC 0 src).p SYS.XSTAT_DST 0 dst
  let s2 := s1.raise 18 0x0B src
  State.afterCause s2 (State.islandFails dst (State.islandFails src (State.noteFault dst (State.noteFault src s2))))

/-- A transfer and, where it fails its checks, its resend: one that passes goes on, the resend is counted, and a resend
that fails as well fails the crossing (R17, R18). -/
def State.transfer (src dst : Nat) (first resent : Transfer) (s : State) : State :=
  if s.xferOk src dst first then State.xferIn src dst first s
  else
    let s1 := s.inc SYS.XSTAT_RETRIES 0
    if s1.xferOk src dst resent then State.xferIn src dst resent s1 else State.crossingFails src dst s1

/-- CROSSING_FAILURE (R18). -/
def execCrossingFailure (x : Crossing) (t : CrossingTries) (s : State) : Out :=
  .next (if s.xingLive x.src x.dst then State.transfer x.src x.dst t.first t.resent s else s)

/-- HEARTBEAT_TIMEOUT (R19). -/
def execHeartbeatTimeout (src dst : Fin 26) (s : State) : Out :=
  .next (if s.xingLive src dst then State.crossingFails src dst s else s)

/-- The enable toggle runs: PD_FBRK has been released (R14, R46 step 2). -/
def State.toggleRuns (s : State) : Bool := s.pwr.phase == .running || s.pwr.phase == .refinWait

/-- PAD_TOGGLE_LOSS (R14): the pad latches low until PD_FBRK has been reset; a pad that was high falls. -/
def execPadToggleLoss (pad : Fin 60) (s : State) : Out :=
  .next (if s.toggleRuns then
      let s1 := if pad.val < 48 then State.forcePad pad.val false s else s
      { s1 with pwr := { s1.pwr with padLow := s1.pwr.padLow ||| BitVec.ofNat 60 (2 ^ pad.val) } }
    else s)

/-- REFIN is lost (R12). -/
def State.refLoss (s : State) : State :=
  let s0 := { s with pwr := { s.pwr with refinOk := false } }
  if !s.up then s0
  else
    let s1 := (s0.pb TIME.STAT_REFLOSS 0 true).raise 0 0x09 0
    State.afterCause s1 (State.enterSafe 4 none s1.guarUpdate)

/-- REF_LOSS (R12). -/
def execRefLoss (s : State) : Out := .next s.refLoss

/-- An island sees an invalid TBASE step (R24). -/
def State.tbaseFault (i : Nat) (s : State) : State :=
  if !s.up then s
  else
    let s1 := (s.pb TIME.STAT_GRAYERR 0 true).raise i 0x08 i
    State.afterCause s1 (State.enterSafe 4 none { s1 with pwr := { s1.pwr with tbaseFault := true } })

/-- TBASE_ERR (R24). -/
def execTbaseErr (i : Fin 26) (s : State) : Out := .next (State.tbaseFault i s)

end Sys2Proof.Machine
end

