-- ==== Sys2Proof/Machine/Background.lean ====
section
/-! DEFINITION. The Percolator and the non-volatile store (R384 to R405): self-test slices, scrubbing, repair, scan,
wear estimation, telemetry samples, and the event log. -/

namespace Sys2Proof.Machine

/-! Failure records (R391). -/

/-- A failure is recorded, counted and logged: its address, kind, state, island and bit (R391, R405). -/
def State.failRecord (addr : Word) (kind st isl bit : Nat) (s : State) : State :=
  let w1 := BitVec.ofNat 32 (2 ^ 31 + kind * 2 ^ 28 + st * 2 ^ 26 + isl * 2 ^ 21 + bit)
  let s1 := ((s.setWord BGS.FAILREC0 0 addr).setWord BGS.FAILREC1 0 w1).inc BGS.FAILCNT_CNT 0
  State.logEntry (wordBytes [addr, w1, BitVec.ofNat 32 s.tbase, BitVec.ofNat 32 (s.tbase / 2 ^ 32 % 65536)]) s1

/-- The island of a memory with spares. -/
def spareIsl : SpareMem → Nat
  | .bank _ => 18
  | .engine e _ => e.val + 2

/-- The spare rows and columns that repair a cell (R35, R390): of a bank's 16 rows one is kept for slices. A cell may take
a row or a column. -/
def spareCount : SpareMem → Nat
  | .bank _ => 15 + 8
  | .engine _ _ => 4 + 2

/-- Spares of a memory that are mapped, burned or not. -/
def State.mapped (s : State) (m : SpareMem) : Nat := s.fuses.burned.count m + s.bgs.softRepairs.count m

/-- A spare is mapped over a cell of a memory, at once (R390). -/
def State.mapSpare (m : SpareMem) (s : State) : State :=
  ({ s with bgs := { s.bgs with softRepairs := s.bgs.softRepairs ++ [m] } }).raise 18 0xE1 (spareIsl m)

/-- The memory of a failing cell: its island, the kind of its record, and its address. -/
def memOf (isl kind : Nat) (addr : Word) : SpareMem :=
  if isl = 18 then .bank (Fin.ofNat 16 (addr.toNat / 0x200000)) else .engine (Fin.ofNat 16 (isl - 2)) (kind == 2)

/-- A cell of an island has failed (R390): a spare is mapped over it, or none is left and it stays in service. -/
def State.repairCell (isl : Nat) (addr : Word) (kind bit : Nat) (s : State) : State :=
  let m := memOf isl kind addr
  let spare := decide (s.mapped m < spareCount m)
  let s1 := State.failRecord addr kind (if spare then 1 else 2) isl bit s
  if spare then State.mapSpare m s1 else s1

/-! Slices (R384 to R388). -/

/-- The island a block belongs to (R386, R387). -/
def blockIsl : SliceBlock → Nat
  | .engine e => e.val + 2
  | .bank _ => 18
  | .dsm _ => 20
  | .conv _ => 21
  | .comp _ => 21
  | .port _ => 20
  | .island i => i.val

/-- The block is an engine. -/
def blockIsEngine : SliceBlock → Bool
  | .engine _ => true
  | _ => false

/-- The block is an SRAM bank. -/
def blockIsBank : SliceBlock → Bool
  | .bank _ => true
  | _ => false

/-- The block is neither: a slice of one island other than GRV0–GRV15. -/
def blockIsOther (b : SliceBlock) : Bool := !blockIsEngine b && !blockIsBank b

/-! The coverage cycle (R387). -/

/-- The other islands in the order of R387: FBRK, SENS, ANLG, PWMT, MEMF, NETW, HOST, NVST, TEST, CNPY. -/
def otherIsls : List Nat := [1, 20, 21, 19, 18, 23, 22, 24, 25, 0]

/-- The slices per cycle of block `i` of the list: an engine, a bank, or another island. -/
def sliceQuota (i : Nat) : Nat :=
  if i < 16 then 8 else if i < 32 then 1024 else [200, 128, 112, 96, 64, 48, 32, 32, 16, 16].getD (i - 32) 0

/-- The place of a block in the list; 42 for none. -/
def sliceIdx (b : SliceBlock) : Nat :=
  match b with
  | .engine e => e.val
  | .bank n => 16 + n.val
  | _ => 32 + otherIsls.findIdx (· == blockIsl b)

/-- Block `i` of the list has slices to come in this cycle; an engine or a bank out of service has none. -/
def State.sliceLeft (s : State) (i : Nat) : Bool :=
  decide (at' s.bgs.had i 0 < sliceQuota i)
    && if i < 16 then s.est i != eOFF && s.est i != eRETIRED
       else if i < 32 then s.bankOk ((i - 16) * 0x200000) else true

/-- Blocks `a` to `b` of the list have had all their slices. -/
def State.slicesDone (s : State) (a b : Nat) : Bool := (List.range b).all fun i => decide (i < a) || !s.sliceLeft i

/-- The turn of block `b` (R385, R387): the other islands run in the listed order; a throttled Percolator admits SRAM
slices first, then another island's, then an engine's. -/
def State.sliceTurn (s : State) (b : SliceBlock) : Bool :=
  let i := sliceIdx b
  let sram := s.bgs.slices.any blockIsBank || s.slicesDone 16 32
  let other := s.bgs.slices.any blockIsOther || s.slicesDone 32 42
  (!blockIsOther b || s.slicesDone 32 i)
    && (!s.gb BGS.STAT_THROT || blockIsBank b || (sram && (blockIsOther b || other)))

/-- A slice of block `b` has been had; a targeted one is all of its block's slices (R194, R388). -/
def State.sliceHad (b : SliceBlock) (targeted : Bool) (s : State) : State :=
  let i := sliceIdx b
  { s with bgs := { s.bgs with had := upd s.bgs.had i fun k => if targeted then sliceQuota i else k + 1 } }

/-- When every block has had every one of its slices the cycle is complete (R387). -/
def State.cycleCheck (s : State) : State :=
  if s.slicesDone 0 42 then
    let s1 := s.p BGS.STAT_CYCMS 0 (min 4095 ((s.tbase - s.bgs.cycleStart) / 200000))
    { s1 with bgs := { s1.bgs with cycleStart := s.tbase, had := fillV 42 0, moved := [] } }
  else s

/-- The charge of the running activities, in 0.1 W; scrubbing is counted first (R384). -/
def chargeOf (l : List SliceBlock) : Nat :=
  1 + (if l.any blockIsBank then 2 else 0) + 2 * l.countP blockIsOther + 12 * l.countP blockIsEngine

/-- Bring ENGT and ISL up to date. -/
def State.sliceRegs (s : State) : State :=
  let l := s.bgs.slices
  let isl := match l.find? blockIsOther with
    | some b => (blockIsl b)
    | none => 31
  (s.p BGS.STAT_ENGT 0 (min 2 (l.countP blockIsEngine))).p BGS.STAT_ISL 0 isl

/-- The Percolator runs: outside SLEEP and BOOT, while TEST has not failed (R13, R384). -/
def State.percolates (s : State) : Bool :=
  s.up && s.mode != mBOOT && !s.pwr.failed.getLsbD 25

/-- Engines in TEST, or draining for a slice (R181). -/
def State.sliceEngines (s : State) : Nat :=
  ((List.range 16).filter fun e => s.est e == eTEST || (s.est e == eDRAIN && s.g PLC.ESTAT_REASON e == rSLICE)).length

/-- The slice of block `b` runs. -/
def State.sliceRun (b : SliceBlock) (s : State) : State :=
  let s1 := { s with bgs := { s.bgs with slices := s.bgs.slices ++ [b] } }
  let s2 := match b with
    | .dsm n => s1.pb DSM.STAT_SPARE n true
    | _ => s1
  s2.sliceRegs

/-- A slice of an engine is due (R165, R176, R181, R185): a SPARE engine goes to TEST, an ACTIVE one is drained first. -/
def State.sliceEngine (e : Nat) (s : State) : State :=
  let spares := (s.inState eSPARE).length
  if s.dbgEngine = some e || (s.bgs.slices.contains (.engine (Fin.ofNat 16 e))) then s
  else if s.est e = eTEST then State.sliceRun (.engine (Fin.ofNat 16 e)) s
  else if s.est e = eSPARE && !s.isDest e && (s.sliceEngines == 0 || (s.sliceEngines == 1 && decide (2 ≤ spares))) then
    State.sliceRun (.engine (Fin.ofNat 16 e)) (State.setEst e eTEST 0 s).plc
  else if s.est e = eACTIVE && s.sliceEngines ≤ 1 && decide (1 ≤ spares) then
    match State.drainTo e rSLICE s with
    | some s1 => s1.plc
    | none => s
  else s

/-- The slice is an engine's targeted one (R194). -/
def State.targetedSlice (s : State) : SliceBlock → Bool
  | .engine e => (s.eng e).targeted
  | _ => false

/-- The Percolator starts a slice, within the cap, one other island at a time, of a block whose turn it is (R384, R385,
R387); a targeted one needs no turn. -/
def State.sliceStart (b : SliceBlock) (s : State) : State :=
  let l := s.bgs.slices
  if !s.percolates || s.g BGS.PWRCAP_CAP 0 < chargeOf (b :: l) || l.contains b || (blockIsOther b && l.any blockIsOther)
    || !(s.targetedSlice b || (s.sliceLeft (sliceIdx b) && s.sliceTurn b)) then s
  else match b with
    | .engine e => State.sliceEngine e s
    | _ => State.sliceRun b s

/-- SLICE_START (R386). -/
def execSliceStart (b : SliceBlock) (s : State) : Out := .next (State.sliceStart b s)

/-- A slice has failed (R388): the record, BIST_FAIL, and the reaction of the block. A defective cell of a memory is
repaired or stays in service (R390), but a targeted slice that fails retires the engine (R194). -/
def State.sliceFailed (b : SliceBlock) (r : SliceResult) (s : State) : State :=
  let cell := blockIsBank b || (blockIsEngine b && (r.kind == 1 || r.kind == 2))
  let s1 := s.raise 18 0xE0 (blockIsl b)
  if cell then
    let s2 := State.repairCell (blockIsl b) r.addr r.kind.toNat r.bit.toNat s1
    match b with
    | .engine e => if (s2.eng e).targeted then State.retireEngine e s2 else s2
    | _ => s2
  else
    let s2 := State.failRecord r.addr r.kind.toNat 3 (blockIsl b) r.bit.toNat s1
    match b with
    | .engine e => State.retireEngine e s2
    | _ => State.islandFails (blockIsl b) s2

/-- A converter slice has measured the offset again (R396): the trim in force moves toward the measurement, once in a
coverage cycle. -/
def State.offsetDrift (c : Nat) (r : SliceResult) (s : State) : State :=
  let s1 := if (s.g BGS.CALCFG_DRIFTLIM 0 : Int) < absI r.offset
    then (s.pb BGS.CALSTAT_DRIFT 0 true).raise 18 0xE2 c else s
  let gap := r.offset - (sval (s.bgs.trims.getD c 0) - sval (s.bgs.committed.getD c 0))
  if s.gb BGS.CALCFG_AUTO && !s.bgs.moved.contains (Fin.ofNat 24 c) then
    { s1 with bgs := { s1.bgs with
      trims := s1.bgs.trims.modify c fun t => t + ofInt (sgnI gap)
      moved := if gap = 0 then s1.bgs.moved else s1.bgs.moved ++ [Fin.ofNat 24 c] } }
  else s1

/-- A slice ends (R165, R386 to R388, R396). -/
def State.sliceEnd (b : SliceBlock) (r : SliceResult) (s : State) : State :=
  if !s.bgs.slices.contains b then s else
  let s1 := State.sliceHad b (s.targetedSlice b)
    ({ s with bgs := { s.bgs with slices := s.bgs.slices.filter (· != b) } }).sliceRegs
  let s2 := match b with
    | .dsm n => s1.pb DSM.STAT_SPARE n false
    | .conv c => State.offsetDrift c r s1
    | _ => s1
  let s3 := if r.failed then State.sliceFailed b r s2 else s2
  let s4 := match b with
    | .engine e =>
      if s3.est e = eTEST && (!s3.sliceLeft e || (s3.eng e).targeted) then
        (State.setEst e eSPARE 0 (State.modEng e (fun x => { x with targeted := false }) s3)).plc
      else s3
    | _ => s3
  s4.cycleCheck

/-- SLICE_END (R388). -/
def execSliceEnd (b : SliceBlock) (r : SliceResult) (s : State) : Out := .next (State.sliceEnd b r s)

/-! Scrubbing (R32, R33, R36, R37, R389, R390). -/

/-- The memory is scrubbed: a bank in service, the memories of an engine neither OFF nor RETIRED, the delay buffers. -/
def State.scrubbed (s : State) : MemLoc → Bool
  | .sram cw => s.bankOk (32 * cw) && decide (32 * cw < sramEnd)
  | .localMem e _ _ => s.est e != eOFF && s.est e != eRETIRED
  | .buffer _ _ => true

/-- The island, kind and address of a memory's record. -/
def locPlace : MemLoc → Nat × Nat × Word
  | .sram cw => (18, 0, BitVec.ofNat 32 (32 * cw))
  | .localMem e data cw =>
    (e.val + 2, if data then 2 else 1,
      BitVec.ofNat 32 (0x10000000 + 0x100000 * e.val + (if data then 0x20000 else 0) + 16 * cw.val))
  | .buffer _ _ => (18, 3, 0)

/-- The memory of a codeword has spares (R390). -/
def hasSpares : MemLoc → Bool
  | .buffer _ _ => false
  | _ => true

/-- Symbols of codewords have been struck (R32, R36): the next read of such a codeword finds them. -/
def State.strike (struck : List (MemLoc × Nat)) (s : State) : State := { s with upsets := s.upsets ++ struck }

/-- The scrubber reads a codeword (R389): what it found there is settled with it. -/
def State.scrub (loc : MemLoc) (r : ScrubResult) (s0 : State) : State :=
  if !s0.up || s0.mode = mBOOT || !s0.scrubbed loc then s0 else
  let s := { s0 with upsets := s0.upsets.filter fun x => x.1 != loc }
  let others := s.bgs.lastCorr.filter (·.1 != loc)
  match r with
  | .clean => { s with bgs := { s.bgs with lastCorr := others } }
  | .corrected bit =>
    let again := s.bgs.lastCorr.contains (loc, bit.toNat)
    let s1 := { s.inc SYS.MEMERR_CORR 0 with bgs := { s.bgs with lastCorr := others ++ [(loc, bit.toNat)] } }
    if again && hasSpares loc then State.repairCell (locPlace loc).1 (locPlace loc).2.2 (locPlace loc).2.1 bit.toNat s1
    else s1
  | .uncorrectable =>
    match loc with
    | .sram cw =>
      if s.poison.contains cw then s.inc BGS.FAILCNT_CNT 0
      else State.memUnc false (cw / 65536) { s with poison := cw :: s.poison }
    | .localMem e _ _ =>
      let s1 := State.memUnc true e s
      State.afterCause s1 (State.engineFailed e s1)
    | .buffer _ _ => s

/-- SCRUB_READ (R389). -/
def execScrubRead (loc : MemLoc) (r : ScrubRead) (s : State) : Out :=
  .next (State.scrub loc r.found (State.strike r.struck s))

/-! Scan (R393). -/

/-- A scan request is granted, in the order of R393, or refused. -/
def State.scanRequest (s : State) : State :=
  if !s.up then s
  else if s.gb NVS.KEYSTAT_ZERO && s.gb NVS.KEYSTAT_CLOSED then
    (State.enterSafe 4 none (overL s.allUnits (fun u => State.forceSto .safety u) s)).pb NVS.KEYSTAT_SCAN 0 true
  else s.pb NVS.KEYSTAT_SCANREF 0 true

/-- SCAN_REQUEST (R393). -/
def execScanRequest (s : State) : Out := .next s.scanRequest

/-- The key store is zeroized, a session ends and NVST is closed (R357, R392). -/
def State.zeroize (s : State) : State :=
  let s1 := State.sessEnd 2 { s with safe := { s.safe with seeds := fillV 4 none } }
  (s1.sessRegs.pb NVS.KEYSTAT_ZERO 0 true).pb NVS.KEYSTAT_CLOSED 0 true

/-! Wear (R397, R398). -/

/-- binary32 product, sum, quotient and absolute difference. -/
def mulW (a b : Word) : Word := (outF (mulExact (F32.of a) (F32.of b))).1
def addW (a b : Word) : Word := (addF (F32.of a) (F32.of b)).1
def divW (a b : Word) : Word := (divF (F32.of a) (F32.of b)).1
def distW (a b : Word) : Word := (addF (F32.of a) (negF (F32.of b))).1 &&& 0x7FFFFFFF
def ltW (a b : Word) : Bool := ltF (F32.of a) (F32.of b)

/-- A signed integer times 2^e as binary32. -/
def intW (v e : Int) : Word := (roundZ v e).1

/-- The per-unit VDC of the link of an axis; free where the axis has no link. -/
def State.axisVdc (s : State) (a : Nat) : Word :=
  match s.linkOf (s.g CTL.AXCFG_BR a) with
  | some l => intW (sval (s.link l.val).vdc) (-31)
  | none => s.free

/-- The junction temperature of bridge `k` (R397), its terms taken in the order written. -/
def State.wearTj (s : State) (k : Nat) (iBar iRms : Word) : Word :=
  let x := intW (sval (s.word ADC.RES (s.g BGS.WCFG_NTC k))) (-31)
  let tc := addW (s.word BGS.WTOFF k) (mulW (s.word BGS.WTGAIN k) x)
  let fsw := divW (intW 200000 0) (intW (s.g GATE.CAR_PERIOD k) 0)
  let p := addW (addW (mulW (s.word BGS.WK1 k) iBar) (mulW (s.word BGS.WK2 k) (mulW iRms iRms)))
    (mulW (mulW (mulW (s.word BGS.WK3 k) iBar) (s.axisVdc (s.g BGS.WCFG_AX k))) fsw)
  addW tc (mulW (s.word BGS.WRTH k) p)

/-- A new value among turning points, newest first; a reversal below 1 K is ignored (R398). -/
def turnPoint (t : Word) : List Word → List Word
  | [] => [t]
  | [p] => if ltW (distW t p) 0x3F800000 then [p] else [t, p]
  | p :: q :: l =>
    if (ltW q p && !ltW t p) || (ltW p q && !ltW p t) then t :: q :: l
    else if ltW (distW t p) 0x3F800000 then p :: q :: l else t :: p :: q :: l

/-- Close cycles by the four-point rule: the points left, and the ranges closed (R398). -/
def closeCycles : Nat → List Word → List Word × List Word
  | n + 1, d :: c :: b :: a :: l =>
    if !ltW (distW a b) (distW b c) && !ltW (distW c d) (distW b c) then
      let r := closeCycles n (d :: a :: l)
      (r.1, distW b c :: r.2)
    else (d :: c :: b :: a :: l, [])
  | _, l => (l, [])

/-- The histogram bin of a range: 32 bins of 4 K (R398). -/
def wearBin (r : Word) : Nat :=
  match toIntF 0 true (F32.of (divW r (intW 4 0))) with
  | none => 31
  | some x => min 31 x.toNat

/-- A wear entry past the end of the array. -/
def Wear.none : Wear := ⟨[], fillV 32 0, false⟩

/-- One wear estimate of bridge `k` (R397, R398). -/
def State.wearEstimate (k : Nat) (iBar iRms : Word) (s : State) : State :=
  if !s.percolates || !s.gb BGS.WCFG_EN k then s else
  let tj := s.wearTj k iBar iRms
  let s1 := (s.setWord BGS.WTJ k tj).used
  let w := at' s.bgs.wear k Wear.none
  let pts := turnPoint tj w.points
  let c := closeCycles pts.length pts
  let dmg := c.2.foldl (fun d r =>
    addW d (Config.wearPower r (s.word BGS.WDTREF k) (s.word BGS.WBETA k) (s.word BGS.WNREF k))) (s.word BGS.WDMG k)
  let limit := divW (intW (s.g BGS.WCFG_WARN k) 0) (intW 256 0)
  let warn := !w.warned && !ltW dmg limit
  let s2 := { s1.setWord BGS.WDMG k dmg with bgs := { s1.bgs with
    wear := upd s1.bgs.wear k fun x => { x with
      points := c.1, warned := x.warned || warn,
      hist := c.2.foldl (fun h r => upd h (wearBin r) (· + 1)) x.hist } } }
  if warn then s2.raise 18 0xE3 k else s2

/-- WEAR_ESTIMATE (R397). -/
def execWearEstimate (k : Fin 8) (iBar iRms : Word) (s : State) : Out := .next (State.wearEstimate k iBar iRms s)

/-- Free bytes, `n` of them, four for each free value (log entry 3). -/
def State.freeBytes (s : State) (n : Nat) : List Byte :=
  ((List.range (n / 4)).flatMap fun i => leBytes 4 (Config.freeWord (s.freeCtr + i)).toNat)

/-- The next page of the wear records is written (R398, R405). -/
def State.wearSave (s : State) : State :=
  if !s.islandUp 24 || !s.up then s else
  let q := s.nv.wearSeq + 1
  let page := s.nv.wearPage % 256
  let s1 := State.nvPut (nvBase 7 + 4096 * page) (s.freeBytes 4096) (BitVec.ofNat 16 q) s
  { s1 with
    freeCtr := s.freeCtr + 1024
    nv := { s1.nv with
      wearSeq := q, wearPage := (page + 1) % 256,
      wearSaved := (List.range 8).map fun k => (s.word BGS.WDMG k, at' s.bgs.wear k Wear.none) } }

/-- WEAR_RECORD_SAVE (R398). -/
def execWearRecordSave (s : State) : Out := .next s.wearSave

/-! Telemetry (R399, R400). -/

/-- The identifier is defined (R399). -/
def State.sigDefined (s : State) (sig : Nat) : Bool :=
  decide (sig < 64) || decide (0x100 ≤ sig ∧ sig < 0x118) || decide (0x200 ≤ sig ∧ sig < 0x208)
    || decide (0x210 ≤ sig ∧ sig < 0x218) || decide (0x300 ≤ sig ∧ sig < 0x304) || decide (0x400 ≤ sig ∧ sig < 0x408)
    || decide (0x410 ≤ sig ∧ sig < 0x418) || decide (0x500 ≤ sig ∧ sig < 0x510) || decide (0x600 ≤ sig ∧ sig ≤ 0x608)
    || (decide (0x80000 ≤ sig ∧ sig < 0x90000) && match s.task? (bits sig 8 8) with
        | none => false
        | some t => decide (bits sig 0 8 < t.d.tlm.length))

/-- The type and value of a sample of a signal, if its source gives one (R399). The die temperature and the supplies are
the outside world's: `v`. -/
def State.sigValue (s : State) (sig : Nat) (v : Word) : Option (Nat × Word) :=
  let i := sig % 16
  if sig < 64 then if s.dsmRuns sig then some (0, s.word DSM.RES sig) else none
  else if sig < 0x200 then if s.convMode (sig - 0x100) != 0 then some (0, s.word ADC.RES (sig - 0x100)) else none
  else if sig < 0x210 then if s.posMode i != 0 then some (0, s.posSpeed i) else none
  else if sig < 0x300 then if s.posMode i != 0 then some (2, s.word POS.CNT i) else none
  else if sig < 0x400 then if s.gb DCL.CFG_EN i then some (0, (s.link i).vdc) else none
  else if sig < 0x410 then if s.gb BGS.WCFG_EN i then some (1, s.word BGS.WTJ i) else none
  else if sig < 0x500 then if s.gb BGS.WCFG_EN i then some (1, s.word BGS.WDMG i) else none
  else if sig < 0x600 then some (2, BitVec.ofNat 32 (s.g PLC.ESTAT_UTIL i))
  else if sig < 0x80000 then some (1, v)
  else match s.task? (bits sig 8 8) with
    | none => none
    | some t => (assocGet t.tlmSig (bits sig 0 8)).map fun x => (t.d.tlm.getD (bits sig 0 8) 0, x)

/-- One sample of a subscribed signal at its native rate: the decimation, and the entry (R89, R400). -/
def State.telemetry (k sig : Nat) (v : Word) (s : State) : State :=
  let x := at' s.streams k ⟨none, []⟩
  match x.signals.find? (fun y => y.sig.toNat == sig), s.sigValue sig v with
  | some y, some (ty, val) =>
    let pass := decide (y.dec ≤ y.seen + 1)
    let y1 := { y with seen := if pass then 0 else y.seen + 1, count := if pass then y.count + 1 else y.count }
    let s1 := { s with streams := upd s.streams k fun z =>
      { z with signals := z.signals.map fun w => if w.sig.toNat == sig then y1 else w } }
    if pass && s.gb QUE.QCFG_EN (28 + k) then
      State.qPush (28 + k) (wordBytes [BitVec.ofNat 32 (ty * 2 ^ 30 + sig), val, BitVec.ofNat 32 s.tbase,
        BitVec.ofNat 32 (y.count.toNat * 65536 + s.tbase / 2 ^ 32 % 65536)]) s1
    else s1
  | _, _ => s

/-- TELEMETRY_SAMPLE (R400). -/
def execTelemetrySample (st : Fin 4) (sig : BitVec 20) (value : Word) (s : State) : Out :=
  .next (if s.percolates then State.telemetry st.val sig.toNat value s else s)

/-! The event log (R405). -/

/-- A page of the ring is written: at most 128 entries (R405). -/
def State.logPage (s : State) : State :=
  if !s.up || !s.islandUp 24 || s.nv.logPend.isEmpty then s else
  let q := s.nv.logSeq + 1
  let page := s.nv.logPage % 1024
  let body := (s.nv.logPend.take 128).flatten
  let s1 := State.nvPut (nvBase 6 + 4096 * page) (body ++ List.replicate (4096 - body.length) 0) (BitVec.ofNat 16 q) s
  { s1 with nv := { s1.nv with logPend := s.nv.logPend.drop 128, logSince := s.tbase, logSeq := q,
                               logPage := (page + 1) % 1024 } }

/-- LOG_PAGE_WRITE (R405). -/
def execLogPageWrite (s : State) : Out := .next s.logPage

end Sys2Proof.Machine
end

