-- ==== Sys2Proof/Machine/RegCheck.lean ====
section
/-! DEFINITION. What a register write is checked for: the fields it changes (R7, R8), the rights of the writing port
(R68 and the rules of each chapter), and the stages of R9 in their order, with the value checks the chapters name. -/

namespace Sys2Proof.Machine

/-! Fields (R8). -/

/-- The access type of a field of instance `k`: the descriptors of Q0–Q15 are RO (R100). -/
def fldTy (r : Reg) (k : Nat) (f : Fld) : FTy :=
  if (r = QUE.QBASE ∨ r = QUE.QCFG) ∧ k < 16 then .ro else f.ty

/-- Every field of the register is RO. A word of reserved bits alone has no field. -/
def allRo (r : Reg) (k : Nat) : Bool := !r.flds.isEmpty && r.flds.all fun f => fldTy r k f == .ro

/-- Bits no field covers (R7). -/
def reservedMask (r : Reg) : Nat := 2 ^ 32 - 1 - r.flds.foldl (fun a f => a + (2 ^ f.w - 1) * 2 ^ f.lo) 0

/-- Fields that any 1 bit clears whole (R99, R320, R322). -/
def clearsWhole (r : Reg) (f : Fld) : Bool := decide ((r = QUE.QSTAT ∨ r = EVT.STAT) ∧ f.ty = .w1c)

/-- The stored value of a field after a write (R8): WO and W1S fields store nothing. -/
def mergeFld (r : Reg) (k w acc : Nat) (f : Fld) : Nat :=
  let x := bits w f.lo f.w
  match fldTy r k f with
  | .rw | .rwc | .rwl => setBits acc f.lo f.w x
  | .w1c => setBits acc f.lo f.w (if clearsWhole r f then (if x = 0 then bits acc f.lo f.w else 0)
                                  else bits acc f.lo f.w - (bits acc f.lo f.w &&& x))
  | .ro | .wo | .w1s => acc

/-- The word a register stores after `w` is written over `old`. -/
def mergeWord (r : Reg) (k old w : Nat) : Nat := r.flds.foldl (mergeFld r k w) old

/-- A write of `w` changes field `f`. -/
def changes (old w : Nat) (f : Fld) : Bool := bits old f.lo f.w != bits w f.lo f.w

/-- A write of `w` would change a field of type `ty`. -/
def touches (r : Reg) (k old w : Nat) (ty : FTy) : Bool := r.flds.any fun f => fldTy r k f == ty && changes old w f

/-- The value check of one field (R9 step 8): for a changed field, and for every WO, W1C and W1S field. -/
def fldCode (r : Reg) (k old w : Nat) (f : Fld) : Code :=
  let ty := fldTy r k f
  if ty = .ro ∨ (!changes old w f ∧ ¬(ty = .wo ∨ ty = .w1c ∨ ty = .w1s)) then eOK
  else
    match f.chk with
    | .any => eOK
    | .enumLe n => if bits w f.lo f.w ≤ n then eOK else eENUM
    | .range lo hi => if lo ≤ bits w f.lo f.w ∧ bits w f.lo f.w ≤ hi then eOK else eRANGE

/-- The first code that is not E_OK. -/
def worst (l : List Code) : Code := (l.find? (· != eOK)).getD eOK

/-! Rights (R68). -/

/-- The blocks whose writes need SAFEOWN (R68, spec/14_networks.md): SYS, HOST, QUE, SAFE, CAN, ETH, BGS, NVS, FBRK, CNPY. -/
def safeBlock (a : Nat) : Bool :=
  (a / 0x10000) ∈ [0x4000, 0x4002, 0x4003, 0x4014, 0x4016, 0x4017, 0x4018, 0x4019, 0x401A, 0x401B]

/-- Ownership of every bridge of a list. -/
def State.ownAll (s : State) (n : Fin 4) (l : List Nat) : Code := if l.all (s.owns n) then eOK else eOWNER

/-- The bits set in the low `n` bits of a word. -/
def bitList (n v : Nat) : List Nat := (List.range n).filter fun i => v.testBit i

/-- The rights a write of word `w` to instance `k` of register `r` needs from port `n`: `s` is the state before it,
`t` the state it leaves. -/
def State.regRights (s t : State) (n : Fin 4) (r : Reg) (k w : Nat) : Code :=
  let safe := s.gb HOST.RIGHTS_SAFEOWN n
  let port := fun (p : Nat) => s.posRights n p
  if r = FBRK.BRREL then s.ownAll n (bitList 8 w)
  else if r = BGS.TPOP then if (at' s.streams k ⟨none, []⟩).owner = some n then eOK else eOWNER
  else if r = CAN.TXPUSH ∨ r = CAN.RXPOP then if s.gbit CAN.CFG_HPORTS k n then eOK else eRIGHTS
  else if r = ETH.TXPUSH ∨ r = ETH.RXPOP then if s.gbit ETH.CFG_HPORTS k n then eOK else eRIGHTS
  else if safeBlock (r.addr k) && !safe then eRIGHTS
  else if r = EVT.GRP then if safe || k == 48 + n.val then eOK else eRIGHTS
  else if r = EVT.QMOD then if safe then eOK else eRIGHTS
  else if r = EVT.PSLEEP ∨ r = EVT.PWLO ∨ r = EVT.PWHI ∨ r = PLC.HINT then if k = n then eOK else eRIGHTS
  else if r = EVT.DOORBELL then doorbellCode n (BitVec.ofNat 32 w)
  else if r = PYR.DBGCTL then if s.gb HOST.RIGHTS_IMAGE n then eOK else eRIGHTS
  else if r = GATE.CH ∨ r = GATE.TRIM then s.ownAll n [brOf k]
  else if r = GATE.BRCFG ∨ r = GATE.CAR ∨ r = GATE.CPH ∨ r = GATE.SHARE then s.ownAll n [k]
  else if r = GATE.SWFLT0 then s.ownAll n ((bitList 32 w).map brOf)
  else if r = GATE.SWFLT1 then s.ownAll n ((bitList 16 w).map fun i => brOf (32 + i))
  else if r = DCL.DSCCMD then
    worst ((List.range 4).map fun l =>
      if w.testBit l || w.testBit (l + 4) then s.linkRights n l (s.g DCL.CFG_BRMASK l) else eOK)
  else if r = DCL.CFG then s.linkRights n k (bits w 0 8)
  else if r ∈ [DCL.BRK, DCL.VTH, DCL.OV, DCL.BCUR, DCL.DSC, DCL.STAT] then s.linkRights n k (s.g DCL.CFG_BRMASK k)
  else if r ∈ [CTL.AXCFG, CTL.AXTLM, CTL.AXMB, CTL.AXRATE, CTL.AXLIM, CTL.AXSPD, CTL.AXTIM, CTL.AXSAMP, CTL.AXCMD,
      CTL.AXHREF, CTL.AXST] then s.ownAll n [t.g CTL.AXCFG_BR k]
  else if r ∈ [POS.CMPV, POS.CMPC, POS.CMPTS] then port (k / 4)
  else if r ∈ [POS.EMUCFG, POS.EMUDIV, POS.EMUST] then port (t.g POS.EMUCFG_SRC k)
  else if r = POS.EXC then s.excRights n k
  else if r ∈ POS.regs then port k
  else eOK

/-! Value checks (R9 step 8). -/

/-- A one-bit field goes from 0 to 1. -/
def State.sets (s t : State) (f : FRef) (k : Nat := 0) : Bool := !s.gb f k && t.gb f k

/-- A field changes. -/
def State.differs (s t : State) (f : FRef) (k : Nat := 0) : Bool := s.g f k != t.g f k

/-- The bridge lies in the OUT table of an admitted task. -/
def State.inOut (s : State) (k : Nat) : Bool := s.tasks.any fun x => x.d.outBr.contains k

/-- A ring or a buffer area lies in SRAM, outside the default host area and outside banks out of service (R100). -/
def State.ringOk (s : State) (a n : Nat) : Bool :=
  decide (a + n ≤ hostArea) && (List.range 16).all fun b => !s.gbit SYS.BOOTMEM_BANKOFF 0 b || !overlaps a n (b * 0x200000) 0x200000

/-- The checks of a queue descriptor (R100, R367). -/
def State.queCode (s t : State) (r : Reg) (k : Nat) : Code :=
  if r = QUE.QBASE then
    firstCode [(s.gb QUE.QCFG_EN k && s.word QUE.QBASE k != t.word QUE.QBASE k, eRANGE),
      ((t.word QUE.QBASE k).toNat % 32 != 0, eALIGN)]
  else
    firstCode [
      (t.g QUE.QCFG_ENTRY k != (if k < 28 then 1 else 0), eENUM),
      (s.gb QUE.QCFG_EN k && s.differs t QUE.QCFG_LOG2N k, eRANGE),
      (s.sets t QUE.QCFG_EN k && (!t.ringOk (t.word QUE.QBASE k).toNat (t.qN k * t.qSize k)
        || (decide (k < 28) && !t.ringOk (t.netBuf k 0) (t.netBufSize k))), eRANGE)]

/-- An operation that writes the NV store (R92). -/
def writesNv : OpKind → Bool
  | .imgCommit => true
  | .nvCommit _ => true
  | .safeCommit _ => true
  | .bist _ _ burn => burn
  | .cal _ => false

/-- The NVST group of R92 is busy. -/
def State.nvBusy (s : State) : Bool := s.ops.any fun o => writesNv o.kind

/-- The header of the booted image. -/
def State.bootedHdr (s : State) : Option ImageHdr := s.bootedBank.map fun b => hdrOf (s.bankHdr b)

/-- The state after the present one in R2. -/
def nextLife (x : Nat) : Option Nat := if x = 1 then some 3 else if x = 3 then some 7 else none

/-- The refusals of a fuse operation, after R9 (R394). -/
def State.fuseCode (s : State) (w : Nat) : Code :=
  let op := bits w 30 2
  if op = 0 then eENUM
  else if s.nvBusy then eBUSY
  else if op = 1 then
    if s.fuses.svnFloor = 63 then eRANGE
    else match s.bootedHdr with
      | some h => if h.svn < s.fuses.svnFloor + 1 then eSIG else eOK
      | none => eOK
  else if op = 2 then
    match s.bootedHdr with
    | some h => if h.keySlot = bits w 16 2 then eSAFETY else eOK
    | none => eOK
  else if nextLife (s.g SYS.BOOT_LIFE) = some (bits w 0 3) then eOK else eRANGE

/-- The EtherTypes a write leaves are usable (spec/14_networks.md, ETYPE). -/
def etypeOk (h x : Nat) : Bool := decide (h ≠ x) && [h, x].all fun e => decide (0x600 ≤ e ∧ e ≠ 0x8100 ∧ e ≠ 0x88F7)

/-- The checks of PYR.DBGCTL (R205). -/
def State.dbgCode (s t : State) : Code :=
  let e := t.g PYR.DBGCTL_ENG
  if s.sets t PYR.DBGCTL_EN && s.est e ∈ [0, 3, 4, 5] then eRANGE
  else if s.gb PYR.DBGCTL_EN && s.differs t PYR.DBGCTL_ENG then eRANGE
  else eOK

/-- A register of controller `c` or MAC `m` changes an RWC field while EN = 1 (spec/14_networks.md). -/
def State.netHeld (s : State) (r : Reg) (k old w : Nat) : Bool :=
  let en := if r ∈ [CAN.FLTCFG, CAN.FLTID1, CAN.FLTID2] then s.gb CAN.CFG_EN (k / 64)
    else if r ∈ CAN.regs then s.gb CAN.CFG_EN k
    else if r ∈ [ETH.CFG, ETH.MACL, ETH.MACH, ETH.ETYPE, ETH.SDSTL, ETH.SDSTH, ETH.TXBUF, ETH.RXBUF] then s.gb ETH.CFG_EN k
    else false
  en && touches r k old w .rwc

/-- The value checks that need other fields or other state, for the sensing blocks (R271 to R290). -/
def State.senseCode (s t : State) (r : Reg) (k : Nat) : Code :=
  let bad (b : Bool) : Code := if b then eRANGE else eOK
  if r = DSM.CLK then
    bad ((s.differs t DSM.CLK_DIV k || s.differs t DSM.CLK_PH k)
      && (decide (t.g DSM.CLK_DIV k ≤ t.g DSM.CLK_PH k)
        || (List.range 64).any fun n => s.gb DSM.CH_EN n && s.g DSM.CH_CLK n == k))
  else if r = DSM.CH then
    let c := t.g DSM.CH_CLK k
    let moved := s.differs t DSM.CH_CLK k
    bad (((moved || s.differs t DSM.CH_DSKEW k) && decide (t.g DSM.CLK_DIV c ≤ t.g DSM.CH_DSKEW k))
      || (t.gb DSM.CH_EN k && (moved || !s.gb DSM.CH_EN k) && !t.gb DSM.CLK_EN c))
  else if r = DSM.OFF then bad (t.word DSM.OFF k == 0x80000000 && s.word DSM.OFF k != t.word DSM.OFF k)
  else if r = DSM.PTH then
    bad ((s.differs t DSM.PTH_HI k || s.differs t DSM.PTH_LO k)
      && !decide (-32 ≤ t.gs DSM.PTH_LO k ∧ t.gs DSM.PTH_LO k < t.gs DSM.PTH_HI k ∧ t.gs DSM.PTH_HI k ≤ 32))
  else if r = DSM.RSTAT then eOK
  else if r = ADC.CFG then
    firstCode [(s.differs t ADC.CFG_INN k && decide (48 ≤ t.g ADC.CFG_INN k ∧ t.g ADC.CFG_INN k ≤ 62), eENUM),
      (s.sets t ADC.CFG_PAIR k && k % 2 == 1, eRANGE)]
  else if r = ADC.TPER then
    bad (s.differs t ADC.TPER_PER k
      && (decide (t.g ADC.TPER_PER k < convPeriod (t.convMode k)) || decide (t.g ADC.TPER_PER k ≤ t.g ADC.TPH_PH k)))
  else if r = ADC.TPH then bad (s.differs t ADC.TPH_PH k && decide (t.g ADC.TPER_PER k ≤ t.g ADC.TPH_PH k))
  else if r = CMP.CFG then
    let m := t.g CMP.CFG_FM k
    let n := t.g CMP.CFG_FN k
    bad ((s.differs t CMP.CFG_FM k || s.differs t CMP.CFG_FN k)
      && (m == 0 || decide (m < n) || (decide (1 < m) && decide (2 * n ≤ m))))
  else if r = CMP.TH then
    bad ((s.differs t CMP.TH_HI k || s.differs t CMP.TH_LO k) && decide (t.g CMP.TH_HI k ≤ t.g CMP.TH_LO k))
  else if r = CMP.RDBK then if t.gb CMP.RDBK_EN then t.rdbkCode else eOK
  else eOK

/-- The same for positions and axes (R210, R215, R293 to R315). -/
def State.motionCode (s t : State) (r : Reg) (k w : Nat) : Code :=
  let bad (b : Bool) : Code := if b then eRANGE else eOK
  if r = POS.CFG then if s.sets t POS.CFG_EN k then t.portEnableCode k else eOK
  else if r = POS.CMD then bad (w % 2 == 1 && s.g POS.CFG_IDX k != 2)
  else if r = POS.RSLV then
    bad ((s.differs t POS.RSLV_AMIN k || s.differs t POS.RSLV_AMAX k) && decide (t.g POS.RSLV_AMAX k ≤ t.g POS.RSLV_AMIN k))
  else if r = POS.EXC then bad (s.differs t POS.EXC_PER k && t.g POS.EXC_PER k % 4 != 0)
  else if r = POS.EMUCFG then
    bad (((s.differs t POS.EMUCFG_ZMODE k || s.differs t POS.EMUCFG_ZCPR k)
          && t.g POS.EMUCFG_ZMODE k == 2 && t.g POS.EMUCFG_ZCPR k == 0)
      || (s.sets t POS.EMUCFG_EN k && !decide (1 ≤ t.g POS.EMUDIV_N k ∧ t.g POS.EMUDIV_N k ≤ t.g POS.EMUDIV_M k)))
  else if r = CTL.AXCFG then
    if (s.differs t CTL.AXCFG_BR k || s.differs t CTL.AXCFG_NPC k) && t.gb CTL.AXCFG_NPC k && t.g CTL.AXCFG_BR k % 2 == 1 then eENUM
    else if s.sets t CTL.AXCFG_EN k then t.axisEnableCode k (fun x => t.skipFits k x)
    else bad (s.gb CTL.AXCFG_EN k && t.gb CTL.AXCFG_EN k && s.sets t CTL.AXCFG_SS1 k && !t.gb SAFE.FN_EN k)
  else if r = CTL.AXCMD then s.axCmdCode k (w.testBit 0) (w.testBit 1)
  else if r = CTL.AXHREF then bad (t.word CTL.AXHREF k == 0x80000000 && s.word CTL.AXHREF k != t.word CTL.AXHREF k)
  else eOK

/-- The same for the gate side and the links (R243 to R270). -/
def State.gateCode (s t : State) (n : Fin 4) (r : Reg) (k w : Nat) : Code :=
  let bad (b : Bool) : Code := if b then eRANGE else eOK
  if r = GATE.SHARE then bad (s.sets t GATE.SHARE_EN k && s.topo k != 4)
  else if r = GATE.CAR then
    bad (s.differs t GATE.CAR_PERIOD k && (s.inOut k || decide (t.g GATE.CAR_PERIOD k ≤ t.g GATE.CPH_PHASE k)))
  else if r = GATE.CPH then
    bad (s.differs t GATE.CPH_PHASE k && (s.inOut k || decide (t.g GATE.CAR_PERIOD k ≤ t.g GATE.CPH_PHASE k)))
  else if r = GATE.SWFLT0 then s.swClearCode n (bitList 32 w)
  else if r = GATE.SWFLT1 then s.swClearCode n ((bitList 16 w).map (32 + ·))
  else if r = FBRK.BRSS then
    if s.differs t FBRK.BRSS_ASCPREF k && t.g FBRK.BRSS_ASCPREF k == 2 && !(s.topo k == 2 || s.topo k == 3) then eENUM else eOK
  else if r = FBRK.OCMAP then if s.sets t FBRK.OCMAP_ROLE k && decide (32 ≤ k) then eENUM else eOK
  else if r = FBRK.BRREL then s.releaseCode n (bitList 8 w)
  else if r = DCL.CFG then
    bad ((s.differs t DCL.CFG_VIDX k || s.differs t DCL.CFG_VKIND k) && !t.gb DCL.CFG_VKIND k && decide (24 ≤ t.g DCL.CFG_VIDX k))
  else if r = DCL.STAT then if w % 2 = 1 then s.ovClearCode k else eOK
  else if r = DSM.RSTAT then s.plausClearCode (BitVec.ofNat 32 w)
  else eOK

/-- The same for the networks, the queues, debug, events and the store. -/
def State.dataCode (s t : State) (n : Fin 4) (r : Reg) (k w : Nat) : Code :=
  let bad (b : Bool) : Code := if b then eRANGE else eOK
  if r = QUE.QBASE ∨ r = QUE.QCFG then s.queCode t r k
  else if r = EVT.QBIND then State.qbindCode s t n k
  else if r = PYR.DBGCTL then s.dbgCode t
  else if r = CAN.CFG then if s.sets t CAN.CFG_EN k then t.canEnableCode k else eOK
  else if r = CAN.NBT then bad (s.differs t CAN.NBT_NTSEG1 k && t.g CAN.NBT_NTSEG1 k == 0)
  else if r ∈ [CAN.TXBUF, CAN.RXBUF, ETH.TXBUF, ETH.RXBUF] then if (t.word r k).toNat % 64 = 0 then eOK else eALIGN
  else if r = CAN.TXPUSH then s.pushCode (20 + 2 * k) (bits w 0 8)
  else if r = CAN.RXPOP then s.popCode (21 + 2 * k) (bits w 0 8)
  else if r = ETH.TXPUSH then s.pushCode (16 + 2 * k) (bits w 0 8)
  else if r = ETH.RXPOP then s.popCode (17 + 2 * k) (bits w 0 8)
  else if r = ETH.ETYPE then
    bad ((s.differs t ETH.ETYPE_HOSTET k || s.differs t ETH.ETYPE_SAFEET k)
      && !etypeOk (t.g ETH.ETYPE_HOSTET k) (t.g ETH.ETYPE_SAFEET k))
  else if r = ETH.MDIO then if s.gb ETH.MDIO_BUSY k then eBUSY else eOK
  else if r = BGS.TPOP then bad (bits w 0 16 == 0 || decide (s.qLevel (28 + k) < bits w 0 16))
  else if r = NVS.FUSECMD then s.fuseCode w
  else eOK

/-! The stages of R9. -/

/-- The codes of one register word, stage by stage from step 2 on. -/
def State.regStages (s : State) (n : Fin 4) (r : Reg) (k : Nat) (isl : Nat) (v : Word) : List Code :=
  let old := (s.word r k).toNat
  let w := v.toNat
  let t := s.setWord r k (BitVec.ofNat 32 (mergeWord r k old w))
  let rwl := touches r k old w .rwl
  [s.regRights t n r k w,
   eOK,
   if allRo r k then eRIGHTS else eOK,
   if rwl then if s.safe.sess.isSome then eSESSION else if s.gb SAFE.STAT_LOCKED then eLOCKED else eOK else eOK,
   if (rwl || touches r k old w .rwc || r = NVS.FUSECMD || (r = NVS.ZEROIZE && w % 2 == 1)) && s.mode != mCONFIGURE then eMODE
   else if !s.islandUp isl then eMODE else eOK,
   if w &&& reservedMask r ≠ 0 then eRESV else eOK,
   worst ((if s.netHeld r k old w then eRANGE else eOK) :: r.flds.map (fldCode r k old w)
     ++ [s.senseCode t r k, s.motionCode t r k w, s.gateCode t n r k w, s.dataCode t n r k w])]

/-- The bridges a task commands, by the BRIDGES byte of its descriptor (R87, R158). -/
def Descr.commands (d : Descr) : List Nat := (List.range 8).filter fun b => d.bridges.getLsbD b

/-- The tasks whose regions hold a word of SRAM (R84). -/
def State.regionTasks (s : State) (a : Nat) : List Task :=
  s.tasks.filter fun t => t.regions.any fun x => overlaps a 4 x.1 x.2

/-- The stages of one word at any address (R9, R39, R84). -/
def State.wordStages (s : State) (n : Fin 4) (a : Nat) (v : Word) : List Code :=
  if a < sramEnd then
    [if hostArea ≤ a then eRIGHTS
     else worst ((s.regionTasks a).map fun t => s.ownAll n (t.d.commands ++ t.d.driven)),
     if a % 4 ≠ 0 then eALIGN else if s.bankOk a then eOK else eRANGE]
  else if (windowOf a).isSome || (nvBankOf a).isSome then [eRIGHTS]
  else
    match blockAt a, regAt a with
    | some b, some (r, k) => if a % 4 = 0 then s.regStages n r k b.island v else [eOK, eALIGN]
    | some _, none =>
      [if safeBlock a && !s.gb HOST.RIGHTS_SAFEOWN n then eRIGHTS else eOK, if a % 4 = 0 then eRANGE else eALIGN]
    | none, _ => [eOK, if a % 4 = 0 then eRANGE else eALIGN]

/-- The addresses of consecutive words. -/
def wordAddrs (a : Nat) (vs : List Word) : List (Nat × Word) := (List.range vs.length).zipWith (fun i v => (a + 4 * i, v)) vs

/-- A register word as stored by a write, with nothing else done: the state that R69 judges. -/
def State.storeRaw (x : Nat × Word) (s : State) : State :=
  match regAt x.1 with
  | some (r, k) => s.setWord r k (BitVec.ofNat 32 (mergeWord r k (s.word r k).toNat x.2.toNat))
  | none => s

/-- The rights of all four ports are consistent (R69). -/
def State.rightsOk (s : State) : Bool :=
  (List.range 8).all (fun k => decide ((List.finRange 4).countP (fun n => s.owns n k) ≤ 1))
    && (List.range 7).all (fun k => s.topo k != 2 || s.ownerOf k == s.ownerOf (k + 1))
    && (List.finRange 4).countP (fun n => s.gb HOST.RIGHTS_SAFEOWN n) == 1

/-- The write holds a register that R69 speaks of. -/
def rightsWrite (a : Nat) : Bool :=
  match regAt a with
  | some (r, _) => decide (r = HOST.RIGHTS ∨ r = GATE.BRCFG)
  | none => false

/-- No register is written in BOOT (R40), in SLEEP, or in lifecycle state SCRAP (R2). -/
def State.writeBarred (s : State) : Bool := s.mode == mBOOT || s.mode == mSLEEP || s.scrapped

/-- The code of a write of consecutive words from `a` up by port `n`: the earliest stage of R9 that any word fails,
the lowest address first (R9, R40, R69, R84). -/
def State.writeCode (s : State) (n : Fin 4) (a : Nat) (vs : List Word) : Code :=
  let l := wordAddrs a vs
  let st := l.map fun x => s.wordStages n x.1 x.2
  let r69 := if l.any (fun x => rightsWrite x.1) && !(overL l State.storeRaw s).rightsOk then eOWNER else eOK
  let barred := if s.writeBarred then eMODE else eOK
  worst ((List.range 8).flatMap fun i => st.map (fun c => c.getD i eOK)
    ++ (if i = 0 then [r69] else if i = 4 then [barred] else []))

/-- The word that a write would leave as it is: what the register stores, or 0. -/
def State.storedAt (s : State) (a : Nat) : Word :=
  match regAt a with
  | some (r, k) => s.word r k
  | none => 0

end Sys2Proof.Machine
end

