-- ==== Sys2Proof/Machine/RegWrite.lean ====
section
/-! DEFINITION. What an accepted register write does: the stored word (R8), and then what the register's own rule says
the write starts, ends or clears. -/

namespace Sys2Proof.Machine

/-! Debug (R205 to R208). -/

/-- A step under debug: only its pass A counts. One that has ended pass A goes back to that pass's end, and is released
without comparison (R198, R205). -/
def Step.underDebug (st : Step) : Step :=
  match st.resA with
  | some a => { st with debug := true, cur := a, resA := none, passB := false, judged := false }
  | none => { st with debug := true }

/-- EN is set on engine `e`: its steps go on without comparison, and the tasks of those steps have run on it. What a second
pass has stored is put back: stores reach the pass-A copies alone (R205; DEDUCED, log entry 34). The bridges of its tasks
are held off (R207). -/
def State.debugOn (e : Nat) (s : State) : State :=
  let ids := (s.eng e).steps.map (·.task)
  let s0 := overL (s.eng e).steps (fun st s => if st.passB then State.undo st.task st.cur s else s) s
  let s1 := State.modEng e (fun x => { x with steps := x.steps.map Step.underDebug }) s0
  let s2 := { s1 with tasks := s1.tasks.map fun (t : Task) => if ids.contains t.id then { t with dbgRan := true } else t }
  let s3 := s2.pb PYR.STAT_DBGDIV 0 true
  ((overL (s3.allUnits.filter s3.dbgHeld) (fun u s => State.unitHold u (State.windStop u s)) s3).raise 1 0x75 e).guarUpdate

/-- EN is cleared on engine `e`: every task that ran a step on it under debug is retired (R208), and a retirement of the
engine that has waited takes place. -/
def State.debugOff (e : Nat) (s : State) : State :=
  let s1 := State.modEng e (fun x => { x with halted := false, stepReq := false }) s
  let ids := (s1.tasks.filter (·.dbgRan)).map (·.id)
  let s2 := (overL ids (fun t s => State.dropTask t (s.raise 1 0x74 t)) s1).plc
  (if (s2.eng e).retireDue then State.retireEngine e (State.modEng e (fun x => { x with retireDue := false }) s2) else s2).guarUpdate

/-- A write of PYR.DBGCTL, from `was` to `s` (R205, R206). -/
def State.dbgApply (was : State) (step : Bool) (s : State) : State :=
  let e := s.g PYR.DBGCTL_ENG
  let s1 := if was.sets s PYR.DBGCTL_EN then State.debugOn e s
            else if s.sets was PYR.DBGCTL_EN then State.debugOff (was.g PYR.DBGCTL_ENG) s
            else s
  if !s1.gb PYR.DBGCTL_EN then s1
  else
    let halt := s1.gb PYR.DBGCTL_HALT
    State.modEng e (fun x => { x with halted := halt, stepReq := step && halt && x.halted }) s1

/-! Fuses and zeroization (R392, R394). -/

/-- Zeroization, with its event. -/
def State.zeroizeNow (s : State) : State := s.zeroize.raise 24 0xE4 0

/-- One fuse step (R394). -/
def State.fuseApply (w : Nat) (s : State) : State :=
  match bits w 30 2 with
  | 1 => ({ s with fuses := { s.fuses with svnFloor := s.fuses.svnFloor + 1 } }).p SYS.BOOT_SVNFLOOR 0 (s.fuses.svnFloor + 1)
  | 2 =>
    let f := s.fuses.revoked ||| (1 <<< bits w 16 2)
    ({ s with fuses := { s.fuses with revoked := f } }).p NVS.FUSESTAT_REVOKED 0 f.toNat
  | 3 =>
    let s1 := ({ s with fuses := { s.fuses with life := BitVec.ofNat 3 w } }).p SYS.BOOT_LIFE 0 (bits w 0 3)
    if bits w 0 3 = 3 then s1.zeroizeNow else s1
  | _ => s

/-! Hooks: what a write does besides storing. `was` is the state before the write, `s` the state with the word stored. -/

/-- Sensing (R61, R62, R281, R290). -/
def State.senseHook (was : State) (r : Reg) (k : Nat) (s : State) : State :=
  if r = DSM.CLK then
    if was.differs s DSM.CLK_EN k then
      overL ((List.range 64).filter fun n => s.g DSM.CH_CLK n == k) State.dsmRestart s
    else s
  else if r = DSM.CH then
    if was.differs s DSM.CH_EN k || was.differs s DSM.CH_CLK k || was.differs s DSM.CH_ORD k || was.differs s DSM.CH_OSR k
    then State.dsmRestart k s else s
  else if r = ADC.CFG then
    if was.differs s ADC.CFG_MODE k then State.convRestart k s
    else if was.differs s ADC.CFG_PAIR k then State.convRestart (k + 1) (State.convRestart k s)
    else s
  else if r = CMP.CFG then if was.differs s CMP.CFG_EN k then State.compRestart k s else s
  else if r = CMP.TH then
    if s.gb CMP.RDBK_EN && s.g CMP.RDBK_CMP == k
        && was.differs s (if s.gb CMP.RDBK_SIDE then CMP.TH_HI else CMP.TH_LO) k then s.pb CMP.RDBK_DONE 0 false else s
  else if r = CMP.RDBK then State.rdbkApply (was.word CMP.RDBK) s
  else s

/-- Positions, axes and command inputs (R210, R215, R293 to R315). A compare of a disabled port stays clear (R313). -/
def State.motionHook (was : State) (r : Reg) (k w : Nat) (s : State) : State :=
  if r = POS.CFG then
    if was.sets s POS.CFG_EN k then State.portStart k s else if s.sets was POS.CFG_EN k then State.portStop k s else s
  else if r = POS.CMD then if w % 2 = 1 then State.armIndex k s else s
  else if r = POS.CMPC then
    if s.posMode (k / 4) = 0 then (s.pb POS.CMPC_EN k false).pbit POS.STAT_CMPBEHIND (k / 4) (k % 4) false
    else if was.sets s POS.CMPC_EN k then State.cmpTest (k / 4) (k % 4) s
    else if s.sets was POS.CMPC_EN k then s.pbit POS.STAT_CMPBEHIND (k / 4) (k % 4) false else s
  else if r = POS.CMPV then
    if s.gb POS.CMPC_EN k && was.word POS.CMPV k != s.word POS.CMPV k then State.cmpTest (k / 4) (k % 4) s else s
  else if r = POS.EMUCFG then if was.sets s POS.EMUCFG_EN k then State.emuStart k s else s
  else if r = CTL.AXCFG then
    if was.sets s CTL.AXCFG_EN k then State.axIdle k s else if s.sets was CTL.AXCFG_EN k then State.axOff k s else s
  else if r = CTL.AXCMD then
    if w.testBit 1 then State.axStop k s else if w.testBit 0 then State.axStart k s else s
  else if r = CTL.CMDCFG then if was.differs s CTL.CMDCFG_MODE k then State.cinRestart k s else s
  else s

/-- The gate side and the links (R206, R245, R255, R263, R267). A bridge that changes its role starts with its channels low
(R240), and under the forced STO of the inputs in STO (R261). -/
def State.gateHook (was : State) (r : Reg) (k w : Nat) (s : State) : State :=
  if r = GATE.CH then if s.sets was GATE.CH_EN k then State.forcePad k false s else s
  else if r = GATE.BRCFG then
    if was.differs s GATE.BRCFG_TOPO k || was.differs s GATE.BRCFG_MASTER k then
      let s1 := overL (chansOf k) (fun n => State.forcePad n false) s
      if (at' s1.units k UnitSt.none).stoIn && s1.isUnit k then State.forceSto .inputs k s1 else s1
    else s
  else if r = GATE.SWFLT0 then State.swClear (bitList 32 w) was
  else if r = GATE.SWFLT1 then State.swClear ((bitList 16 w).map (32 + ·)) was
  else if r = FBRK.BRREL then overL (bitList 8 w) State.releaseDemand s
  else if r = DCL.CFG then s.relink
  else if r = DCL.DSCCMD then overL (bitList 4 (w / 16)) State.dscStop (overL (bitList 4 w) State.dscGo s)
  else if r = SAFE.SIN then
    if was.differs s SAFE.SIN_TYPE k || was.differs s SAFE.SIN_EN k then State.pairUpdate k s else s
  else if r = SAFE.CONN then
    if was.sets s SAFE.CONN_EN k then State.modConn k (fun _ => { Conn.none with lastAcc := s.tbase }) s else s
  else s

/-- Networks, queues, events, debug, the Percolator and the store. -/
def State.dataHook (was : State) (n : Fin 4) (r : Reg) (k w : Nat) (s : State) : State :=
  if r = QUE.QCFG then
    if was.sets s QUE.QCFG_EN k then (s.setWord QUE.QHEAD k 0).setWord QUE.QTAIL k 0
    else if s.sets was QUE.QCFG_EN k then s.setWord QUE.QHEAD k (s.word QUE.QTAIL k)
    else s
  else if r = EVT.DOORBELL then State.ring n (BitVec.ofNat 32 w) s
  else if r = PYR.STAT then if was.gb PYR.DBGCTL_EN then s.pb PYR.STAT_DBGDIV 0 (was.gb PYR.STAT_DBGDIV) else s
  else if r = PYR.DBGCTL then State.dbgApply was (w.testBit 1) (s.pb PYR.DBGCTL_STEP 0 false)
  else if r = CAN.CFG then if was.sets s CAN.CFG_EN k then State.canStart k s else s
  else if r = CAN.TXPUSH then State.qPushN (20 + 2 * k) (bits w 0 8) s
  else if r = CAN.RXPOP then State.qDrop (21 + 2 * k) (bits w 0 8) s
  else if r = ETH.TXPUSH then State.qPushN (16 + 2 * k) (bits w 0 8) s
  else if r = ETH.RXPOP then State.qDrop (17 + 2 * k) (bits w 0 8) s
  else if r = ETH.MDIO then State.mdioStart k s
  else if r = ETH.PTPOFS_LO then { s with ptpHeld := BitVec.ofNat 32 w }
  else if r = ETH.PTPOFS_HI then s.ptpApply
  else if r = BGS.PWRCAP then (s.pb BGS.STAT_THROT 0 (decide (s.g BGS.PWRCAP_CAP < 29))).guarUpdate
  else if r = BGS.TPOP then State.qDrop (28 + k) (bits w 0 16) s
  else if r = NVS.FUSECMD then State.fuseApply w s
  else if r = NVS.ZEROIZE then if w % 2 = 1 then s.zeroizeNow else s
  else s

/-- One accepted word at a mapped register, by port `n`. -/
def State.applyReg (n : Fin 4) (r : Reg) (k : Nat) (v : Word) (s : State) : State :=
  let w := v.toNat
  let t := s.setWord r k (BitVec.ofNat 32 (mergeWord r k (s.word r k).toNat w))
  State.dataHook s n r k w (State.gateHook s r k w (State.motionHook s r k w (State.senseHook s r k t)))

/-- One accepted word at any address (R84). -/
def State.applyWord (n : Fin 4) (x : Nat × Word) (s : State) : State :=
  if x.1 < sramEnd then State.sramPut x.1 (leBytes 4 x.2.toNat) s
  else
    match regAt x.1 with
    | some (r, k) => State.applyReg n r k x.2 s
    | none => s

/-- Write consecutive words from `a` up for a writer: refused as a whole, or every word in ascending order (R84, R126). A
codeword that they cover whole is written whole (R33). A task that is not admitted writes nothing. -/
def State.writeWords (w : Who) (a : Nat) (vs : List Word) (s : State) : Except Code State :=
  match s.writerPort w with
  | none => .error eNOTASK
  | some n =>
    let c := s.writeCode n a vs
    if c = eOK then .ok (State.cleanse a (4 * vs.length) (overL (wordAddrs a vs) (State.applyWord n) s)) else .error c

/-- An access to this address is a request to NVST while a self-test slice of NVST runs (R81, R386, R434). -/
def State.nvDeferred (s : State) (a : Nat) : Bool :=
  s.sliceOn (.island 24) && ((nvBankOf a).isSome || match blockAt a with
    | some b => b.island == 24
    | none => false)

/-- The register-write rows: the write as the writer's, its answer held in `wrCode`. Nothing is served while MEMF is
unpowered or has failed (R434). -/
def State.rowWrite (w : Who) (a : Nat) (v : Word) (s : State) : State :=
  if !s.up || !s.islandUp 18 then s
  else
    match s.writeWords w a [v] with
    | .ok t => { t with wrCode := if s.nvDeferred a then eDEFERRED else eOK }
    | .error c => { s with wrCode := c }

end Sys2Proof.Machine
end

