-- ==== Sys2Proof/Machine/Release.lean ====
section
/-! DEFINITION. The release of an accepted step's outputs (R126, R129, R150 to R153) and what follows it (R156, R161,
R164, R212). -/

namespace Sys2Proof.Machine

/-- A release in progress: the state, the index of the next STA, and the refusal met (R126). -/
structure Rel where
  s : State
  idx : Nat
  refused : Option (Nat × Code)

/-- The first bridge of output group `k`. -/
def Task.groupBr (t : Task) (k : Nat) : Nat := (t.d.out.getD k (0, false)).1

/-- A leg command: 0x8000_0000 is taken as −(2^31 − 1) (R150). -/
def legWord (w : Word) : Word := if w = 0x80000000 then 0x80000001 else w

/-- A released PWM command reaches PWMT, or is refused by mode (R44, R45, R151), or discarded while a winding discharge runs
(R269). `high` commands a switch on. -/
def State.pwmTo (br : Nat) (high : Bool) (f : State → State) (s : State) : State :=
  if s.g FBRK.BRST_PAT (s.unitOf br) = 6 then s
  else if s.mode = mRUN ∨ s.mode = mSAFE then f s
  else if s.mode = mCONFIGURE ∧ s.gb SYS.MODE_BENCH then
    if high && !s.gateMode (s.unitOf br) then State.refuse br (f s) else f s
  else if high then State.refuse br s else s

/-- Set the shadow command of one leg of a bridge. -/
def State.putLeg (br leg : Nat) (c : LegCmd) (s : State) : State :=
  { s with legs := upd s.legs (3 * br + leg) fun l => { l with shadow := c } }

/-- The channel of switch `sw` of a group: 0–5 its first bridge, 6–11 the inner bridge or the follower (R242). -/
def State.groupSwitch (s : State) (br sw : Nat) : Nat :=
  if sw < 6 then 6 * br + sw else 6 * ((s.members (s.unitOf br)).getD 1 br) + (sw - 6)

/-- FLTSET (R152, R261). -/
def State.fltset (t : Task) (k code : Nat) (v : Word) (s : State) : State :=
  let s1 := (s.setWord CTL.TREAS t.id (BitVec.ofNat 32 (code * 2 ^ 24 + k * 2 ^ 16 + v.toNat % 65536))).raise 1 0x64 t.id
  match code with
  | 1 => State.demand (t.groupBr k) 2 false s1
  | 2 => State.forceSto .fltset (s1.unitOf (t.groupBr k)) s1
  | 3 => State.enterSafe 4 none s1
  | _ => s1

/-- QWRW into the entry at QTAIL of an enabled queue that has room (R129, R99). -/
def State.relWrite (q k : Nat) (v : Word) (s : State) : State :=
  if s.gb QUE.QCFG_EN q && !s.qFull q then
    s.sramPut (s.qAddr q (s.word QUE.QTAIL q).toNat + 4 * k) (leBytes 4 v.toNat)
  else s

/-- QPUSH: a full ring counts a drop (R99). -/
def State.relPush (q : Nat) (s : State) : State :=
  if !s.gb QUE.QCFG_EN q then s
  else if s.qFull q then s.inc QUE.QSTAT_DROPS q
  else s.setWord QUE.QTAIL q (s.word QUE.QTAIL q + 1)

/-- QPOP. On a ring that is empty or disabled by then it changes nothing (DESIGN CHOICE, log entry 46). -/
def State.relPop (q : Nat) (s : State) : State :=
  if s.gb QUE.QCFG_EN q && s.qLevel q != 0 then s.qDrop q 1 else s

/-- STA: the first refused write and every later one of the step are not performed (R126). -/
def Rel.sta (t : Task) (a v : Word) (r : Rel) : Rel :=
  match r.refused with
  | some _ => { r with idx := r.idx + 1 }
  | none =>
    match State.writeWords (.task (Fin.ofNat 256 t.id)) a.toNat [v] r.s with
    | .ok s1 => { r with s := s1, idx := r.idx + 1 }
    | .error c =>
      { s := (r.s.p CTL.TFCD_ERR t.id c.toNat).raise 1 0x61 t.id, idx := r.idx + 1, refused := some (r.idx, c) }

/-- Release one output: `flt` holds the groups of the step's FLTSETs, whose PWM commands are discarded (R150), and
`late` says that the step's PWM commands are discarded with it (R156). -/
def Rel.item (t : Task) (flt : List Nat) (late : Bool) (r : Rel) (x : OutItem) : Rel :=
  let pwm := fun (k : Nat) (high : Bool) (f : State → State) =>
    if late || flt.contains k then r else { r with s := State.pwmTo (t.groupBr k) high f r.s }
  match x with
  | .sta a v => r.sta t a v
  | .qwrw q k v => { r with s := State.relWrite q k v r.s }
  | .qpush q => { r with s := State.relPush q r.s }
  | .qpop q => { r with s := State.relPop q r.s }
  | .pwm3 k a b c =>
    let br := t.groupBr k
    pwm k true fun s => State.putLeg br 2 (.drive (legWord c)) (State.putLeg br 1 (.drive (legWord b)) (State.putLeg br 0 (.drive (legWord a)) s))
  | .pwm1 k leg u => pwm k true (State.putLeg (t.groupBr k) leg (.drive (legWord u)))
  | .pwmoff k =>
    let br := t.groupBr k
    pwm k false fun s => State.putLeg br 2 .off (State.putLeg br 1 .off (State.putLeg br 0 .off s))
  | .pwmtrim k sw v => pwm k false fun s => s.p GATE.TRIM_TASK (s.groupSwitch (t.groupBr k) sw) (codeOf 9 (max (-255) (min 255 (sval v))))
  | .fltset k code v => { r with s := State.fltset t k code v r.s }
  | .evraise k v =>
    let data := BitVec.ofNat 32 (t.id + t.stepn.toNat % 2 ^ 24 * 256)
    { r with s := r.s.raiseFull 1 (t.d.evt.getD k 0).toNat (v.toNat % 256) data 0 (some t.port) }
  | .tlmput k v =>
    let put := fun (x : Task) =>
      { x with tlmSig := assocPut x.tlmSig k v, tlmLast := if late then x.tlmLast else assocPut x.tlmLast k v }
    { r with s := r.s.modTask t.id put }

/-- The groups that a step's FLTSETs name. -/
def fltGroups (l : List OutItem) : List Nat := l.filterMap fun x => match x with
  | .fltset k _ _ => some k
  | _ => none

/-- A setup task has had a step accepted: after RUNS of them it retires (R164). -/
def State.setupStep (t : Nat) (s : State) : State :=
  let n := s.g CTL.TRUN_RUNLEFT t - 1
  let s1 := s.p CTL.TRUN_RUNLEFT t n
  if n = 0 then State.dropTask t ((s1.p CTL.TRUN_SEND t 0b01).raise 1 0x63 t) else s1

/-- The update point that ends the period of a step (R155, R243): half a carrier period of an odd PERIOD is a tick shorter
from a valley to its peak than from the peak to the next valley. -/
def State.stepEnd (s : State) (t : Task) (st : Step) : Nat :=
  let p := s.period t.d.psrcBr
  let valley := (st.tick + p - s.phase t.d.psrcBr) % p == 0
  let half := t.d.byBridge && t.d.upd == 2 && p % 2 == 1 && bits t.d.psrc.toNat 4 4 % 2 == 0
  st.tick + st.period.toNat - if half && valley then 1 else 0

/-- The step has missed the deadline of R155: its commands come less than 100 ns before the update point that ends its
period. -/
def State.missed (s : State) (t : Task) (st : Step) : Bool :=
  t.d.kind == 0 && t.d.cls == 0 && !st.late && decide (s.stepEnd t st < s.tbase + 20)

/-- A step of engine `e` is accepted (R190): its outputs are released in program order, in the pass-A record's order. -/
def State.acceptStep (e : Nat) (st : Step) (s : State) : State :=
  match s.task? st.task with
  | none => s
  | some t =>
    let s0 := State.modEng e (fun x => { x with steps := x.steps.filter fun y => y.task != st.task }) s
    let missed := s.missed t st
    let late := st.late || missed
    let rc := st.resA.getD st.cur
    let s1 := if missed then State.lateStep t.id s0 else s0
    let s2 := s1.modTask t.id fun x =>
      { x with stw := rc.stw, stepn := x.stepn + 1, astat := 0, lastAccept := some s.tbase, evalDue := s.axesOfTask t.id,
               rejRun := if late && x.lateCounts then x.rejRun else 0, tlmSig := [] }
    let r := rc.outs.foldl (Rel.item t (fltGroups rc.outs) late) ⟨s2, 0, none⟩
    let s3 := match r.refused with
      | some (i, c) => r.s.modTask t.id fun x => { x with astat := BitVec.ofNat 32 (i * 65536 + c.toNat) }
      | none => r.s
    if t.d.kind = 1 then State.setupStep t.id s3 else s3

end Sys2Proof.Machine
end

