-- ==== Sys2Proof/Machine/Pyrya.lean ====
section
/-! DEFINITION. Pyrya: the slots of a pass-A record (R188), the verdicts and what they charge (R189 to R198), the canary
(R200 to R202), and faults of both passes (R135). -/

namespace Sys2Proof.Machine

/-- What CTL.TFLT and CTL.TFCD hold after a fault. -/
def State.faultRegs (t : Nat) (which : Nat) (f : PassFault) (s : State) : State :=
  (((s.p CTL.TFLT_PASS t which).p CTL.TFLT_PC t f.pc).p CTL.TFCD_CAUSE t f.code).p CTL.TFCD_ERR t f.err

/-- The registers and the event of a step rejected for a task fault or SPLIT (R135). -/
def State.faultTold (e : Nat) (t : Nat) (which : Nat) (f : PassFault) (s : State) : State :=
  ((State.faultRegs t which f s).inc CTL.TFLT_CNT t).raiseFull (2 + e) 0x60 t 0 0 ((s.task? t).map (·.port))

/-- A step is over without release: rolled back, and off its engine (R104). -/
def State.withdrawn (st : Step) (s : State) : State := State.endStep st.task (State.rollback st s)

/-- A task fault (R135): the step is rejected and rolled back, the registers tell why, and REACT follows. -/
def State.taskFault (e : Nat) (st : Step) (which : Nat) (f : PassFault) (s : State) : State :=
  State.rejected st.task st.late (State.faultTold e st.task which f (State.withdrawn st s))

/-- Any other pattern of faults is SPLIT, told with the passes that faulted (R135). -/
def Step.split (which : BitVec 2) (f : PassFault) (st : Step) : Step :=
  { st with faulted := which, cur := { st.cur with fault := some { f with code := cSPLIT, err := 0 } } }

/-- The running step of engine `e` has ended pass B and waits for its verdict, behind the steps that can still run. -/
def State.judge (e : Nat) (st : Step) (s : State) : State :=
  s.modEng e fun x => { x with steps := x.steps.tail ++ [{ st with judged := true, endStamp := s.tbase }] }

/-! Verdicts (R190 to R198). -/

/-- PYR.LAST and its stamp (R193). -/
def State.lastVerdict (cause e t item : Nat) (s : State) : State :=
  ((s.setWord PYR.LAST 0 (BitVec.ofNat 32 (cause * 2 ^ 28 + e * 2 ^ 24 + t * 2 ^ 16 + item))).setWord PYR.LASTTS_LO 0
    (BitVec.ofNat 32 s.tbase)).setWord PYR.LASTTS_HI 0 (BitVec.ofNat 32 (s.tbase / 2 ^ 32))

/-- Class O is charged to the task ID: it has had a class O on another engine within the preceding second (R196). -/
def State.chargedFor (s : State) (e t : Nat) : Bool :=
  match assocGet s.pyr.lastO t with
  | some (d, at_) => d.val != e && decide (s.tbase ≤ at_ + 200000000)
  | none => false

/-- The charge of a class O (R195, R196). `x` is the task as it stood: a setup task has retired by now (R164). -/
def State.chargeO (e t : Nat) (x : Option Task) (s : State) : State :=
  if s.chargedFor e t then
    let s1 := match x with
      | some y => State.taskSafe y s
      | none => s
    State.dropTask t ((s1.inc PYR.STAT_TCHG 0).raise 1 0x74 t)
  else State.charge e { s with pyr := { s.pyr with lastO := assocPut s.pyr.lastO t (Fin.ofNat 16 e, s.tbase) } }

/-- Verdict class O (R190, R193): the step is rejected and rolled back, REACT follows, and the engine or the task is
charged. -/
def State.classO (e : Nat) (st : Step) (cause item : Nat) (s : State) : State :=
  let s1 := ((State.lastVerdict cause e st.task item (State.withdrawn st s)).inc PYR.STAT_OCNT 0).raise 1 0x71 st.task
  State.chargeO e st.task (s.task? st.task) (State.rejected st.task st.late s1)

/-- A second class P within 1 s brings the KJ8 into SAFE (R197). -/
def State.secondP (s : State) : State :=
  let s1 := { s with pyr := { s.pyr with lastP := some s.tbase } }
  match s.pyr.lastP with
  | some a => if s.tbase ≤ a + 200000000 then s1.faultSafe else s1
  | none => s1

/-- What every class P verdict does to its step (R193): no engine and no task is charged. -/
def State.classPStep (e : Nat) (st : Step) (cause : Nat) (s : State) : State :=
  let s1 := ((State.lastVerdict cause e st.task 0 (State.withdrawn st s)).inc PYR.STAT_PCNT 0).raise 1 0x72 e
  State.rejected st.task st.late s1

/-- Verdict class P (R197). -/
def State.classP (e : Nat) (st : Step) (cause : Nat) (s : State) : State := State.secondP (State.classPStep e st cause s)

/-- A canary pair has answered wrongly (R202). -/
def State.canaryFailed (s : State) : State :=
  ((({ s with pyr := { s.pyr with lastP := some s.tbase } }).pb PYR.STAT_CANFAIL 0 true).raise 1 0x72 0xFF).faultSafe

/-- The lane bit of the next canary pair (R200). -/
def State.canaryNext (s : State) : State := s.p PYR.CANARY_POS 0 ((s.g PYR.CANARY_POS + 1) % 128)

/-- The index of the first item in which two output lists differ, within their common length. -/
def firstDiff : List OutItem → List OutItem → Nat → Option Nat
  | x :: l, y :: m, i => if x = y then firstDiff l m (i + 1) else some i
  | _, _, _ => none

/-- The cause of a class O of a comparison, with the item it differs in (R190): `none` where nothing of it differs. -/
def Step.mismatch (st : Step) : Option (Nat × Nat) :=
  let a := st.resA.getD st.cur
  if st.cur.fault.isSome then some (5, 0)
  else
    match firstDiff a.outs st.cur.outs 0 with
    | some i => some (2, i)
    | none =>
      if a.outs.length ≠ st.cur.outs.length then some (3, 0)
      else if a.ssig ≠ st.cur.ssig then some (4, 0) else none

/-- A line of the delay buffer cannot be trusted (R189). -/
def badLine (l : BufLine) : Bool := if l.fbrkOk && l.memfOk then !l.equal else !l.fbrkOk && !l.memfOk

/-- Pyrya judges a step whose pass B has ended (R189, R190, R198, R202). -/
def State.verdict (e : Nat) (st : Step) (lines : List BufLine) (canaryOk : Bool) (s : State) : State :=
  let s1 := ({ s with pyr := { s.pyr with lastVerdict := s.tbase } }).inc PYR.BUFSTAT_CORR 0
    (lines.filter fun (l : BufLine) => l.fbrkOk != l.memfOk).length
  if lines.any badLine then State.classP e st 7 s1
  else
    match st.mismatch, st.cur.fault with
    | some (c, i), some f => State.classO e st c i (State.faultTold e st.task st.faulted.toNat f s1)
    | some (c, i), none => State.classO e st c i s1
    | none, _ =>
      let s2 := s1.canaryNext
      if !canaryOk then State.canaryFailed (State.classPStep e st 9 s2)
      else if (st.resA.getD st.cur).wsig ≠ st.cur.wsig then
        State.charge e (State.acceptStep e st (((State.lastVerdict 1 e st.task 0 s2).inc PYR.STAT_WCNT 0).raise 1 0x70 st.task))
      else State.acceptStep e st s2

/-- The step of engine `e` whose pass B ended first. A step in debug waits for no verdict (R198). -/
def State.nextJudged (s : State) (e : Nat) : Option Step := (s.eng e).steps.find? fun st => st.judged && !st.debug

/-- No step of another engine is to be judged before one of engine `e` that ended at `stamp`: the earlier stamp, and the
lower island number of equal ones (R192). -/
def State.firstToJudge (s : State) (e stamp : Nat) : Bool :=
  (List.range 16).all fun d => match s.nextJudged d with
    | none => true
    | some y => decide (stamp < y.endStamp ∨ (stamp = y.endStamp ∧ e ≤ d))

/-- PYRYA_VERDICT (R190, R192): Pyrya judges engine `e`, where it is next. -/
def State.pyryaVerdict (e : Nat) (lines : List BufLine) (canaryOk : Bool) (s : State) : State :=
  if !s.up then s
  else
    match s.nextJudged e with
    | none => s
    | some st => if s.firstToJudge e st.endStamp then State.verdict e st lines canaryOk s else s

/-- VERDICT_TIMEOUT (R191): no pass-B STEPEND by the second boundary. That boundary starts no step of the task. -/
def State.verdictTimeout (e t : Nat) (s : State) : State :=
  match (s.eng e).steps.find? fun st => st.task == t && !st.judged && !st.debug with
  | none => s
  | some st =>
    if (s.eng e).halted then s
    else State.classO e st 6 0 (s.modTask t fun x => { x with timedOut := some s.tbase })

/-- VERDICT_TIMEOUT (R191). -/
def execVerdictTimeout (e : Fin 16) (t : Fin 256) (s : State) : Out := .next (State.verdictTimeout e t s)

/-- CANARY_PAIR (R200, R202). -/
def execCanaryPair (ok : Bool) (s : State) : Out :=
  .next (if !s.up then s else if ok then s.canaryNext else s.canaryNext.canaryFailed)

/-- SUSPECT_EXPIRY (R194): the second since the verdict is over. -/
def execSuspectExpiry (e : Fin 16) (s : State) : Out :=
  .next (State.modEng e.val (fun x => { x with suspAt := none }) (s.pbit PYR.ESUSP_SUSP 0 e.val false))

/-! The delay buffer (R188). -/

/-- Steps of engine `e` that occupy a slot. -/
def State.slotsUsed (s : State) (e : Nat) : Nat := ((s.eng e).steps.filter fun st => st.resA.isSome).length

/-- Pass A has ended: its record goes to a slot and pass B starts (R103, R188). Without a free slot the step is a class
P fault. -/
def State.recordA (e : Nat) (t : Task) (st : Step) (s : State) : State :=
  if 4 ≤ s.slotsUsed e then State.classP e st 8 s
  else s.modEng e fun x =>
    { x with steps := { st with passB := true, resA := some st.cur, cur := { Pass.init with stw := t.stw, pc := t.d.entry / 4 } }
                        :: x.steps.tail }

end Sys2Proof.Machine
end

