-- ==== Sys2Proof/Machine/Runner.lean ====
section
/-! DEFINITION. How an engine runs a pass: the start of a pass (R103), one instruction after another with the ends of
loops (R130, R131), faults and the end of a pass (R134, R135, R188), and a step on a debug engine (R205, R206). -/

namespace Sys2Proof.Machine

/-- A pass of a task, at its entry point (R103). -/
def Task.pass (t : Task) : Pass := { Pass.init with stw := t.stw, pc := t.d.entry / 4 }

/-- Replace the running step of engine `e`. -/
def State.setStep (e : Nat) (st : Step) (s : State) : State :=
  s.modEng e fun x => { x with steps := st :: x.steps.tail }

/-- A pass stops with a fault (R134, R135). On a debug engine only pass A runs, and its fault rejects the step. Where both
passes fault and differ, the place told is pass B's (DESIGN CHOICE, log entry 105). -/
def State.passFault (e : Nat) (r : Run) (f : Flt) (s : State) : State :=
  let st := match f.log with
    | some x => { r.st with log := r.st.log ++ [x] }
    | none => r.st
  let x : PassFault := ⟨f.code, f.err, st.cur.pc, st.cur.count⟩
  let cur := { st.cur with fault := some x }
  let st1 := { st with cur := cur }
  if st.debug then State.taskFault e st1 1 x s
  else if !st.passB then State.recordA e r.t st1 s
  else
    match st.resA.bind (·.fault) with
    | some y => if x = y then State.taskFault e st1 3 x s else State.judge e (st1.split 3 x) s
    | none => State.judge e (st1.split 2 x) s

/-- The end of the outer loop's body. -/
def Pass.outerEnd (p : Pass) (n : Nat) : Pass :=
  match p.lc0 with
  | some l =>
    if n = l.stop then
      if 1 < l.left then { p with lc0 := some { l with left := l.left - 1 }, pc := l.first } else { p with lc0 := none, pc := n }
    else { p with pc := n }
  | none => { p with pc := n }

/-- Go on at word `n` after an instruction that did not branch: the ends of the loop bodies (R131). -/
def Pass.goOn (p : Pass) (n : Nat) : Pass :=
  match p.lc1 with
  | some l =>
    if n = l.stop then
      if 1 < l.left then { p with lc1 := some { l with left := l.left - 1 }, pc := l.first }
      else { p with lc1 := none }.outerEnd n
    else p.outerEnd n
  | none => p.outerEnd n

/-- The target lies outside a body. -/
def LoopReg.left? (l : LoopReg) (n : Nat) : Bool := decide (n < l.first ∨ l.stop ≤ n)

/-- Go on at a branch target: leaving a body ends that loop, and the inner one with it (R131). -/
def Pass.jumpTo (p : Pass) (n : Nat) : Pass :=
  let outer := match p.lc0 with
    | some l => l.left? n
    | none => false
  let inner := match p.lc1 with
    | some l => l.left? n
    | none => false
  { p with pc := n, lc0 := if outer then none else p.lc0, lc1 := if outer || inner then none else p.lc1 }

/-- An instruction of `len` words has been executed: the count, and where the pass goes on. -/
def Run.advance (len : Nat) (r : Run) : Pass :=
  let p := { r.p with count := r.p.count + 1 }
  match r.jump with
  | some n => p.jumpTo n
  | none =>
    match r.goto with
    | some n => p.goOn n
    | none => p.goOn (p.pc + len)

/-- The end of a pass (R132, R188): after pass A pass B starts, after pass B the step waits for its verdict. On a debug
engine the outputs are released at pass-A STEPEND (R205). -/
def State.passEnd (e : Nat) (r : Run) (p : Pass) (s : State) : State :=
  let st := { r.st with cur := p }
  if st.debug then State.acceptStep e st s
  else if !st.passB then State.recordA e r.t st s
  else
    match st.resA.bind (·.fault) with
    | some f => State.judge e (st.split 1 f) s
    | none => State.judge e st s

/-- The codeword lies in a local memory of engine `e`. -/
def inLocal (e : Nat) : MemLoc → Bool
  | .localMem x _ _ => x.val == e
  | _ => false

/-- The symbols struck in the codewords of the local memories of engine `e`. -/
def State.localUpsets (s : State) (e : Nat) : List Nat := (s.upsets.filter fun x => inLocal e x.1).map (·.2)

/-- The codewords of its local memories that engine `e` reads with the instruction: up to 3 symbols are corrected and
counted (R36). Which instruction reads a struck codeword is not said: it is the engine's next (DESIGN CHOICE, log entry
107). -/
def State.localTouch (e : Nat) (s : State) : State :=
  overL (s.localUpsets e) (fun n s => if n ≤ 3 then s.inc SYS.MEMERR_CORR 0 else s)
    { s with upsets := s.upsets.filter fun x => !inLocal e x.1 }

/-- An uncorrectable codeword of its own memory fails engine `e` (R37). -/
def State.localFails (e : Nat) (s : State) : State :=
  let s1 := State.memUnc true e (State.localTouch e s)
  State.afterCause s1 (State.engineFailed e s1)

/-- Engine `e` executes one instruction of `len` words in the running pass. -/
def State.instr (e len : Nat) (f : Op) (s0 : State) : State :=
  let s := State.localTouch e s0
  match (s0.eng e).steps.head? with
  | none => s0
  | some st =>
    match s.task? st.task with
    | none => s0
    | some t =>
      if !s.up || st.judged then s0
      else if (s0.localUpsets e).any fun n => decide (3 < n) then State.localFails e s0
      else
        let r0 : Run := ⟨s, e, t, st, none, none⟩
        match f r0 with
        | .error x =>
          let s1 := match x.touch with
            | some (a, n) => s.sramTouch a n
            | none => s
          if x.code = 0 then s0 else State.passFault e r0 x s1
        | .ok r =>
          let p := r.advance len
          let s1 := r.s
          -- pass A stopped at this count with a fault, and pass B did not
          match (st.resA.bind (·.fault)).filter fun x => st.passB && x.count == st.cur.count with
          | some x => State.judge e (st.split 1 x) s
          | none =>
          if p.ended then State.passEnd e r p s1
          else State.setStep e { r.st with cur := p } s1

/-- Engine `e` executes an instruction, unless it is halted under debug (R206). -/
def State.rhax (e : Fin 16) (len : Nat) (f : Op) (s : State) : State :=
  if (s.eng e.val).halted then s else State.instr e.val len f s

end Sys2Proof.Machine
end

