-- ==== Sys2Proof/Machine/Alu.lean ====
section
/-! DEFINITION. The ALU instructions (R117), their immediate forms (R118) and the long forms (R133). -/

namespace Sys2Proof.Machine

/-- An operand: a register, or an immediate. -/
inductive Opd
  | g (i : Fin 32)
  | i (w : Word)

/-- The operand of a type-I instruction. -/
def Run.opd (r : Run) : Opd → GReg
  | .g i => r.g i
  | .i w => GReg.imm false w

/-- Class L with two sources (R112). -/
def aluL (f : Int → Int → Int × Word) (gd : Fin 32) (a b : Opd) : Op := fun r =>
  let x := (r.opd a).q
  let y := (r.opd b).q
  let z := f x.v (y.align x.tag)
  .ok ((r.wrI gd z.1 x.tag).flag (z.2 ||| satFlag [x, y]))

/-- Class L with one source. -/
def aluL1 (f : Int → Int × Word) (gd : Fin 32) (a : Opd) : Op := fun r =>
  let x := (r.opd a).q
  let z := f x.v
  .ok ((r.wrI gd z.1 x.tag).flag (z.2 ||| satFlag [x]))

/-- Class S with a value: `f`, or its partner where the first tag is 1 (R112). -/
def aluS (f f' : Int → Int → Int) (gd : Fin 32) (a b : Opd) : Op := fun r =>
  let x := (r.opd a).q
  let y := (r.opd b).q
  .ok ((r.wrI gd ((if x.tag then f' else f) x.v (y.align x.tag)) x.tag).flag (satFlag [x, y]))

/-- Class S with a truth value. -/
def aluT (f f' : Int → Int → Bool) (gd : Fin 32) (a b : Opd) : Op := fun r =>
  let x := (r.opd a).q
  let y := (r.opd b).q
  .ok ((r.wrI gd (if (if x.tag then f' else f) x.v (y.align x.tag) then 1 else 0) false).flag (satFlag [x, y]))

/-- Class N with two sources: native values, tag 0. -/
def aluN (f : Word → Word → Word × Word) (gd : Fin 32) (a b : Opd) : Op := fun r =>
  let z := f (r.opd a).native (r.opd b).native
  .ok ((r.wr gd z.1 false false).flag z.2)

/-- ADDS. -/
def opAdds := aluL fun a b => satOut (a + b)
/-- SUBS. -/
def opSubs := aluL fun a b => satOut (a - b)
/-- NEGS. -/
def opNegs := aluL1 fun a => (-a, 0)

/-- ABSS: class E. -/
def opAbss (gd : Fin 32) (a : Opd) : Op := fun r =>
  let x := (r.opd a).q
  .ok ((r.wrI gd (absI x.v) false).flag (satFlag [x]))

/-- MULQ: class P; it never saturates. -/
def opMulq (gd : Fin 32) (a b : Opd) : Op := fun r =>
  let x := (r.opd a).q
  let y := (r.opd b).q
  .ok ((r.wrI gd (rndDiv (x.v * y.v) (2 ^ 31)) (x.tag != y.tag)).flag (satFlag [x, y]))

/-- `a / b` rounded half away from zero, for any `b` but 0. -/
def rndQuot (a b : Int) : Int := if b < 0 then rndDiv (-a) (-b) else rndDiv a b

/-- DIVQ: class P; by 0 it gives the sign of the native dividend at full scale, with tag 0. -/
def opDivq (gd : Fin 32) (a b : Opd) : Op := fun r =>
  let x := (r.opd a).q
  let y := (r.opd b).q
  if y.v = 0 then
    .ok ((r.wrI gd (sgnI (x.align false) * (2 ^ 31 - 1)) false).flag (fDVZ ||| satFlag [x, y]))
  else
    let z := satOut (rndQuot (2 ^ 31 * x.v) y.v)
    .ok ((r.wrI gd z.1 (x.tag != y.tag)).flag (z.2 ||| satFlag [x, y]))

/-- MIN, partner MAX. -/
def opMin := aluS min max
/-- MAX, partner MIN. -/
def opMax := aluS max min
/-- CLIPS. -/
def opClips := aluL fun a b => clipOut (absI b) a

/-- CLIPR: class S, the partner clips to [gc, gb]; 0 where the native bounds are crossed. -/
def opClipr (gd : Fin 32) (a b c : Opd) : Op := fun r =>
  let x := (r.opd a).q
  let y := (r.opd b).q
  let z := (r.opd c).q
  let lo := if x.tag then z.align x.tag else y.align x.tag
  let hi := if x.tag then y.align x.tag else z.align x.tag
  let v := if hi < lo then 0 else clampI lo hi x.v
  .ok ((r.wrI gd v x.tag).flag (flagIf (v != x.v) fCLIP ||| satFlag [x, y, z]))

/-- SHLS by `n`. -/
def opShls (gd : Fin 32) (a : Opd) (n : Nat) : Op := aluL1 (fun a => satOut (a * 2 ^ n)) gd a
/-- SHRQ by `n`. -/
def opShrq (gd : Fin 32) (a : Opd) (n : Nat) : Op := aluL1 (fun a => (rndDiv a (2 ^ n), 0)) gd a

/-- √n rounded to the nearest integer. -/
def rndSqrt (n : Nat) : Nat :=
  let r := isqrt n
  if r < n - r * r then r + 1 else r

/-- SQRTQ: class N. -/
def opSqrtq (gd : Fin 32) (a : Opd) : Op := fun r =>
  let x := sval (r.opd a).native
  .ok (if x < 0 then (r.wr gd 0 false false).flag fCLIP
       else (r.wr gd (BitVec.ofNat 32 (rndSqrt (x.toNat * 2 ^ 31))) false false).flag 0)

/-- ADDW. -/
def opAddw := aluN fun a b => (a + b, wrapFlag (sval a + sval b))
/-- SUBW. -/
def opSubw := aluN fun a b => (a - b, wrapFlag (sval a - sval b))
/-- MULW. -/
def opMulw := aluN fun a b => (a * b, wrapFlag (sval a * sval b))
/-- DIVW, truncated. -/
def opDivw := aluN fun a b =>
  if b = 0 then (0, fDVZ) else (ofInt ((sval a).tdiv (sval b)), wrapFlag ((sval a).tdiv (sval b)))
/-- AND. -/
def opAnd := aluN fun a b => (a &&& b, 0)
/-- OR. -/
def opOr := aluN fun a b => (a ||| b, 0)
/-- XOR. -/
def opXor := aluN fun a b => (a ^^^ b, 0)
/-- SHL. -/
def opShl := aluN fun a b => (a <<< (b.toNat % 32), 0)
/-- SHR. -/
def opShr := aluN fun a b => (a >>> (b.toNat % 32), 0)
/-- SHRA. -/
def opShra := aluN fun a b => (BitVec.sshiftRight a (b.toNat % 32), 0)
/-- CLZ. -/
def opClz (gd : Fin 32) (a : Opd) : Op :=
  aluN (fun a _ => (if a = 0 then 32 else BitVec.ofNat 32 (31 - Nat.log2 a.toNat), 0)) gd a (.i 0)

/-- A copy of a register with its tag and type (class K). -/
def Run.copyTo (gd : Fin 32) (x : GReg) (r : Run) : Run := r.wr gd x.raw x.tag x.isF

/-- MOV. -/
def opMov (gd : Fin 32) (a : Opd) : Op := fun r => .ok (r.copyTo gd (r.opd a))

/-- CSEL: `a` where native `c` is not 0, else `b`. -/
def opCsel (gd : Fin 32) (a b c : Opd) : Op := fun r =>
  .ok (r.copyTo gd (if (r.opd c).native ≠ 0 then r.opd a else r.opd b))

/-- SEQ. -/
def opSeq := aluT (fun a b => a == b) (fun a b => a == b)
/-- SLT. -/
def opSlt := aluT (fun a b => decide (a < b)) (fun a b => decide (b < a))
/-- SLE. -/
def opSle := aluT (fun a b => decide (a ≤ b)) (fun a b => decide (b ≤ a))
/-- SLTU. -/
def opSltu := aluN fun a b => (if a.toNat < b.toNat then 1 else 0, 0)

/-- A 16-bit immediate, sign-extended. -/
def immS (w : BitVec 16) : Opd := .i (w.signExtend 32)
/-- A 16-bit immediate, zero-extended. -/
def immZ (w : BitVec 16) : Opd := .i (w.setWidth 32)

/-- An immediate written to a register with tag 0 and type I (MOVI, LUI, MOVL). -/
def opImm (gd : Fin 32) (w : Word) : Op := fun r => .ok (r.wr gd w false false)

/-- The ALU operation of a long form: IMM32 takes the place R133 names; none for an undefined or reserved encoding. -/
def longOp (fn : Nat) (gd : Fin 32) (a gx : Fin 32) (imm : Word) : Option Op :=
  let plain := gx.val = 0
  let two := fun (f : Fin 32 → Opd → Opd → Op) => if plain then some (f gd (.g a) (.i imm)) else none
  let one := fun (f : Fin 32 → Opd → Op) => if plain ∧ imm = 0 then some (f gd (.g a)) else none
  let shift := fun (f : Fin 32 → Opd → Nat → Op) =>
    if plain ∧ imm.toNat < 32 then some (f gd (.g a) imm.toNat) else none
  match fn with
  | 0x00 => two opAdds
  | 0x01 => two opSubs
  | 0x02 => one opNegs
  | 0x03 => one opAbss
  | 0x04 => two opMulq
  | 0x05 => two opDivq
  | 0x06 => two opMin
  | 0x07 => two opMax
  | 0x08 => two opClips
  | 0x09 => some (opClipr gd (.g a) (.g gx) (.i imm))
  | 0x0A => shift opShls
  | 0x0B => shift opShrq
  | 0x0C => one opSqrtq
  | 0x10 => two opAddw
  | 0x11 => two opSubw
  | 0x12 => two opMulw
  | 0x13 => two opDivw
  | 0x14 => two opAnd
  | 0x15 => two opOr
  | 0x16 => two opXor
  | 0x17 => two opShl
  | 0x18 => two opShr
  | 0x19 => two opShra
  | 0x1A => one opClz
  | 0x20 => one opMov
  | 0x21 => some (opCsel gd (.g a) (.i imm) (.g gx))
  | 0x22 => two opSeq
  | 0x23 => two opSlt
  | 0x24 => two opSle
  | 0x25 => two opSltu
  | _ => none

/-- A fault of the encoding (R115). -/
def opIllegal : Op := fun _ => .error (flt cILLOP)

/-! The commands. -/


/-- ADDS (R117). -/
def execAdds (e : Fin 16) (gd ga gb : Fin 32) (s : State) : Out := .next (s.rhax e 1 (opAdds gd (.g ga) (.g gb)))

/-- SUBS (R117). -/
def execSubs (e : Fin 16) (gd ga gb : Fin 32) (s : State) : Out := .next (s.rhax e 1 (opSubs gd (.g ga) (.g gb)))

/-- NEGS (R117). -/
def execNegs (e : Fin 16) (gd ga : Fin 32) (s : State) : Out := .next (s.rhax e 1 (opNegs gd (.g ga)))

/-- ABSS (R117). -/
def execAbss (e : Fin 16) (gd ga : Fin 32) (s : State) : Out := .next (s.rhax e 1 (opAbss gd (.g ga)))

/-- MULQ (R117). -/
def execMulq (e : Fin 16) (gd ga gb : Fin 32) (s : State) : Out := .next (s.rhax e 1 (opMulq gd (.g ga) (.g gb)))

/-- DIVQ (R117). -/
def execDivq (e : Fin 16) (gd ga gb : Fin 32) (s : State) : Out := .next (s.rhax e 1 (opDivq gd (.g ga) (.g gb)))

/-- MIN (R117). -/
def execMin (e : Fin 16) (gd ga gb : Fin 32) (s : State) : Out := .next (s.rhax e 1 (opMin gd (.g ga) (.g gb)))

/-- MAX (R117). -/
def execMax (e : Fin 16) (gd ga gb : Fin 32) (s : State) : Out := .next (s.rhax e 1 (opMax gd (.g ga) (.g gb)))

/-- CLIPS (R117). -/
def execClips (e : Fin 16) (gd ga gb : Fin 32) (s : State) : Out := .next (s.rhax e 1 (opClips gd (.g ga) (.g gb)))

/-- CLIPR (R117). -/
def execClipr (e : Fin 16) (gd ga gb gc : Fin 32) (s : State) : Out := .next (s.rhax e 1 (opClipr gd (.g ga) (.g gb) (.g gc)))

/-- SHLS (R117). -/
def execShls (e : Fin 16) (gd ga n : Fin 32) (s : State) : Out := .next (s.rhax e 1 (opShls gd (.g ga) n))

/-- SHRQ (R117). -/
def execShrq (e : Fin 16) (gd ga n : Fin 32) (s : State) : Out := .next (s.rhax e 1 (opShrq gd (.g ga) n))

/-- SQRTQ (R117). -/
def execSqrtq (e : Fin 16) (gd ga : Fin 32) (s : State) : Out := .next (s.rhax e 1 (opSqrtq gd (.g ga)))

/-- ADDW (R117). -/
def execAddw (e : Fin 16) (gd ga gb : Fin 32) (s : State) : Out := .next (s.rhax e 1 (opAddw gd (.g ga) (.g gb)))

/-- SUBW (R117). -/
def execSubw (e : Fin 16) (gd ga gb : Fin 32) (s : State) : Out := .next (s.rhax e 1 (opSubw gd (.g ga) (.g gb)))

/-- MULW (R117). -/
def execMulw (e : Fin 16) (gd ga gb : Fin 32) (s : State) : Out := .next (s.rhax e 1 (opMulw gd (.g ga) (.g gb)))

/-- DIVW (R117). -/
def execDivw (e : Fin 16) (gd ga gb : Fin 32) (s : State) : Out := .next (s.rhax e 1 (opDivw gd (.g ga) (.g gb)))

/-- AND (R117). -/
def execAnd (e : Fin 16) (gd ga gb : Fin 32) (s : State) : Out := .next (s.rhax e 1 (opAnd gd (.g ga) (.g gb)))

/-- OR (R117). -/
def execOr (e : Fin 16) (gd ga gb : Fin 32) (s : State) : Out := .next (s.rhax e 1 (opOr gd (.g ga) (.g gb)))

/-- XOR (R117). -/
def execXor (e : Fin 16) (gd ga gb : Fin 32) (s : State) : Out := .next (s.rhax e 1 (opXor gd (.g ga) (.g gb)))

/-- SHL (R117). -/
def execShl (e : Fin 16) (gd ga gb : Fin 32) (s : State) : Out := .next (s.rhax e 1 (opShl gd (.g ga) (.g gb)))

/-- SHR (R117). -/
def execShr (e : Fin 16) (gd ga gb : Fin 32) (s : State) : Out := .next (s.rhax e 1 (opShr gd (.g ga) (.g gb)))

/-- SHRA (R117). -/
def execShra (e : Fin 16) (gd ga gb : Fin 32) (s : State) : Out := .next (s.rhax e 1 (opShra gd (.g ga) (.g gb)))

/-- CLZ (R117). -/
def execClz (e : Fin 16) (gd ga : Fin 32) (s : State) : Out := .next (s.rhax e 1 (opClz gd (.g ga)))

/-- MOV (R117). -/
def execMov (e : Fin 16) (gd ga : Fin 32) (s : State) : Out := .next (s.rhax e 1 (opMov gd (.g ga)))

/-- CSEL (R117). -/
def execCsel (e : Fin 16) (gd ga gb gc : Fin 32) (s : State) : Out := .next (s.rhax e 1 (opCsel gd (.g ga) (.g gb) (.g gc)))

/-- SEQ (R117). -/
def execSeq (e : Fin 16) (gd ga gb : Fin 32) (s : State) : Out := .next (s.rhax e 1 (opSeq gd (.g ga) (.g gb)))

/-- SLT (R117). -/
def execSlt (e : Fin 16) (gd ga gb : Fin 32) (s : State) : Out := .next (s.rhax e 1 (opSlt gd (.g ga) (.g gb)))

/-- SLE (R117). -/
def execSle (e : Fin 16) (gd ga gb : Fin 32) (s : State) : Out := .next (s.rhax e 1 (opSle gd (.g ga) (.g gb)))

/-- SLTU (R117). -/
def execSltu (e : Fin 16) (gd ga gb : Fin 32) (s : State) : Out := .next (s.rhax e 1 (opSltu gd (.g ga) (.g gb)))

/-- ADDSI (R118). -/
def execAddsi (e : Fin 16) (gd ga : Fin 32) (imm : BitVec 16) (s : State) : Out :=
  .next (s.rhax e 1 (opAdds gd (.g ga) (immS imm)))

/-- ADDWI (R118). -/
def execAddwi (e : Fin 16) (gd ga : Fin 32) (imm : BitVec 16) (s : State) : Out :=
  .next (s.rhax e 1 (opAddw gd (.g ga) (immS imm)))

/-- ANDI (R118). -/
def execAndi (e : Fin 16) (gd ga : Fin 32) (imm : BitVec 16) (s : State) : Out :=
  .next (s.rhax e 1 (opAnd gd (.g ga) (immZ imm)))

/-- ORI (R118). -/
def execOri (e : Fin 16) (gd ga : Fin 32) (imm : BitVec 16) (s : State) : Out :=
  .next (s.rhax e 1 (opOr gd (.g ga) (immZ imm)))

/-- XORI (R118). -/
def execXori (e : Fin 16) (gd ga : Fin 32) (imm : BitVec 16) (s : State) : Out :=
  .next (s.rhax e 1 (opXor gd (.g ga) (immZ imm)))

/-- SLTI (R118). -/
def execSlti (e : Fin 16) (gd ga : Fin 32) (imm : BitVec 16) (s : State) : Out :=
  .next (s.rhax e 1 (opSlt gd (.g ga) (immS imm)))

/-- MOVI (R118). -/
def execMovi (e : Fin 16) (gd : Fin 32) (imm : BitVec 16) (s : State) : Out := .next (s.rhax e 1 (opImm gd (imm.signExtend 32)))

/-- LUI (R118). -/
def execLui (e : Fin 16) (gd : Fin 32) (imm : BitVec 16) (s : State) : Out :=
  .next (s.rhax e 1 (opImm gd (imm.setWidth 32 <<< 16)))

/-- LONG_ALU (R133). -/
def execLongAlu (e : Fin 16) (fn : BitVec 6) (gd ga gx : Fin 32) (imm : Word) (s : State) : Out :=
  .next (s.rhax e 2 ((longOp fn.toNat gd ga gx imm).getD opIllegal))

/-- MOVL (R133). -/
def execMovl (e : Fin 16) (gd : Fin 32) (imm : Word) (s : State) : Out := .next (s.rhax e 2 (opImm gd imm))

end Sys2Proof.Machine
end

