-- ==== Sys2Proof/Machine/Accum.lean ====
section
/-! DEFINITION. The accumulator instructions (R119). -/

namespace Sys2Proof.Machine

/-- An accumulator of the pass. -/
def Run.a (r : Run) (i : Fin 8) : AReg := r.p.a[i]

/-- ACLR. -/
def opAclr (ad : Fin 8) : Op := fun r => .ok (r.wrA ad 0 false)

/-- MULA: class P. -/
def opMula (ad : Fin 8) (ga gb : Fin 32) : Op := fun r =>
  let x := (r.g ga).q
  let y := (r.g gb).q
  .ok ((r.wrA ad (x.v * y.v) (x.tag != y.tag)).flag (satFlag [x, y]))

/-- MACA and MSUA: the product takes the XOR of its tags and is aligned to the accumulator's. -/
def opMac (sub : Bool) (ad : Fin 8) (ga gb : Fin 32) : Op := fun r =>
  let x := (r.g ga).q
  let y := (r.g gb).q
  let acc := r.a ad
  let prod := if (x.tag != y.tag) = acc.tag then x.v * y.v else -(x.v * y.v)
  let z := accOut (if sub then acc.v - prod else acc.v + prod)
  .ok ((r.wrA ad z.1 acc.tag).flag (z.2 ||| satFlag [x, y]))

/-- AMOV: class K. -/
def opAmov (ad src : Fin 8) : Op := fun r =>
  let z := accOut (r.a src).v
  .ok ((r.wrA ad z.1 (r.a src).tag).flag z.2)

/-- AADD. -/
def opAadd (ad src : Fin 8) : Op := fun r =>
  let z := accOut ((r.a ad).v + (r.a src).align (r.a ad).tag)
  .ok ((r.wrA ad z.1 (r.a ad).tag).flag z.2)

/-- ANEG. -/
def opAneg (ad src : Fin 8) : Op := fun r =>
  let z := accOut (-(r.a src).v)
  .ok ((r.wrA ad z.1 (r.a src).tag).flag z.2)

/-- EXT: the accumulator shifted by −16 to +15, rounded and saturated. -/
def opExt (g : Fin 32) (ad : Fin 8) (sh : BitVec 5) : Op := fun r =>
  let n := (31 - sh.toInt).toNat
  let z := satOut (rndDiv (r.a ad).v (2 ^ n))
  .ok ((r.wrI g z.1 (r.a ad).tag).flag z.2)

/-- ALDQ. -/
def opAldq (ad : Fin 8) (ga : Fin 32) : Op := fun r =>
  let x := (r.g ga).q
  .ok ((r.wrA ad (x.v * 2 ^ 31) x.tag).flag (satFlag [x]))

/-- ACLR (R119). -/
def execAclr (e : Fin 16) (ad : Fin 8) (s : State) : Out := .next (s.rhax e 1 (opAclr ad))

/-- MULA (R119). -/
def execMula (e : Fin 16) (ad : Fin 8) (ga gb : Fin 32) (s : State) : Out := .next (s.rhax e 1 (opMula ad ga gb))

/-- MACA (R119). -/
def execMaca (e : Fin 16) (ad : Fin 8) (ga gb : Fin 32) (s : State) : Out := .next (s.rhax e 1 (opMac false ad ga gb))

/-- MSUA (R119). -/
def execMsua (e : Fin 16) (ad : Fin 8) (ga gb : Fin 32) (s : State) : Out := .next (s.rhax e 1 (opMac true ad ga gb))

/-- AMOV (R119). -/
def execAmov (e : Fin 16) (ad src : Fin 8) (s : State) : Out := .next (s.rhax e 1 (opAmov ad src))

/-- AADD (R119). -/
def execAadd (e : Fin 16) (ad src : Fin 8) (s : State) : Out := .next (s.rhax e 1 (opAadd ad src))

/-- ANEG (R119). -/
def execAneg (e : Fin 16) (ad src : Fin 8) (s : State) : Out := .next (s.rhax e 1 (opAneg ad src))

/-- EXT (R119). -/
def execExt (e : Fin 16) (g : Fin 32) (ad : Fin 8) (sh : BitVec 5) (s : State) : Out := .next (s.rhax e 1 (opExt g ad sh))

/-- ALDQ (R119). -/
def execAldq (e : Fin 16) (ad : Fin 8) (ga : Fin 32) (s : State) : Out := .next (s.rhax e 1 (opAldq ad ga))

end Sys2Proof.Machine
end

