-- ==== Sys2Proof/Machine/Fpu.lean ====
section
/-! DEFINITION. The FPU instructions (R120), under the rules of R109 and R112. -/

namespace Sys2Proof.Machine

/-- The value of a type-F source. -/
def Run.f (r : Run) (i : Fin 32) : GReg := (r.g i).asType true

/-- Its value as read. -/
def GReg.fv (x : GReg) : F32 := F32.of x.raw

/-- Its value, aligned to tag `p`. -/
def GReg.fAlign (p : Bool) (x : GReg) : F32 := if x.tag = p then x.fv else negF x.fv

/-- Write a binary32 result: a zero or a NaN carries tag 0 (R109). -/
def Run.wrF (i : Fin 32) (w : Word) (tag : Bool) (r : Run) : Run := r.wr i w (tag && w != 0 && w != nanWord) true

/-- FADD and FSUB: class L. -/
def opFaddsub (sub : Bool) (gd ga gb : Fin 32) : Op := fun r =>
  let x := r.f ga
  let y := (r.f gb).fAlign x.tag
  let z := addF x.fv (if sub then negF y else y)
  .ok ((r.wrF gd z.1 x.tag).flag z.2)

/-- FMUL: class P. -/
def opFmul (gd ga gb : Fin 32) : Op := fun r =>
  let x := r.f ga
  let y := r.f gb
  let z := outF (mulExact x.fv y.fv)
  .ok ((r.wrF gd z.1 (x.tag != y.tag)).flag z.2)

/-- The value is zero. -/
def F32.isZero : F32 → Bool
  | .fin _ 0 _ => true
  | _ => false

/-- The sign of a value. -/
def F32.neg : F32 → Bool
  | .nan => false
  | .inf n => n
  | .fin n _ _ => n

/-- FDIV: class P. By 0, a non-zero dividend gives infinity with its native sign and tag 0, and DVZ; 0 / 0 and a NaN
dividend give NaN. DVZ stands for every division by zero, 0 / 0 among them (DEDUCED, log entry 16). -/
def opFdiv (gd ga gb : Fin 32) : Op := fun r =>
  let x := r.f ga
  let y := r.f gb
  if y.fv.isZero then
    if x.fv.isZero || x.fv == .nan then .ok ((r.wrF gd nanWord false).flag (fNAN ||| fDVZ))
    else .ok ((r.wrF gd (infWord (x.fAlign false).neg) false).flag fDVZ)
  else
    let z := divF x.fv y.fv
    .ok ((r.wrF gd z.1 (x.tag != y.tag)).flag z.2)

/-- FMA: rounded once; the product is aligned to gd's tag. -/
def opFma (gd ga gb : Fin 32) : Op := fun r =>
  let c := r.f gd
  let x := r.f ga
  let y := r.f gb
  let p0 := mulExact x.fv y.fv
  let p := if (x.tag != y.tag) = c.tag then p0 else negF p0
  let z := addF p.norm c.fv
  .ok ((r.wrF gd z.1 c.tag).flag z.2)

/-- The word of a value without rounding away a sign: subnormals and zeros read as +0, NaN as the one NaN (R109). -/
def F32.word (w : Word) : Word :=
  match F32.of w with
  | .nan => nanWord
  | .fin _ 0 _ => 0
  | _ => w

/-- FNEG: class L. -/
def opFneg (gd ga : Fin 32) : Op := fun r =>
  let x := r.f ga
  .ok (r.wrF gd (F32.word (x.raw ^^^ 0x80000000)) x.tag)

/-- FABS: class E. -/
def opFabs (gd ga : Fin 32) : Op := fun r => .ok (r.wrF gd (F32.word ((r.f ga).raw &&& 0x7FFFFFFF)) false)

/-- FMIN and FMAX: class S, each the other's partner. What they give with a NaN operand R120 does not say: a free value
of the native operands (log entry 17). -/
def opFminmax (isMax : Bool) (gd ga gb : Fin 32) : Op := fun r =>
  let x := r.f ga
  let y := r.f gb
  let yr := if y.tag = x.tag then y.raw else y.raw ^^^ 0x80000000
  let big := isMax != x.tag
  if x.fv = .nan ∨ y.fv = .nan then
    let w := F32.word (Config.minMaxNan isMax x.native y.native)
    let t := x.tag && w != 0 && w != nanWord
    .ok (r.wrF gd (if t then w ^^^ 0x80000000 else w) t)
  else
    let less := ltF x.fv (F32.of yr)
    .ok (r.wrF gd (F32.word (if less = big then yr else x.raw)) x.tag)

/-- FSQRT: class N. -/
def opFsqrt (gd ga : Fin 32) : Op := fun r =>
  let z := sqrtF (F32.of (r.nat ga))
  .ok ((r.wrF gd z.1 false).flag z.2)

/-- FSLT, FSLE and FSEQ: class S, type I. -/
def opFtest (f f' : F32 → F32 → Bool) (gd ga gb : Fin 32) : Op := fun r =>
  let x := r.f ga
  let y := (r.f gb).fAlign x.tag
  .ok (r.wrI gd (if (if x.tag then f' else f) x.fv y then 1 else 0) false)

/-- a ≤ b; false with a NaN. -/
def leF (a b : F32) : Bool := ltF a b || eqF a b

/-- FTOQ: class L, type I. -/
def opFtoq (gd ga : Fin 32) : Op := fun r =>
  let x := r.f ga
  match x.fv with
  | .nan => .ok (r.wrI gd 0 x.tag)
  | .inf n => .ok ((r.wrI gd (if n then -(2 ^ 31 - 1) else 2 ^ 31 - 1) x.tag).flag fSAT)
  | y =>
    let z := satOut ((toIntF 31 false y).getD 0)
    .ok ((r.wrI gd z.1 x.tag).flag z.2)

/-- QTOF: class L with operand type I; R108 does not apply to the FPU. A mirrored 0x8000_0000 is native −2^31, so that the
native result is −1.0 whatever the tag (R113). -/
def opQtof (gd ga : Fin 32) : Op := fun r =>
  let x := (r.g ga).asType false
  let v : Int := if x.tag && x.raw == 0x80000000 then 2 ^ 31 else sval x.raw
  .ok (r.wrF gd (roundZ v (-31)).1 x.tag)

/-- FTOI: class N, type I. -/
def opFtoi (gd ga : Fin 32) : Op := fun r =>
  match F32.of (r.nat ga) with
  | .nan => .ok (r.wrI gd 0 false)
  | .inf n => .ok ((r.wrI gd (if n then -(2 ^ 31 - 1) else 2 ^ 31 - 1) false).flag fSAT)
  | y =>
    let z := satOut ((toIntF 0 true y).getD 0)
    .ok ((r.wrI gd z.1 false).flag z.2)

/-- ITOF: class N with operand type I. -/
def opItof (gd ga : Fin 32) : Op := fun r => .ok (r.wrF gd (roundZ (r.natI ga) 0).1 false)

/-- FADD (R120). -/
def execFadd (e : Fin 16) (gd ga gb : Fin 32) (s : State) : Out := .next (s.rhax e 1 (opFaddsub false gd ga gb))
/-- FSUB (R120). -/
def execFsub (e : Fin 16) (gd ga gb : Fin 32) (s : State) : Out := .next (s.rhax e 1 (opFaddsub true gd ga gb))
/-- FMUL (R120). -/
def execFmul (e : Fin 16) (gd ga gb : Fin 32) (s : State) : Out := .next (s.rhax e 1 (opFmul gd ga gb))
/-- FDIV (R120). -/
def execFdiv (e : Fin 16) (gd ga gb : Fin 32) (s : State) : Out := .next (s.rhax e 1 (opFdiv gd ga gb))
/-- FMA (R120). -/
def execFma (e : Fin 16) (gd ga gb : Fin 32) (s : State) : Out := .next (s.rhax e 1 (opFma gd ga gb))
/-- FNEG (R120). -/
def execFneg (e : Fin 16) (gd ga : Fin 32) (s : State) : Out := .next (s.rhax e 1 (opFneg gd ga))
/-- FABS (R120). -/
def execFabs (e : Fin 16) (gd ga : Fin 32) (s : State) : Out := .next (s.rhax e 1 (opFabs gd ga))
/-- FMIN (R120). -/
def execFmin (e : Fin 16) (gd ga gb : Fin 32) (s : State) : Out := .next (s.rhax e 1 (opFminmax false gd ga gb))
/-- FMAX (R120). -/
def execFmax (e : Fin 16) (gd ga gb : Fin 32) (s : State) : Out := .next (s.rhax e 1 (opFminmax true gd ga gb))
/-- FSQRT (R120). -/
def execFsqrt (e : Fin 16) (gd ga : Fin 32) (s : State) : Out := .next (s.rhax e 1 (opFsqrt gd ga))
/-- FSLT (R120). -/
def execFslt (e : Fin 16) (gd ga gb : Fin 32) (s : State) : Out :=
  .next (s.rhax e 1 (opFtest ltF (fun a b => ltF b a) gd ga gb))
/-- FSLE (R120). -/
def execFsle (e : Fin 16) (gd ga gb : Fin 32) (s : State) : Out :=
  .next (s.rhax e 1 (opFtest leF (fun a b => leF b a) gd ga gb))
/-- FSEQ (R120). -/
def execFseq (e : Fin 16) (gd ga gb : Fin 32) (s : State) : Out := .next (s.rhax e 1 (opFtest eqF eqF gd ga gb))
/-- FTOQ (R120). -/
def execFtoq (e : Fin 16) (gd ga : Fin 32) (s : State) : Out := .next (s.rhax e 1 (opFtoq gd ga))
/-- QTOF (R120). -/
def execQtof (e : Fin 16) (gd ga : Fin 32) (s : State) : Out := .next (s.rhax e 1 (opQtof gd ga))
/-- FTOI (R120). -/
def execFtoi (e : Fin 16) (gd ga : Fin 32) (s : State) : Out := .next (s.rhax e 1 (opFtoi gd ga))
/-- ITOF (R120). -/
def execItof (e : Fin 16) (gd ga : Fin 32) (s : State) : Out := .next (s.rhax e 1 (opItof gd ga))

end Sys2Proof.Machine
end

