-- ==== Sys2Proof/Machine/SegMem.lean ====
section
/-! DEFINITION. Loads and stores of STATE, MBOX and CONST (R121 to R124). -/

namespace Sys2Proof.Machine

/-- A task address that has passed its checks: the segment (0 STATE, 1 MBOX, 2 CONST) and the offset (R122). -/
structure Ea where
  seg : Nat
  off : Nat

/-- The size of a segment. -/
def Task.segSize (t : Task) (seg : Nat) : Nat := [2 ^ t.d.stLog2, 2 ^ t.d.mbLog2, t.d.constLen].getD seg 0

/-- The effective address of an access of `n` bytes, with the checks of R122: segment limits, then alignment, then
kind (the order among them is this model's reading, DEDUCED, log entry 18). -/
def Run.ea (r : Run) (ga : Fin 32) (off : BitVec 16) (n : Nat) (store : Bool) : Except Flt Ea := do
  let a := (r.nat ga + off.signExtend 32).toNat
  let x : Ea := ⟨a / 2 ^ 24, a % 2 ^ 24⟩
  need (decide (x.seg ≤ 2 ∧ x.off + n ≤ r.t.segSize x.seg)) cSEGLIM
  need (x.off % n == 0) cALIGN
  need (!(store && x.seg == 2) && !(decide (n < 4) && x.seg != 2)) cKIND
  return x

/-- The offset in the pass's own copy (R123). -/
def Run.own (r : Run) (x : Ea) : Nat :=
  if r.st.passB then x.off ^^^ (if x.seg = 0 then r.t.maskS else r.t.maskM) else x.off

/-- Where an access lies: the SRAM address, or none in the engine's local memory. -/
def Run.sramOf (r : Run) (x : Ea) : Option Nat :=
  match (if x.seg = 2 then r.t.placeC else r.t.place (x.seg == 1) r.st.passB) with
  | .sram b => some (b + if x.seg = 2 then x.off else r.own x)
  | .localMem => none

/-- An access reads SRAM codewords: those with symbols in error are corrected, or found uncorrectable (R32, R33). -/
def Run.touch (r : Run) (x : Ea) (n : Nat) : Run :=
  match r.sramOf x with
  | some a => { r with s := r.s.sramTouch a n }
  | none => r

/-- The bytes an access reads, or MEMUNC at a poisoned codeword (R33, R134). -/
def Run.bytes (r : Run) (x : Ea) (n : Nat) : Except Flt (List Byte) :=
  let bad := match r.sramOf x with
    | some a => r.s.poisoned a n
    | none => false
  if bad then .error ⟨cMEMUNC, eMEMCHK.toNat, none, (r.sramOf x).map fun a => (a, n)⟩
  else if x.seg = 2 then .ok (r.s.constGet r.t x.off n)
  else .ok (r.s.segGet r.t (x.seg == 1) r.st.passB (r.own x) n)

/-- The tag of a load: 1 in pass B from STATE or MBOX (R124). -/
def Run.loadTag (r : Run) (x : Ea) : Bool := r.st.passB && x.seg != 2

/-- LD32 (type I) and LDF (type F). -/
def opLd (isF : Bool) (gd ga : Fin 32) (off : BitVec 16) : Op := fun r => do
  let x ← r.ea ga off 4 false
  let r1 := r.touch x 4
  let l ← r1.bytes x 4
  return r1.wr gd (BitVec.ofNat 32 (leNat l)) (r.loadTag x) isF

/-- A sub-word load from CONST. -/
def opLdSub (n : Nat) (signed : Bool) (gd ga : Fin 32) (off : BitVec 16) : Op := fun r => do
  let x ← r.ea ga off n false
  let r1 := r.touch x n
  let l ← r1.bytes x n
  let v := leNat l
  return r1.wr gd (if signed then ofInt (sext (8 * n) v) else BitVec.ofNat 32 v) false false

/-- Store bytes into the pass's own copy: the journal keeps the old line at the first store to it (R104), and overflows
beyond 128 lines (R125). The write of a part of an SRAM codeword reads it first (R32). -/
def Run.store (r0 : Run) (x : Ea) (l : List Byte) : Except Flt Run := do
  let r := r0.touch x l.length
  let o := r.own x
  let mb := x.seg == 1
  let p := r.p
  let known := p.journal.any fun j => j.mbox == mb && j.line == o / 32
  need (known || decide (p.journal.length < 128)) cIOLIM
  let j := if known then p.journal
           else p.journal ++ [⟨mb, r.st.passB, o / 32, r.s.segGet r.t mb r.st.passB (o / 32 * 32) 32⟩]
  return { r.setP { p with journal := j } with s := State.segPut r.t.id mb r.st.passB o l r.s }

/-- ST32: pass B writes the mirror of the native value by the source's type (R124). -/
def opSt32 (gd ga : Fin 32) (off : BitVec 16) : Op := fun r => do
  let x ← r.ea ga off 4 true
  let v := r.g gd
  let w := if r.st.passB then mirrorWord v.isF v.native else v.native
  let r1 ← r.store x (leBytes 4 w.toNat)
  return r1.setP (r1.p.noteStore (x.seg == 1) (if v.isF then 1 else 0) x.off v.native.toNat 4)

/-- LDACC: words 0–2 hold A, sign-extended to 96 bits (R124). A unit of −2^71 is outside the accumulator's range and is
clamped as its native value asks (R110, R113). -/
def opLdacc (ad : Fin 8) (ga : Fin 32) (off : BitVec 16) : Op := fun r => do
  let x ← r.ea ga off 16 false
  let r1 := r.touch x 16
  let l ← r1.bytes x 16
  let v := sext 72 (leNat (l.take 9))
  let z := accOut (if r.loadTag x && v == -(2 ^ 71) then 2 ^ 71 else v)
  return (r1.wrA ad z.1 (r.loadTag x)).flag z.2

/-- STACC: pass B writes the 96-bit negation, word 3 is 0. -/
def opStacc (ad : Fin 8) (ga : Fin 32) (off : BitVec 16) : Op := fun r => do
  let x ← r.ea ga off 16 true
  let a := r.a ad
  let v := a.native.toInt
  let r1 ← r.store x (leBytes 12 (codeOf 96 (if r.st.passB then -v else v)) ++ [0, 0, 0, 0])
  return r1.setP (r1.p.noteStore (x.seg == 1) 2 x.off a.native.toNat 9)

/-- LD32 (R121). -/
def execLd32 (e : Fin 16) (gd ga : Fin 32) (off : BitVec 16) (s : State) : Out := .next (s.rhax e 1 (opLd false gd ga off))
/-- LDF (R121). -/
def execLdf (e : Fin 16) (gd ga : Fin 32) (off : BitVec 16) (s : State) : Out := .next (s.rhax e 1 (opLd true gd ga off))
/-- ST32 (R124). -/
def execSt32 (e : Fin 16) (gd ga : Fin 32) (off : BitVec 16) (s : State) : Out := .next (s.rhax e 1 (opSt32 gd ga off))
/-- LD16 (R121). -/
def execLd16 (e : Fin 16) (gd ga : Fin 32) (off : BitVec 16) (s : State) : Out :=
  .next (s.rhax e 1 (opLdSub 2 true gd ga off))
/-- LD16U (R121). -/
def execLd16u (e : Fin 16) (gd ga : Fin 32) (off : BitVec 16) (s : State) : Out :=
  .next (s.rhax e 1 (opLdSub 2 false gd ga off))
/-- LD8U (R121). -/
def execLd8u (e : Fin 16) (gd ga : Fin 32) (off : BitVec 16) (s : State) : Out :=
  .next (s.rhax e 1 (opLdSub 1 false gd ga off))
/-- LDACC (R124). -/
def execLdacc (e : Fin 16) (ad : Fin 8) (ga : Fin 32) (off : BitVec 16) (s : State) : Out :=
  .next (s.rhax e 1 (opLdacc ad ga off))
/-- STACC (R124). -/
def execStacc (e : Fin 16) (ad : Fin 8) (ga : Fin 32) (off : BitVec 16) (s : State) : Out :=
  .next (s.rhax e 1 (opStacc ad ga off))

end Sys2Proof.Machine
end

