-- ==== Sys2Proof/Machine/AbsQueue.lean ====
section
/-! DEFINITION. Absolute loads and stores (R125 to R128), the queue instructions (R129), and the absolute long forms
(R133). -/

namespace Sys2Proof.Machine

/-- Keys of the input log: an LDA address, a QLEN, a QRDW. -/
def keyLen (q : Nat) : Nat := 2 ^ 33 + q
def keyWord (q k : Nat) : Nat := 2 ^ 34 + 64 * q + k

/-- Take the next entry of the input log (R125, R178): its value, or the fault that was logged there (R127). A 33rd entry
does not exist in either pass. -/
def Run.replay (r : Run) (key : Nat) : Except Flt (LogEntry × Run) := do
  need (decide (r.p.logPos < 32)) cIOLIM
  match r.st.log[r.p.logPos]? with
  | none => .error (flt cSPLIT)
  | some x =>
    if x.key ≠ key then .error (flt cSPLIT)
    else
      match x.fault with
      | some (c, e) => .error ⟨c, e, none, none⟩
      | none => .ok (x, r.setP { r.p with logPos := r.p.logPos + 1 })

/-- Add an entry to the input log in pass A: 32 at most. -/
def Run.record (r : Run) (x : LogEntry) : Except Flt Run := do
  need (decide (r.st.log.length < 32)) cIOLIM
  return { r.setP { r.p with logPos := r.p.logPos + 1 } with st := { r.st with log := r.st.log ++ [x], cur := { r.p with logPos := r.p.logPos + 1 } } }

/-- A replayed entry of a step restarted on another engine: entries the step had kept are taken in pass A too (R178). -/
def Run.kept (r : Run) : Bool := r.st.passB || decide (r.p.logPos < r.st.log.length)

/-- The word an LDA reads in pass A, the high half it latches, and the machine after it (R101, R128). -/
def Run.liveLoad (r : Run) (a : Nat) : Except Code (Word × Option Word × Run) := do
  match windowOf a with
  | some _ => if a % 4 ≠ 0 then .error eALIGN else return (r.s.windowWord a, none, r)
  | none =>
    let v ← r.s.absWord a
    let r1 := if freeArea a then { r with s := r.s.used } else r
    match regAt a with
    | none => return (v, none, r1)
    | some (g, k) =>
      match highOf g, pairOf g k with
      | some h, some (lo, _) =>
        let w := r.s.regRead h k
        return (v, some w, r1.setP { r1.p with shadow := some (lo, w) })
      | none, some (lo, true) =>
        match r1.p.shadow with
        | some (x, w) =>
          if x = lo then return (w, none, r1)
          else return (v, none, { r1 with s := r1.s.pbit SYS.RDSTAT_ETORN 0 r.e true })
        | none => return (v, none, { r1 with s := r1.s.pbit SYS.RDSTAT_ETORN 0 r.e true })
      | _, _ => return (v, none, r1)

/-- LDA reads shared SRAM: the codeword is corrected, or found uncorrectable (R32, R33). -/
def Run.ldaTouch (r : Run) (a : Nat) : Run := if a < sramEnd then { r with s := r.s.sramTouch a 4 } else r

/-- LDA of address `a` into gd. The faults come in the order WINDOW, IOLIM, ABSREF or MEMUNC (DESIGN CHOICE, log entry
104). -/
def opLdaAt (gd : Fin 32) (a : Nat) : Op := fun r => do
  need (match windowOf a with
    | some n => n == r.e
    | none => true) cWINDOW
  if r.kept then
    let (x, r1) ← r.replay a
    -- a restarted pass A rebuilds its shadow from the entry (R128)
    let r2 := match x.high with
      | some w => if r1.st.passB then r1 else r1.setP { r1.p with shadow := some (a, w) }
      | none => r1
    return r2.wr gd x.value false false
  else
    need (decide (r.st.log.length < 32)) cIOLIM
    match (r.ldaTouch a).liveLoad a with
    | .error c =>
      let k := if c = eMEMCHK then cMEMUNC else cABSREF
      .error ⟨k, c.toNat, some ⟨a, 0, none, some (k, c.toNat)⟩, if c = eMEMCHK then some (a, 4) else none⟩
    | .ok (v, h, r1) =>
      let r2 ← r1.record ⟨a, v, h, none⟩
      return r2.wr gd v false false

/-- Outputs counted under R125. -/
def OutItem.abs : OutItem → Bool
  | .sta .. => true
  | .qwrw .. => true
  | .qpush .. => true
  | .qpop .. => true
  | _ => false

/-- Record one of the 32 outputs of R125. -/
def Run.outAbs (r : Run) (x : OutItem) : Except Flt Run := do
  need (decide (r.countOuts OutItem.abs < 32)) cIOLIM
  return r.out x

/-- STA of native `ga` to address `a`: setup tasks only. The faults come in the order PRIV, WINDOW, IOLIM (DESIGN CHOICE,
log entry 104). -/
def opStaAt (ga : Fin 32) (a : Word) : Op := fun r => do
  need (r.t.d.kind == 1) cPRIV
  need (match windowOf a.toNat with
    | some n => n == r.e
    | none => true) cWINDOW
  r.outAbs (.sta a (r.nat ga))

/-- The absolute address of LDA and STA. -/
def Run.absEa (r : Run) (ga : Fin 32) (off : BitVec 16) : Word := r.nat ga + off.signExtend 32

/-- The direction a task declared for queue `q`: true to produce. -/
def Run.queue (r : Run) (q : Nat) : Option Bool := (r.t.d.que.find? fun x => x.1 == q).map (·.2)

/-- QPOPs or QPUSHes of queue `q` in the pass so far. -/
def Run.moves (r : Run) (q : Nat) : Nat :=
  r.countOuts fun x => x == .qpop q || x == .qpush q

/-- QLEN: entries, or free entries, at step start less the step's own moves. -/
def opQlen (gd q : Fin 32) : Op := fun r => do
  need (r.queue q.val).isSome cQRANGE
  if r.kept then
    let (x, r1) ← r.replay (keyLen q.val)
    return r1.wr gd x.value false false
  else
    let v := BitVec.ofNat 32 ((assocGet r.st.levels q.val).getD 0) - BitVec.ofNat 32 (r.moves q.val)
    let r1 ← r.record ⟨keyLen q.val, v, none, none⟩
    return r1.wr gd v false false

/-- QRDW: word `k` of the entry at QHEAD plus the step's QPOPs. A poisoned codeword gives its bytes as they stand: R134
names MEMUNC for LDA and for segment loads alone (DESIGN CHOICE, log entry 106). -/
def opQrdw (gd q k : Fin 32) : Op := fun r => do
  need (r.queue q.val == some false && decide (4 * k.val < r.s.qSize q.val)
    && decide (r.moves q.val < (assocGet r.st.levels q.val).getD 0)) cQRANGE
  if r.kept then
    let (x, r1) ← r.replay (keyWord q.val k.val)
    return r1.wr gd x.value false false
  else
    let a := r.s.qAddr q.val ((r.s.word QUE.QHEAD q.val).toNat + r.moves q.val) + 4 * k.val
    let v := wordAt r.s.sram a
    let r1 ← (r.ldaTouch a).record ⟨keyWord q.val k.val, v, none, none⟩
    return r1.wr gd v false false

/-- QPOP. -/
def opQpop (q : Fin 32) : Op := fun r => do
  need (r.queue q.val == some false) cQRANGE
  r.outAbs (.qpop q.val)

/-- QWRW. -/
def opQwrw (q k ga : Fin 32) : Op := fun r => do
  need (r.queue q.val == some true && decide (4 * k.val < r.s.qSize q.val)) cQRANGE
  r.outAbs (.qwrw q.val k.val (r.nat ga))

/-- QPUSH. -/
def opQpush (q : Fin 32) : Op := fun r => do
  need (r.queue q.val == some true) cQRANGE
  r.outAbs (.qpush q.val)

/-- LDA (R125). -/
def execLda (e : Fin 16) (gd ga : Fin 32) (off : BitVec 16) (s : State) : Out :=
  .next (s.rhax e 1 fun r => opLdaAt gd (r.absEa ga off).toNat r)
/-- STA (R125): gd is the source. -/
def execSta (e : Fin 16) (gd ga : Fin 32) (off : BitVec 16) (s : State) : Out :=
  .next (s.rhax e 1 fun r => opStaAt gd (r.absEa ga off) r)
/-- LDAL (R133). -/
def execLdal (e : Fin 16) (gd : Fin 32) (imm : Word) (s : State) : Out := .next (s.rhax e 2 (opLdaAt gd imm.toNat))
/-- STAL (R133). -/
def execStal (e : Fin 16) (ga : Fin 32) (imm : Word) (s : State) : Out := .next (s.rhax e 2 (opStaAt ga imm))
/-- QLEN (R129). -/
def execQlen (e : Fin 16) (gd q : Fin 32) (s : State) : Out := .next (s.rhax e 1 (opQlen gd q))
/-- QRDW (R129). -/
def execQrdw (e : Fin 16) (gd q k : Fin 32) (s : State) : Out := .next (s.rhax e 1 (opQrdw gd q k))
/-- QPOP (R129). -/
def execQpop (e : Fin 16) (q : Fin 32) (s : State) : Out := .next (s.rhax e 1 (opQpop q))
/-- QWRW (R129). -/
def execQwrw (e : Fin 16) (q k ga : Fin 32) (s : State) : Out := .next (s.rhax e 1 (opQwrw q k ga))
/-- QPUSH (R129). -/
def execQpush (e : Fin 16) (q : Fin 32) (s : State) : Out := .next (s.rhax e 1 (opQpush q))

end Sys2Proof.Machine
end

