-- ==== Sys2Proof/Machine/Control.lean ====
section
/-! DEFINITION. Branches, jumps, loops and the SYS instructions (R130 to R132). -/

namespace Sys2Proof.Machine

/-- A signed branch: class S, with its partner where the first tag is 1. -/
def opBranch (f f' : Int → Int → Bool) (ga gb : Fin 32) (off : BitVec 16) : Op := fun r =>
  let x := (r.g ga).q
  let y := (r.g gb).q
  let r1 := r.flag (satFlag [x, y])
  if (if x.tag then f' else f) x.v (y.align x.tag) then r1.jumpTo (r.here + 4 * off.toInt) else .ok r1

/-- An unsigned branch: class N. -/
def opBranchU (f : Nat → Nat → Bool) (ga gb : Fin 32) (off : BitVec 16) : Op := fun r =>
  if f (r.nat ga).toNat (r.nat gb).toNat then r.jumpTo (r.here + 4 * off.toInt) else .ok r

/-- The comparison with zero of a condition code; none for an undefined one (R130). -/
def bzcTest : Nat → Option (Int → Bool)
  | 0 => some fun x => x == 0
  | 1 => some fun x => x != 0
  | 2 => some fun x => decide (x < 0)
  | 3 => some fun x => decide (0 ≤ x)
  | 4 => some fun x => decide (0 < x)
  | 5 => some fun x => decide (x ≤ 0)
  | _ => none

/-- The partner of a condition code: LTZ with GTZ, GEZ with LEZ. -/
def bzcPartner : Nat → Nat
  | 2 => 4
  | 3 => 5
  | 4 => 2
  | 5 => 3
  | n => n

/-- BZC. -/
def opBzc (ga : Fin 32) (cc : Nat) (off : BitVec 16) : Op := fun r =>
  let x := (r.g ga).q
  match bzcTest (if x.tag then bzcPartner cc else cc) with
  | none => .error (flt cILLOP)
  | some f =>
    let r1 := r.flag (satFlag [x])
    if f x.v then r1.jumpTo (r.here + 4 * off.toInt) else .ok r1

/-- JMP. -/
def opJmp (off : BitVec 26) : Op := fun r => r.jumpTo (r.here + 4 * off.toInt)

/-- CALL: g31 gets the address of the next instruction, with tag 0. -/
def opCall (off : BitVec 26) : Op := fun r => do
  let r1 ← r.jumpTo (r.here + 4 * off.toInt)
  return r1.wr 31 (ofInt (r.here + 4)) false false

/-- JR, and RET with g31: a jump to a native address. -/
def opJr (ga : Fin 32) : Op := fun r => r.jumpTo (r.nat ga).toNat

/-- The major opcodes that may not end a loop body: branches, jumps, LOOP, SYS and the long form (R131). -/
def endsLoop (w : Nat) : Bool :=
  let m := bits w 26 6
  decide (0x20 ≤ m ∧ m ≤ 0x2B ∧ m ≠ 0x27) || m == 0x3E

/-- LOOP (R131). With several defects the fault is the first of ILLOP, CODELIM and LOOPERR (DESIGN CHOICE, log entry
104). -/
def opLoop (lv : Bool) (cnt : LoopCount) (len : BitVec 12) : Op := fun r => do
  let p := r.p
  let n := match cnt with
    | .imm c => c.toNat
    | .reg ga => (r.nat ga).toNat
  let first := p.pc + 1
  let stop := first + len.toNat
  let seconds := longSeconds false 0 r.t.code
  need (len != 0) cILLOP
  need (!(longSeconds false 0 (r.t.code ++ [0])).contains stop) cCODELIM
  need (if lv then p.lc1.isNone && (match p.lc0 with
      | some o => decide (stop ≤ o.stop)
      | none => false)
    else p.lc0.isNone) cLOOPERR
  need (!(stop - 1 ∈ seconds) && !endsLoop (r.t.code.getD (stop - 1) 0).toNat) cLOOPERR
  if n = 0 then return { r with goto := some stop }
  else
    let l : LoopReg := ⟨n, first, stop⟩
    let q := if lv then { p with lc1 := some l } else { p with lc0 := some l }
    return r.setP (q.note (if lv then 42 else 41) 3 n 4)

/-- The value of a special register (R106). -/
def Run.special (r : Run) : Nat → Option Word
  | 0 => some r.p.stw
  | 1 => some (BitVec.ofNat 32 ((r.p.lc0.map (·.left)).getD 0))
  | 2 => some (BitVec.ofNat 32 ((r.p.lc1.map (·.left)).getD 0))
  | 3 => some (BitVec.ofNat 32 r.t.id)
  | 4 => some (BitVec.ofNat 32 r.st.tick)
  | 5 => some (BitVec.ofNat 32 (r.st.tick / 2 ^ 32))
  | 6 => some r.t.stepn
  | 7 => some r.st.period
  | 8 => some r.t.astat
  | _ => none

/-- MFS. -/
def opMfs (gd gc : Fin 32) : Op := fun r =>
  match r.special gc.val with
  | some w => .ok (r.wr gd w false false)
  | none => .error (flt cILLOP)

/-- MTS: only STW, and only its five flags. -/
def opMts (gc ga : Fin 32) : Op := fun r => do
  need (gc.val == 0 && decide ((r.nat ga).toNat < 32)) cILLOP
  return r.putStw (r.nat ga)

/-- STWCLR. -/
def opStwclr (gc : Fin 32) : Op := fun r => .ok (r.putStw (r.p.stw &&& ~~~(BitVec.ofNat 32 gc.val)))

/-- TRAP. -/
def opTrap (gc : Fin 32) : Op := fun _ => .error { flt cTRAP with err := gc.val }

/-- STEPEND ends the pass. -/
def opStepend : Op := fun r => .ok (r.setP { r.p with ended := true })

/-- BEQ (R130). -/
def execBeq (e : Fin 16) (ga gb : Fin 32) (off : BitVec 16) (s : State) : Out :=
  .next (s.rhax e 1 (opBranch (fun a b => a == b) (fun a b => a == b) ga gb off))
/-- BNE (R130). -/
def execBne (e : Fin 16) (ga gb : Fin 32) (off : BitVec 16) (s : State) : Out :=
  .next (s.rhax e 1 (opBranch (fun a b => a != b) (fun a b => a != b) ga gb off))
/-- BLT (R130). -/
def execBlt (e : Fin 16) (ga gb : Fin 32) (off : BitVec 16) (s : State) : Out :=
  .next (s.rhax e 1 (opBranch (fun a b => decide (a < b)) (fun a b => decide (b < a)) ga gb off))
/-- BGE (R130). -/
def execBge (e : Fin 16) (ga gb : Fin 32) (off : BitVec 16) (s : State) : Out :=
  .next (s.rhax e 1 (opBranch (fun a b => decide (b ≤ a)) (fun a b => decide (a ≤ b)) ga gb off))
/-- BLTU (R130). -/
def execBltu (e : Fin 16) (ga gb : Fin 32) (off : BitVec 16) (s : State) : Out :=
  .next (s.rhax e 1 (opBranchU (fun a b => decide (a < b)) ga gb off))
/-- BGEU (R130). -/
def execBgeu (e : Fin 16) (ga gb : Fin 32) (off : BitVec 16) (s : State) : Out :=
  .next (s.rhax e 1 (opBranchU (fun a b => decide (b ≤ a)) ga gb off))
/-- BZC (R130). -/
def execBzc (e : Fin 16) (ga cc : Fin 32) (off : BitVec 16) (s : State) : Out := .next (s.rhax e 1 (opBzc ga cc.val off))
/-- JMP (R130). -/
def execJmp (e : Fin 16) (off : BitVec 26) (s : State) : Out := .next (s.rhax e 1 (opJmp off))
/-- CALL (R130). -/
def execCall (e : Fin 16) (off : BitVec 26) (s : State) : Out := .next (s.rhax e 1 (opCall off))
/-- LOOP (R131). -/
def execLoop (e : Fin 16) (lv : Bool) (cnt : LoopCount) (len : BitVec 12) (s : State) : Out :=
  .next (s.rhax e 1 (opLoop lv cnt len))
/-- NOP (R132): no operation. -/
def execNop (e : Fin 16) (s : State) : Out := .next (s.rhax e 1 fun r => .ok r)
/-- STEPEND (R132). -/
def execStepend (e : Fin 16) (s : State) : Out := .next (s.rhax e 1 opStepend)
/-- MFS (R132). -/
def execMfs (e : Fin 16) (gd gc : Fin 32) (s : State) : Out := .next (s.rhax e 1 (opMfs gd gc))
/-- MTS (R132). -/
def execMts (e : Fin 16) (gc ga : Fin 32) (s : State) : Out := .next (s.rhax e 1 (opMts gc ga))
/-- STWCLR (R132). -/
def execStwclr (e : Fin 16) (gc : Fin 32) (s : State) : Out := .next (s.rhax e 1 (opStwclr gc))
/-- FENCE (R132): every earlier load has completed, since instructions run in order. -/
def execFence (e : Fin 16) (s : State) : Out := .next (s.rhax e 1 fun r => .ok r)
/-- TRAP (R132). -/
def execTrap (e : Fin 16) (gc : Fin 32) (s : State) : Out := .next (s.rhax e 1 (opTrap gc))
/-- RET (R132). -/
def execRet (e : Fin 16) (s : State) : Out := .next (s.rhax e 1 (opJr 31))
/-- JR (R132). -/
def execJr (e : Fin 16) (ga : Fin 32) (s : State) : Out := .next (s.rhax e 1 (opJr ga))

end Sys2Proof.Machine
end

