-- ==== Sys2Proof/Machine/Field.lean ====
section
/-! DEFINITION. The field-control instructions (R137 to R146). -/

namespace Sys2Proof.Machine

/-- 1/√3 with 40 fractional bits (R139). -/
def invRoot3 : Int := 634803334274

/-- √3/2 with 40 fractional bits (R139). -/
def halfRoot3 : Int := 952205001410

/-- Groups of na sources at ga, nb at gb and nd results at gd stay inside g1–g31 (R137). -/
def Run.group (ga na gb nb gd nd : Nat) : Except Flt Unit :=
  need (decide (ga + na ≤ 32 ∧ gb + nb ≤ 32 ∧ gd + nd ≤ 32 ∧ gd ≠ 0)) cILLOP

/-- `n` Q1.31 sources from `i`. -/
def Run.srcs (r : Run) (i n : Nat) : List Src := (List.range n).map fun k => (r.gi (i + k)).q

/-- The aligned values of sources: all to the tag of the first (class L). -/
def alignAll (l : List Src) : List Int :=
  match l with
  | [] => []
  | x :: _ => l.map (·.align x.tag)

/-- The tag of the first source. -/
def firstTag (l : List Src) : Bool :=
  match l with
  | [] => false
  | x :: _ => x.tag

/-- Write a group of results with tag `p`, in ascending order. -/
def Run.wrGroup (i : Nat) (p : Bool) (l : List Int) (r : Run) : Run :=
  ((List.range l.length).zip l).foldl (fun r x => r.wrI (i + x.1) x.2 p) r

/-- Saturate results with SAT. -/
def satAll (l : List Int) : List Int × Word :=
  (l.map sat31, flagIf (l.any fun x => sat31 x != x) fSAT)

/-- A linear transform of `n` sources to saturated results with the first source's tag. -/
def opLinear (n m : Nat) (f : List Int → List Int) (gd ga : Fin 32) : Op := fun r => do
  Run.group ga n 0 0 gd m
  let src := r.srcs ga n
  let z := satAll (f (alignAll src))
  return (r.wrGroup gd (firstTag src) z.1).flag (z.2 ||| satFlag src)

/-- CLARKE (R141). -/
def clarkeOf (l : List Int) : List Int :=
  let a := l.getD 0 0
  let b := l.getD 1 0
  let c := l.getD 2 0
  [rndDiv (2 * a - b - c) 3, rndDiv ((b - c) * invRoot3) (2 ^ 40), rndDiv (a + b + c) 3]

/-- CLARKE2 (R141). -/
def clarke2Of (l : List Int) : List Int :=
  let a := l.getD 0 0
  [a, rndDiv ((a + 2 * l.getD 1 0) * invRoot3) (2 ^ 40)]

/-- The phase voltages of R141 and R144 with 40 more fractional bits. -/
def phases (a b : Int) : List Int :=
  [2 ^ 40 * a, -(2 ^ 39 * a) + halfRoot3 * b, -(2 ^ 39 * a) - halfRoot3 * b]

/-- ICLARKE (R141). -/
def iclarkeOf (l : List Int) : List Int := (phases (l.getD 0 0) (l.getD 1 0)).map fun x => rndDiv x (2 ^ 40)

/-- The angle operand: raw code, and its native sine and cosine (R138). -/
def Run.angle (r : Run) (i : Nat) : Int × Int × Bool :=
  let x := (r.gi i).asType false
  (if x.tag then -sinCode x.raw else sinCode x.raw, cosCode x.raw, x.tag)

/-- PARK and IPARK (R142). -/
def opPark (inverse : Bool) (gd ga gb : Fin 32) : Op := fun r => do
  Run.group ga 2 0 0 gd 2
  let src := r.srcs ga 2
  let l := alignAll src
  let (sn, cs, _) := r.angle gb
  let x := l.getD 0 0
  let y := l.getD 1 0
  let u := if inverse then x * cs - y * sn else x * cs + y * sn
  let v := if inverse then x * sn + y * cs else -(x * sn) + y * cs
  let z := satAll [rndDiv u (2 ^ 31), rndDiv v (2 ^ 31)]
  return (r.wrGroup gd (firstTag src) z.1).flag (z.2 ||| satFlag src)

/-- SINCOS (R143): the sine of the raw angle carries its tag, the cosine none. -/
def opSincos (gd ga : Fin 32) : Op := fun r => do
  Run.group ga 1 0 0 gd 2
  let x := (r.gi ga).asType false
  return (r.wrI gd (sinCode x.raw) x.tag).wrI (gd + 1) (cosCode x.raw) false

/-- VEC (R143). -/
def opVec (gd ga : Fin 32) : Op := fun r => do
  Run.group ga 2 0 0 gd 2
  let src := r.srcs ga 2
  let l := alignAll src
  let x := l.getD 0 0
  let y := l.getD 1 0
  let m := satOut (rndSqrt (x * x + y * y).toNat)
  let a := if x = 0 ∧ y = 0 then (0 : Word)
           else atanCode y x + (if firstTag src then 0x80000000 else 0)
  return ((r.wrI gd m.1 false).wr (gd.val + 1) a false false).flag (m.2 ||| satFlag src)

/-- ANGADD (R138, R140): wrapping, with the first angle's tag. -/
def opAngadd (gd ga gb : Fin 32) : Op := fun r => do
  Run.group 0 0 0 0 gd 1
  let x := (r.g ga).asType false
  let y := (r.g gb).asType false
  return r.wr gd (x.raw + (if x.tag = y.tag then y.raw else -y.raw)) x.tag false

/-- SVM7 and SVM5 (R144). -/
def opSvm (five : Bool) (gd ga : Fin 32) : Op := fun r => do
  Run.group ga 2 0 0 gd 3
  let src := r.srcs ga 2
  let l := alignAll src
  let v := phases (l.getD 0 0) (l.getD 1 0)
  let hi := v.foldl max (v.getD 0 0)
  let lo := v.foldl min (v.getD 0 0)
  let span := hi - lo
  let wide := decide (2 ^ 71 < span)
  -- the phase of largest magnitude, the lowest of equals
  let j := v.foldl (fun b x => if absI b < absI x then x else b) (v.getD 0 0)
  let off := if five then 2 * j else hi + lo
  let rail : Int := if five then sgnI j else 0
  let u := v.map fun x =>
    sat31 (if wide then rndDiv (2 ^ 31 * (2 * x - off) + rail * 2 ^ 31 * span) span
           else rndDiv (2 * x - off + rail * 2 ^ 71) (2 ^ 40))
  return (r.wrGroup gd (firstTag src) u).flag (flagIf wide fCLIP ||| satFlag src)

/-- |x|·L/√n rounded half away from zero, with the sign of x. -/
def scaleTo (x : Int) (lim n : Nat) : Int :=
  let a := x.natAbs * lim
  sgnI x * (((isqrt (4 * a * a / n) + 1) / 2 : Nat) : Int)

/-- LIM2 and LIM2D (R145). -/
def opLim2 (dFirst : Bool) (gd ga gb : Fin 32) : Op := fun r => do
  Run.group ga 2 0 0 gd 2
  let src := r.srcs ga 2
  let l := alignAll src
  let x := l.getD 0 0
  let y := l.getD 1 0
  let g := (r.g gb).qNative
  let lim := g.v.natAbs
  let n := (x * x + y * y).toNat
  let out : List Int :=
    if dFirst then
      let d := clampI (-lim) lim x
      let q : Int := isqrt (lim * lim - (d * d).toNat)
      [d, clampI (-q) q y]
    else if n ≤ lim * lim then [x, y]
    else [scaleTo x lim n, scaleTo y lim n]
  let clip := if dFirst then out != [x, y] else decide (lim * lim < n)
  return (r.wrGroup gd (firstTag src) out).flag (flagIf clip fCLIP ||| satFlag (src ++ [g]))

/-- PIDQ (R146). -/
def opPidq (gd ga gb : Fin 32) (ad : Fin 8) (sh : BitVec 2) : Op := fun r => do
  Run.group ga 2 gb 4 gd 1
  let src := r.srcs ga 2
  let l := alignAll src
  let p := firstTag src
  let gains := (List.range 4).map fun k => (r.gi (gb + k)).qNative
  let gain := fun (k : Nat) => (gains.map (·.v)).getD k 0
  let e := l.getD 0 0
  let k : Int := 2 ^ [0, 2, 4, 8].getD sh.toNat 0
  let lim := absI (gain 3)
  let pp := gain 0 * e
  let jj := gain 1 * e
  let dd := gain 2 * sat31 (e - l.getD 1 0)
  let i0 := (r.a ad).align p
  let lm := lim * 2 ^ 31
  let v := k * (pp + i0 + jj + dd)
  let frozen := decide (lm < absI v) && sgnI jj != 0 && sgnI jj == sgnI v
  let i1 := if frozen then i0 else i0 + jj
  let c1 := clipOut (lm / k) i1
  let u := clipOut lim (rndDiv (k * (pp + c1.1 + dd)) (2 ^ 31))
  let a := accOut c1.1
  return ((r.wrI gd u.1 p).wrA ad a.1 p).flag (c1.2 ||| u.2 ||| a.2 ||| satFlag (src ++ gains))

/-- CLARKE (R141). -/
def execClarke (e : Fin 16) (gd ga : Fin 32) (s : State) : Out := .next (s.rhax e 1 (opLinear 3 3 clarkeOf gd ga))
/-- CLARKE2 (R141). -/
def execClarke2 (e : Fin 16) (gd ga : Fin 32) (s : State) : Out := .next (s.rhax e 1 (opLinear 2 2 clarke2Of gd ga))
/-- ICLARKE (R141). -/
def execIclarke (e : Fin 16) (gd ga : Fin 32) (s : State) : Out := .next (s.rhax e 1 (opLinear 2 3 iclarkeOf gd ga))
/-- PARK (R142). -/
def execPark (e : Fin 16) (gd ga gb : Fin 32) (s : State) : Out := .next (s.rhax e 1 (opPark false gd ga gb))
/-- IPARK (R142). -/
def execIpark (e : Fin 16) (gd ga gb : Fin 32) (s : State) : Out := .next (s.rhax e 1 (opPark true gd ga gb))
/-- SINCOS (R143). -/
def execSincos (e : Fin 16) (gd ga : Fin 32) (s : State) : Out := .next (s.rhax e 1 (opSincos gd ga))
/-- VEC (R143). -/
def execVec (e : Fin 16) (gd ga : Fin 32) (s : State) : Out := .next (s.rhax e 1 (opVec gd ga))
/-- ANGADD (R140). -/
def execAngadd (e : Fin 16) (gd ga gb : Fin 32) (s : State) : Out := .next (s.rhax e 1 (opAngadd gd ga gb))
/-- SVM7 (R144). -/
def execSvm7 (e : Fin 16) (gd ga : Fin 32) (s : State) : Out := .next (s.rhax e 1 (opSvm false gd ga))
/-- SVM5 (R144). -/
def execSvm5 (e : Fin 16) (gd ga : Fin 32) (s : State) : Out := .next (s.rhax e 1 (opSvm true gd ga))
/-- LIM2 (R145). -/
def execLim2 (e : Fin 16) (gd ga gb : Fin 32) (s : State) : Out := .next (s.rhax e 1 (opLim2 false gd ga gb))
/-- LIM2D (R145). -/
def execLim2d (e : Fin 16) (gd ga gb : Fin 32) (s : State) : Out := .next (s.rhax e 1 (opLim2 true gd ga gb))
/-- PIDQ (R146). -/
def execPidq (e : Fin 16) (gd ga gb : Fin 32) (ad : Fin 8) (sh : BitVec 2) (s : State) : Out :=
  .next (s.rhax e 1 (opPidq gd ga gb ad sh))

end Sys2Proof.Machine
end

