-- ==== Sys2Proof/Machine/FieldIo.lean ====
section
/-! DEFINITION. The I/O instructions (R147 to R153). -/

namespace Sys2Proof.Machine

/-- A frame entry that the task does not have: the code scan keeps such an instruction out (R162). -/
def fltAbsent : Flt := flt 0

/-- Frame-entry kinds that pass B mirrors (R160). -/
def mirroredKind (k : Nat) : Bool := decide (k ≤ 8)

/-- Entry `k` of the step's captured frame. -/
def Run.entry (r : Run) (k : Fin 32) : Except Flt FrameVal :=
  match r.st.frame[k.val]? with
  | some x => .ok x
  | none => .error fltAbsent

/-- SMPGET (R149). -/
def opSmpget (gd k : Fin 32) : Op := fun r => do
  let x ← r.entry k
  let m := r.st.passB && mirroredKind (r.t.d.smp.getD k.val (0, 0)).1
  return r.wr gd (if m then -x.value else x.value) m false

/-- SMPFLG (R149). -/
def opSmpflg (gd k : Fin 32) : Op := fun r => do
  let x ← r.entry k
  return r.wr gd x.flags false false

/-- SMPSTMP (R147). -/
def opSmpstmp (gd k : Fin 32) : Op := fun r => do
  let x ← r.entry k
  return r.wr gd (BitVec.ofNat 32 x.stamp) false false

/-- The task is of class F, of class M, or a setup task (R148). -/
def Run.isF (r : Run) : Bool := r.t.d.kind == 0 && r.t.d.cls == 0
def Run.isM (r : Run) : Bool := r.t.d.kind == 0 && r.t.d.cls == 1
def Run.isSetup (r : Run) : Bool := r.t.d.kind == 1

/-- The output group exists. -/
def Run.hasGroup (r : Run) (k : Fin 32) : Except Flt Unit :=
  if k.val < r.t.d.out.length then .ok () else .error fltAbsent

/-- PWM-group outputs: 16 in a step (R151). -/
def OutItem.pwm : OutItem → Bool
  | .pwm3 .. => true
  | .pwm1 .. => true
  | .pwmoff .. => true
  | .pwmtrim .. => true
  | _ => false

/-- FLTSET and EVRAISE outputs: 16 in a step together. -/
def OutItem.faultEvent : OutItem → Bool
  | .fltset .. => true
  | .evraise .. => true
  | _ => false

/-- TLMPUT outputs: 32 in a step. -/
def OutItem.telem : OutItem → Bool
  | .tlmput .. => true
  | _ => false

/-- The SAT flag of leg commands. -/
def legFlag (l : List Word) : Word := flagIf (l.any (· == 0x80000000)) fSAT

/-- An output of the PWM group: class F only, at most 16. -/
def Run.pwmOut (r : Run) (k : Fin 32) (x : OutItem) (f : Word) : Except Flt Run := do
  need r.isF cPRIV
  r.hasGroup k
  need (decide (r.countOuts OutItem.pwm < 16)) cIOLIM
  return (r.out x).flag f

/-- PWM3 (R150). -/
def opPwm3 (ga k : Fin 32) : Op := fun r => do
  need (decide (ga.val ≤ 29)) cILLOP
  let l := [(r.gi ga).native, (r.gi (ga + 1)).native, (r.gi (ga + 2)).native]
  r.pwmOut k (.pwm3 k (l.getD 0 0) (l.getD 1 0) (l.getD 2 0)) (legFlag l)

/-- PWM1 (R150); a leg the group does not have is kept out by the code scan. -/
def opPwm1 (ga k leg : Fin 32) : Op := fun r => do
  if 3 ≤ leg.val then .error fltAbsent
  r.pwmOut k (.pwm1 k leg (r.nat ga)) (legFlag [r.nat ga])

/-- PWMOFF (R150). -/
def opPwmoff (k : Fin 32) : Op := fun r => r.pwmOut k (.pwmoff k) 0

/-- PWMTRIM (R150): CLIP where the trim is clipped to ±255 units; the output carries the native operand (R186). -/
def opPwmtrim (ga k sw : Fin 32) : Op := fun r => do
  if !r.s.hasSwitch (r.t.d.out.getD k.val (0, false)) sw then .error fltAbsent
  r.pwmOut k (.pwmtrim k sw (r.nat ga)) (clipOut 255 (r.natI ga)).2

/-- FLTSET (R152): classes F and M. -/
def opFltset (ga k code : Fin 32) : Op := fun r => do
  need (decide (code.val ≤ 3)) cILLOP
  need (r.isF || r.isM) cPRIV
  r.hasGroup k
  need (decide (r.countOuts OutItem.faultEvent < 16)) cIOLIM
  return r.out (.fltset k code (r.nat ga))

/-- EVRAISE (R153): every class. -/
def opEvraise (ga k : Fin 32) : Op := fun r => do
  if r.t.d.evt.length ≤ k.val then .error fltAbsent
  need (decide (r.countOuts OutItem.faultEvent < 16)) cIOLIM
  return r.out (.evraise k (r.nat ga))

/-- TLMPUT (R153): every class but setup tasks. -/
def opTlmput (ga k : Fin 32) : Op := fun r => do
  need (!r.isSetup) cPRIV
  if r.t.d.tlm.length ≤ k.val then .error fltAbsent
  need (decide (r.countOuts OutItem.telem < 32)) cIOLIM
  return r.out (.tlmput k (r.nat ga))

/-- SMPGET (R149). -/
def execSmpget (e : Fin 16) (gd k : Fin 32) (s : State) : Out := .next (s.rhax e 1 (opSmpget gd k))
/-- SMPFLG (R149). -/
def execSmpflg (e : Fin 16) (gd k : Fin 32) (s : State) : Out := .next (s.rhax e 1 (opSmpflg gd k))
/-- SMPSTMP (R147). -/
def execSmpstmp (e : Fin 16) (gd k : Fin 32) (s : State) : Out := .next (s.rhax e 1 (opSmpstmp gd k))
/-- PWM3 (R150). -/
def execPwm3 (e : Fin 16) (ga k : Fin 32) (s : State) : Out := .next (s.rhax e 1 (opPwm3 ga k))
/-- PWM1 (R150). -/
def execPwm1 (e : Fin 16) (ga k leg : Fin 32) (s : State) : Out := .next (s.rhax e 1 (opPwm1 ga k leg))
/-- PWMOFF (R150). -/
def execPwmoff (e : Fin 16) (k : Fin 32) (s : State) : Out := .next (s.rhax e 1 (opPwmoff k))
/-- PWMTRIM (R150). -/
def execPwmtrim (e : Fin 16) (ga k sw : Fin 32) (s : State) : Out := .next (s.rhax e 1 (opPwmtrim ga k sw))
/-- FLTSET (R152). -/
def execFltset (e : Fin 16) (ga k code : Fin 32) (s : State) : Out := .next (s.rhax e 1 (opFltset ga k code))
/-- EVRAISE (R153). -/
def execEvraise (e : Fin 16) (ga k : Fin 32) (s : State) : Out := .next (s.rhax e 1 (opEvraise ga k))
/-- TLMPUT (R153). -/
def execTlmput (e : Fin 16) (ga k : Fin 32) (s : State) : Out := .next (s.rhax e 1 (opTlmput ga k))

end Sys2Proof.Machine
end

