-- ==== Sys2Proof/Machine/Fetch.lean ====
section
/-! DEFINITION. Fetching an instruction word and reading its encoding (R114, R115), for a debug step (R206) and for
ILLEGAL_INSTRUCTION. The word formats are those of R114; a field an instruction does not use must be 0. -/

namespace Sys2Proof.Machine

/-- The fields of a 32-bit word (R114). -/
structure Fields where
  maj : Nat
  gd : Fin 32
  ga : Fin 32
  gb : Fin 32
  gc : Fin 32
  fn : Nat
  imm : BitVec 16

/-- Take a word apart. -/
def fieldsOf (w : Word) : Fields :=
  let x := w.toNat
  ⟨bits x 26 6, Fin.ofNat 32 (bits x 21 5), Fin.ofNat 32 (bits x 16 5), Fin.ofNat 32 (bits x 11 5), Fin.ofNat 32 (bits x 6 5),
   bits x 0 6, BitVec.ofNat 16 x⟩

/-- An encoding that holds where its unused fields are 0. -/
def when (b : Bool) (f : Op) : Option Op := if b then some f else none

/-- MAJ 0x01 (R117). -/
def decAlu (f : Fields) : Option Op :=
  let a := Opd.g f.ga
  let b := Opd.g f.gb
  let two := fun (o : Fin 32 → Opd → Opd → Op) => when (f.gc.val == 0) (o f.gd a b)
  let one := fun (o : Fin 32 → Opd → Op) => when (f.gb.val == 0 && f.gc.val == 0) (o f.gd a)
  match f.fn with
  | 0x00 => two opAdds
  | 0x01 => two opSubs
  | 0x02 => one opNegs
  | 0x03 => one opAbss
  | 0x04 => two opMulq
  | 0x05 => two opDivq
  | 0x06 => two opMin
  | 0x07 => two opMax
  | 0x08 => two opClips
  | 0x09 => some (opClipr f.gd a b (.g f.gc))
  | 0x0A => when (f.gb.val == 0) (opShls f.gd a f.gc)
  | 0x0B => when (f.gb.val == 0) (opShrq f.gd a f.gc)
  | 0x0C => one opSqrtq
  | 0x10 => two opAddw
  | 0x11 => two opSubw
  | 0x12 => two opMulw
  | 0x13 => two opDivw
  | 0x14 => two opAnd
  | 0x15 => two opOr
  | 0x16 => two opXor
  | 0x17 => two opShl
  | 0x18 => two opShr
  | 0x19 => two opShra
  | 0x1A => one opClz
  | 0x20 => one opMov
  | 0x21 => some (opCsel f.gd a b (.g f.gc))
  | 0x22 => two opSeq
  | 0x23 => two opSlt
  | 0x24 => two opSle
  | 0x25 => two opSltu
  | _ => none

/-- MAJ 0x02 (R119), format A. -/
def decAcc (w : Nat) : Option Op :=
  let ad : Fin 8 := Fin.ofNat 8 (bits w 23 3)
  let ga : Fin 32 := Fin.ofNat 32 (bits w 18 5)
  let gb : Fin 32 := Fin.ofNat 32 (bits w 13 5)
  let as : Fin 8 := Fin.ofNat 8 (bits w 10 3)
  let z := bits w 6 4 == 0
  let a0 := ga.val == 0
  let b0 := gb.val == 0
  let s0 := as.val == 0
  match bits w 0 6 with
  | 0 => when (z && a0 && b0 && s0) (opAclr ad)
  | 1 => when (z && s0) (opMula ad ga gb)
  | 2 => when (z && s0) (opMac false ad ga gb)
  | 3 => when (z && s0) (opMac true ad ga gb)
  | 4 => when (z && a0 && b0) (opAmov ad as)
  | 5 => when (z && a0 && b0) (opAadd ad as)
  | 6 => when (z && a0 && b0) (opAneg ad as)
  | 7 => when (z && s0) (opExt ga ad (BitVec.ofNat 5 (bits w 13 5)))
  | 8 => when (z && b0 && s0) (opAldq ad ga)
  | _ => none

/-- MAJ 0x03 (R120). -/
def decFpu (f : Fields) : Option Op :=
  let two := fun (o : Op) => when (f.gc.val == 0) o
  let one := fun (o : Op) => when (f.gb.val == 0 && f.gc.val == 0) o
  match f.fn with
  | 0x00 => two (opFaddsub false f.gd f.ga f.gb)
  | 0x01 => two (opFaddsub true f.gd f.ga f.gb)
  | 0x02 => two (opFmul f.gd f.ga f.gb)
  | 0x03 => two (opFdiv f.gd f.ga f.gb)
  | 0x04 => two (opFma f.gd f.ga f.gb)
  | 0x05 => one (opFneg f.gd f.ga)
  | 0x06 => one (opFabs f.gd f.ga)
  | 0x07 => two (opFminmax false f.gd f.ga f.gb)
  | 0x08 => two (opFminmax true f.gd f.ga f.gb)
  | 0x09 => one (opFsqrt f.gd f.ga)
  | 0x0A => two (opFtest ltF (fun a b => ltF b a) f.gd f.ga f.gb)
  | 0x0B => two (opFtest leF (fun a b => leF b a) f.gd f.ga f.gb)
  | 0x0C => two (opFtest eqF eqF f.gd f.ga f.gb)
  | 0x0D => one (opFtoq f.gd f.ga)
  | 0x0E => one (opQtof f.gd f.ga)
  | 0x0F => one (opFtoi f.gd f.ga)
  | 0x10 => one (opItof f.gd f.ga)
  | _ => none

/-- MAJ 0x04–0x0B and 0x10–0x19 (R118, R121), format I. -/
def decImm (f : Fields) : Option Op :=
  let a := Opd.g f.ga
  let ad : Fin 8 := Fin.ofNat 8 f.gd.val
  match f.maj with
  | 0x04 => some (opAdds f.gd a (immS f.imm))
  | 0x05 => some (opAddw f.gd a (immS f.imm))
  | 0x06 => some (opAnd f.gd a (immZ f.imm))
  | 0x07 => some (opOr f.gd a (immZ f.imm))
  | 0x08 => some (opXor f.gd a (immZ f.imm))
  | 0x09 => when (f.ga.val == 0) (opImm f.gd (f.imm.signExtend 32))
  | 0x0A => when (f.ga.val == 0) (opImm f.gd (f.imm.setWidth 32 <<< 16))
  | 0x0B => some (opSlt f.gd a (immS f.imm))
  | 0x10 => some (opLd false f.gd f.ga f.imm)
  | 0x11 => some (opLd true f.gd f.ga f.imm)
  | 0x12 => some (opSt32 f.gd f.ga f.imm)
  | 0x13 => some (opLdSub 2 true f.gd f.ga f.imm)
  | 0x14 => some (opLdSub 2 false f.gd f.ga f.imm)
  | 0x15 => some (opLdSub 1 false f.gd f.ga f.imm)
  | 0x16 => when (decide (f.gd.val < 8)) (opLdacc ad f.ga f.imm)
  | 0x17 => when (decide (f.gd.val < 8)) (opStacc ad f.ga f.imm)
  | 0x18 => some fun r => opLdaAt f.gd (r.absEa f.ga f.imm).toNat r
  | 0x19 => some fun r => opStaAt f.gd (r.absEa f.ga f.imm) r
  | _ => none

/-- MAJ 0x20–0x2A (R130, R131): in format B the fields of GD and GA hold ga and gb. -/
def decBranch (f : Fields) (w : Nat) : Option Op :=
  match f.maj with
  | 0x20 => some (opBranch (fun a b => a == b) (fun a b => a == b) f.gd f.ga f.imm)
  | 0x21 => some (opBranch (fun a b => a != b) (fun a b => a != b) f.gd f.ga f.imm)
  | 0x22 => some (opBranch (fun a b => decide (a < b)) (fun a b => decide (b < a)) f.gd f.ga f.imm)
  | 0x23 => some (opBranch (fun a b => decide (b ≤ a)) (fun a b => decide (a ≤ b)) f.gd f.ga f.imm)
  | 0x24 => some (opBranchU (fun a b => decide (a < b)) f.gd f.ga f.imm)
  | 0x25 => some (opBranchU (fun a b => decide (b ≤ a)) f.gd f.ga f.imm)
  | 0x26 => when (decide (f.ga.val ≤ 5)) (opBzc f.gd f.ga.val f.imm)
  | 0x28 => some (opJmp (BitVec.ofNat 26 w))
  | 0x29 => some (opCall (BitVec.ofNat 26 w))
  | 0x2A =>
    let cs := w.testBit 24
    when (bits w 0 12 != 0 && !(cs && bits w 17 7 != 0))
      (opLoop (w.testBit 25) (if cs then .reg (Fin.ofNat 32 (bits w 12 5)) else .imm (BitVec.ofNat 12 (bits w 12 12))) (BitVec.ofNat 12 w))
  | _ => none

/-- MAJ 0x2B (R132) and 0x2C (R129). -/
def decSys (f : Fields) : Option Op :=
  let d := f.gd.val == 0
  let a := f.ga.val == 0
  let b := f.gb.val == 0
  let c := f.gc.val == 0
  if f.maj = 0x2B then
    match f.fn with
    | 0 => when (d && a && b && c) fun r => .ok r
    | 1 => when (d && a && b && c) opStepend
    | 2 => when (a && b && decide (f.gc.val ≤ 8)) (opMfs f.gd f.gc)
    | 3 => when (d && b && c) (opMts f.gc f.ga)
    | 4 => when (d && a && b) (opStwclr f.gc)
    | 5 => when (d && a && b && c) fun r => .ok r
    | 6 => when (d && a && b) (opTrap f.gc)
    | 7 => when (d && a && b && c) (opJr 31)
    | 8 => when (d && b && c) (opJr f.ga)
    | _ => none
  else
    match f.fn with
    | 0 => when (a && c) (opQlen f.gd f.gb)
    | 1 => when a (opQrdw f.gd f.gb f.gc)
    | 2 => when (d && a && c) (opQpop f.gb)
    | 3 => when d (opQwrw f.gb f.gc f.ga)
    | 4 => when (d && a && c) (opQpush f.gb)
    | _ => none

/-- MAJ 0x30–0x35 (R140). -/
def decField (f : Fields) : Option Op :=
  let b := f.gb.val == 0
  let c := f.gc.val == 0
  match f.maj, f.fn with
  | 0x30, 0 => when (b && c) (opLinear 3 3 clarkeOf f.gd f.ga)
  | 0x30, 1 => when (b && c) (opLinear 2 2 clarke2Of f.gd f.ga)
  | 0x30, 2 => when (b && c) (opLinear 2 3 iclarkeOf f.gd f.ga)
  | 0x31, 0 => when c (opPark false f.gd f.ga f.gb)
  | 0x31, 1 => when c (opPark true f.gd f.ga f.gb)
  | 0x32, 0 => when (b && c) (opSincos f.gd f.ga)
  | 0x32, 1 => when (b && c) (opVec f.gd f.ga)
  | 0x32, 2 => when c (opAngadd f.gd f.ga f.gb)
  | 0x33, 0 => when (b && c) (opSvm false f.gd f.ga)
  | 0x33, 1 => when (b && c) (opSvm true f.gd f.ga)
  | 0x34, 0 => when c (opLim2 false f.gd f.ga f.gb)
  | 0x34, 1 => when c (opLim2 true f.gd f.ga f.gb)
  | 0x35, 0 => some (opPidq f.gd f.ga f.gb (Fin.ofNat 8 (f.gc.val / 4)) (BitVec.ofNat 2 f.gc.val))
  | _, _ => none

/-- MAJ 0x38–0x3B (R147). -/
def decIo (f : Fields) : Option Op :=
  let d := f.gd.val == 0
  let a := f.ga.val == 0
  let b := f.gb.val == 0
  match f.maj, f.fn with
  | 0x38, 0 => when (a && b) (opSmpget f.gd f.gc)
  | 0x38, 1 => when (a && b) (opSmpflg f.gd f.gc)
  | 0x38, 2 => when (a && b) (opSmpstmp f.gd f.gc)
  | 0x39, 0 => when (d && b) (opPwm3 f.ga f.gc)
  | 0x39, 1 => when d (opPwm1 f.ga f.gc f.gb)
  | 0x39, 2 => when (d && a && b) (opPwmoff f.gc)
  | 0x39, 3 => when d (opPwmtrim f.ga f.gc f.gb)
  | 0x3A, 0 => when (d && decide (f.gb.val ≤ 3)) (opFltset f.ga f.gc f.gb)
  | 0x3B, 0 => when (d && b) (opEvraise f.ga f.gc)
  | 0x3B, 1 => when (d && b) (opTlmput f.ga f.gc)
  | _, _ => none

/-- MAJ 0x3E (R133) with its second word. -/
def decLong (f : Fields) (imm : Word) : Option Op :=
  if f.gc.val ≠ 0 then none
  else
    match f.fn with
    | 0x3C => when (f.ga.val == 0 && f.gb.val == 0) (opLdaAt f.gd imm.toNat)
    | 0x3D => when (f.gd.val == 0 && f.gb.val == 0) (opStaAt f.ga imm)
    | 0x3F => when (f.ga.val == 0 && f.gb.val == 0) (opImm f.gd imm)
    | n => longOp n f.gd f.ga f.gb imm

/-- One 32-bit instruction; none for an undefined encoding (R115). -/
def decShort (w : Word) : Option Op :=
  let f := fieldsOf w
  if f.maj = 0x01 then decAlu f
  else if f.maj = 0x02 then decAcc w.toNat
  else if f.maj = 0x03 then decFpu f
  else if f.maj < 0x20 then decImm f
  else if f.maj < 0x2B then decBranch f w.toNat
  else if f.maj < 0x2D then decSys f
  else if f.maj < 0x38 then decField f
  else if f.maj < 0x3C then decIo f
  else none

/-- Fetch at the pass's place: the length in words and the instruction, or ILLOP or CODELIM (R134). -/
def Task.fetch (t : Task) (pc : Nat) : Except Flt (Nat × Op) :=
  match t.code[pc]? with
  | none => .error (flt cCODELIM)
  | some w =>
    if pc ∈ longSeconds false 0 t.code then .error (flt cCODELIM)
    else if bits w.toNat 26 6 = 0x3E then
      match t.code[pc + 1]? with
      | none => .error (flt cCODELIM)
      | some imm =>
        match decLong (fieldsOf w) imm with
        | some f => .ok (2, f)
        | none => .error (flt cILLOP)
    else
      match decShort w with
      | some f => .ok (1, f)
      | none => .error (flt cILLOP)

/-- The task and place of the running pass of engine `e`. -/
def State.atFetch (s : State) (e : Nat) : Option (Task × Nat) :=
  match (s.eng e).steps.head? with
  | none => none
  | some st => if st.judged then none else (s.task? st.task).map fun t => (t, st.cur.pc)

/-- The steps of the debug engine that have ended pass A: released, or rejected with the fault (R205). -/
def State.dbgRelease (s : State) : State :=
  match s.dbgEngine with
  | none => s
  | some e =>
    overL ((s.eng e).steps.filter fun st => st.debug && (st.cur.ended || st.cur.fault.isSome)) (fun st s =>
      match st.cur.fault with
      | some x => State.taskFault e st 1 x s
      | none => State.acceptStep e st s) s

/-- What a write of PYR.DBGCTL leaves to be done: steps whose pass A had ended are released (R205), and a halted engine
executes the one instruction asked for, fetched at the pass's place (R206). -/
def State.pumpStep (s0 : State) : State :=
  let s := s0.dbgRelease
  match (List.range 16).find? fun e => (s.eng e).stepReq with
  | none => s
  | some e =>
    let s1 := State.modEng e (fun x => { x with stepReq := false }) s
    match s1.atFetch e with
    | none => s1
    | some (t, pc) =>
      let s2 := match t.fetch pc with
        | .ok (n, f) => State.instr e n f s1
        | .error x => State.instr e 1 (fun _ => .error x) s1
      -- a step asked for by the step itself is ignored
      { s2 with engines := s2.engines.map fun x => { x with stepReq := false } }

/-- PYRYA_VERDICT (R190): a released STA may have written PYR.DBGCTL. -/
def execPyryaVerdict (e : Fin 16) (lines : List BufLine) (canaryOk : Bool) (s : State) : Out :=
  .next (State.pyryaVerdict e lines canaryOk s).pumpStep

/-- ILLEGAL_INSTRUCTION (R115): the word at the pass's place has no defined encoding, or lies outside the code. -/
def execIllegalInstruction (e : Fin 16) (s : State) : Out :=
  match s.atFetch e with
  | none => .next s
  | some (t, pc) =>
    match t.fetch pc with
    | .ok _ => .next s
    | .error x => .next (s.rhax e 1 fun _ => .error x)

/-- BUDGET_EXCEEDED (R136). -/
def execBudgetExceeded (e : Fin 16) (s : State) : Out := .next (s.rhax e 1 fun _ => .error (flt cBUDGET))

end Sys2Proof.Machine
end

