-- ==== Sys2Proof/Machine/HostBase.lean ====
section
/-! DEFINITION. The host ports (R67 to R90): accepting a frame, answering it, the rights a port holds, and the commands
that read and write at once: STATUS, READ, WRITE, DOORBELL, IMG_LOAD, TELEM_SUB and TELEM_UNSUB. -/

namespace Sys2Proof.Machine

/-! Accepting a frame (R74 to R78). -/

/-- MEMF serves hosts: its domain is released, and it has not failed (R434). -/
def State.memfUp (s : State) : Bool := s.up && s.islandUp 18

/-- Commands are served: not after the answer to a request for SLEEP (R65). -/
def State.hostUp (s : State) : Bool := s.memfUp && s.pwr.entering != .answered

/-- HOST drives the SPI ports too (R13). -/
def State.spiUp (s : State) : Bool := s.hostUp && s.islandUp 22

/-- Commands of a port that hold a response entry: waiting, and in service (R78). -/
def Port.held (x : Port) : Nat := x.cmds.length + if x.busy.isSome then 1 else 0

/-- Bytes of the frame pool in use (R97). -/
def Port.poolUsed (x : Port) : Nat :=
  (x.cmds.map (·.size)).sum + match x.busy with
    | some (f, _) => f.size
    | none => 0

/-- The tag belongs to a command that has not been answered (R76). A rejected frame holds no tag (R77). -/
def Port.tagOpen (x : Port) (tag : BitVec 8) : Bool :=
  x.cmds.any (fun f => f.tag == tag && f.st == eOK) || match x.busy with
    | some (f, _) => f.tag == tag
    | none => false

/-- A frame finds no room (R78, R99): it is discarded, and the overflow answer is kept outside the queues. -/
def State.discardFrame (n : Fin 4) (f : Frame) (s : State) : State :=
  let s1 := if 64 ≤ s.ports[n].cmds.length then s.inc QUE.QSTAT_DROPS (2 * n.val) else s
  let s2 := s1.inc HOST.PSTAT_OVFCNT n
  match s.ports[n].ovf with
  | some _ => s2
  | none =>
    let s3 := s2.pb HOST.PSTAT_OVF n true
    { s3 with ports := s3.ports.set n { s3.ports[n] with ovf := some ⟨f.opc, f.tag, eNOSPACE, []⟩ } }

/-- A frame reaches port `n`: it enters Q(2n) with the code of its frame checks, or finds no room (R76, R78). -/
def State.enqueue (n : Fin 4) (f : Frame) (s : State) : State :=
  let x := s.ports[n]
  if 64 ≤ x.cmds.length ∨ 49152 < x.poolUsed + f.size ∨ 64 ≤ x.resps.length + x.held then State.discardFrame n f s
  else
    let st := if f.st = eOK ∧ x.tagOpen f.tag then eTAG else f.st
    State.setWord { s with ports := s.ports.set n { x with cmds := x.cmds ++ [{ f with st := st, came := s.tbase }] } }
      QUE.QTAIL (2 * n.val) (s.word QUE.QTAIL (2 * n.val) + 1)

/-- Answer the command that has been taken (R74, R77): the port is free for the next. -/
def State.reply (n : Fin 4) (f : Frame) (c : Code) (pl : List Word) (s : State) : State :=
  ({ s with ports := s.ports.set n { s.ports[n] with busy := none } }).answer n ⟨f.opc, f.tag, c, pl⟩

/-- The command stays in service until what it waits for happens (R79). -/
def State.hold (n : Fin 4) (f : Frame) (w : Waiting) (s : State) : State :=
  { s with ports := s.ports.set n { s.ports[n] with busy := some (f, w) } }

/-! The checks every opcode shares (R9, R76, R82). -/

/-- Boot steps are still running in SAFE (R49). -/
def State.booting (s : State) : Bool := s.mode == mSAFE && decide (1 ≤ s.boot.step ∧ s.boot.step ≤ 6)

/-- The mode bars an opcode: in BOOT every one but STATUS, READ and MODE_REQ (R40), in SCRAP too (R2); where `steps`, also
while boot steps run in SAFE (R49). -/
def State.barred (s : State) (steps : Bool) : Bool := s.mode == mBOOT || s.scrapped || (steps && s.booting)

/-- Right, mode, reserved bits, payload length: the first that fails. -/
def gate (noRight barred resv lenBad : Bool) : Code :=
  firstCode [(noRight, eRIGHTS), (barred, eMODE), (resv, eRESV), (lenBad, eLEN)]

/-- Reserved bits of an argument. -/
def resvSet (arg : Word) (mask : Nat) : Bool := arg &&& BitVec.ofNat 32 mask != 0

/-- Reject with the first code that applies, or go on (R77). -/
def State.orReject (n : Fin 4) (f : Frame) (c : Code) (go : State → State) (s : State) : State :=
  if c = eOK then go s else s.reply n f c []

/-! STATUS (R88). -/

/-- The eight words of STATUS. -/
def State.statusWords (s : State) (n : Fin 4) : List Word :=
  [s.regRead SYS.MODE 0, s.regRead HOST.RIGHTS n, s.regRead SAFE.STAT 0,
   BitVec.ofNat 32 (min 255 (s.qLevel (8 + n.val)) * 2 ^ 24 + min 255 (s.qLevel (2 * n.val + 1)) * 2 ^ 16
     + min 255 (s.qLevel (2 * n.val)) * 2 ^ 8 + min 3 (s.ops.countP fun o => o.port == n)),
   BitVec.ofNat 32 s.tbase, BitVec.ofNat 32 (s.tbase / 2 ^ 32), s.regRead SYS.BOOT 0, s.regRead HOST.PSTAT n]

/-- STATUS (R88). -/
def State.opStatusWords (n : Fin 4) (f : Frame) (s : State) : State :=
  s.orReject n f (gate false false (f.arg != 0) (!f.payload.isEmpty)) fun s => s.reply n f eOK (s.statusWords n)

/-! READ (R83). -/

/-- The place of a code in the order of R9. -/
def codeRank (c : Code) : Nat :=
  if c = eRIGHTS then 0 else if c = eOWNER then 1 else if c = eALIGN then 2 else if c = eRANGE then 3
  else if c = eMODE then 4 else 5

/-- The code of the earliest stage, the lowest address first (R9). -/
def earliest (l : List Code) : Code :=
  (leastBy (fun a b => decide (codeRank a < codeRank b)) (l.filter (· != eOK))).getD eOK

/-- The address lies in an enabled telemetry ring. -/
def State.inTelemRing (s : State) (a : Nat) : Bool :=
  (List.range 4).any fun k => s.gb QUE.QCFG_EN (28 + k)
    && overlaps a 4 (s.word QUE.QBASE (28 + k)).toNat (s.qN (28 + k) * s.qSize (28 + k))

/-- The code of one word of a READ by port `n`, its alignment apart (R39, R68, R83). -/
def State.readCode (s : State) (n : Fin 4) (a : Nat) : Code :=
  if (windowOf a).isSome then if s.mode == mCONFIGURE && s.gb HOST.RIGHTS_IMAGE n then eOK else eRIGHTS
  else if a < sramEnd && s.inTelemRing a && !s.gb HOST.RIGHTS_TELEM n then eRIGHTS
  else
    match s.absWord a with
    | .ok _ => eOK
    | .error c => c

/-- A read of this word waits for a self-test slice, and is served after it (R81, R282, R316, R386). -/
def State.readDeferred (s : State) (a : Nat) : Bool :=
  s.nvDeferred a || match regAt a with
    | none => false
    | some (r, k) =>
      if r = ADC.RES then s.resDeferred k
      else if r = CMP.RDVAL then s.rdbkSlice
      else if r = POS.CNT ∨ r = POS.SPEED ∨ r = POS.ANG then s.posDeferred k
      else false

/-- One word of a READ by port `n`: the word, and the port's shadow after it (R101). -/
def State.readWord (n : Fin 4) (a : Nat) (s : State) : Word × State :=
  if (windowOf a).isSome then (s.windowWord a, s)
  else
    match regAt a with
    | none =>
      match s.absWord a with
      | .ok w => (w, s.used)
      | .error _ => (0, s)
    | some (r, k) =>
      let live := s.regRead r k
      match pairOf r k with
      | none => (live, s.used)
      | some (lo, false) =>
        let hi := match highOf r with
          | some h => s.regRead h k
          | none => 0
        (live, { s with ports := s.ports.set n { s.ports[n] with shadow := some (lo, hi) } })
      | some (lo, true) =>
        match s.ports[n].shadow with
        | some (p, v) => if p = lo then (v, s) else (live, s.pbit SYS.RDSTAT_TORN 0 n true)
        | none => (live, s.pbit SYS.RDSTAT_TORN 0 n true)

/-- `c` consecutive words from `a` up. -/
def State.readWords (n : Fin 4) : Nat → Nat → State → List Word × State
  | _, 0, s => ([], s)
  | a, c + 1, s =>
    let x := State.readWord n a s
    let y := State.readWords n (a + 4) c x.2
    (x.1 :: y.1, y.2)

/-- The most words a READ may ask for: over Ethernet 371 (R378). -/
def State.readMax (s : State) (n : Fin 4) : Nat := if s.gb ETH.HBIND_EN n then 371 else 1024

/-- A READ reads SRAM: the codewords it touches are corrected, or found uncorrectable (R32, R33). -/
def State.readTouch (a n : Nat) (s : State) : State := if a < sramEnd then State.sramTouch a n s else s

/-- The code of the words of a READ by port `n` (R9, R83). -/
def State.readCodes (s : State) (n : Fin 4) (a : Nat) (addrs : List Nat) : Code :=
  earliest (addrs.map (s.readCode n) ++ [if a % 4 = 0 then eOK else eALIGN])

/-- READ (R83): the checks of R9 on its words, at least on the first and at most on as many as a READ may ask for, and
then its count (R76, R82). -/
def State.opRead (n : Fin 4) (f : Frame) (s : State) : State :=
  let a := f.arg.toNat
  let c := (f.payload.getD 0 0).toNat
  let addrs := (List.range (max 1 (min c (s.readMax n)))).map fun i => a / 4 * 4 + 4 * i
  s.orReject n f (firstCode [
      (s.readCodes n a addrs != eOK, s.readCodes n a addrs),
      (f.payload.length != 1 || c == 0 || decide (s.readMax n < c), eLEN)]) fun s =>
    let s1 := State.readTouch a (4 * c) s
    s1.orReject n f (s1.readCodes n a addrs) fun s =>
      let x := State.readWords n a c s
      x.2.reply n f (if addrs.any s.readDeferred then eDEFERRED else eOK) x.1

/-! WRITE and DOORBELL (R84, R85). -/

/-- WRITE (R84): the checks of R9 on its words, and then its length (R76, R82). A write that steps a halted engine lets it
execute its instruction (R206). -/
def State.opWrite (n : Fin 4) (f : Frame) (s : State) : State :=
  let a := f.arg.toNat
  if f.payload.isEmpty then
    s.orReject n f (s.writeCode n a [s.storedAt a]) fun s => s.reply n f eLEN []
  else
    match s.writeWords (.host n) a f.payload with
    | .ok t => t.pumpStep.reply n f (if (wordAddrs a f.payload).any (fun x => s.nvDeferred x.1) then eDEFERRED else eOK) []
    | .error c => s.reply n f c []

/-- DOORBELL (R85). -/
def State.opDoorbell (n : Fin 4) (f : Frame) (s : State) : State :=
  s.orReject n f (gate (doorbellCode n f.arg != eOK) (s.barred false) (resvSet f.arg 0xF0000000) (!f.payload.isEmpty))
    fun s => (State.ring n f.arg s).reply n f eOK []

/-! IMG_LOAD (R86). -/

/-- The lowest base where `n` bytes fit in SRAM outside the regions in use and the default host area. -/
def State.stageFit (s : State) (n : Nat) : Option Nat := fitIn 0 hostArea n ({ s with staging := none }).usedRegions

/-- Reserve the staging buffer for port `n` as the header's LEN asks, and write the words into it. -/
def State.stageOpen (n : Fin 4) (f : Frame) (s : State) : State :=
  let len := (f.payload.getD 3 0).toNat
  if f.payload.length < 4 then s.reply n f eLEN []
  else if 0x7FFC00 < len ∨ len % 32 ≠ 0 then s.reply n f eRANGE []
  else
    match s.stageFit (0x400 + len) with
    | none => s.reply n f eNOSPACE []
    | some b =>
      if 0x400 + len < 4 * f.payload.length then s.reply n f eLEN []
      else (State.sramPut b (wordBytes f.payload) { s with staging := some ⟨n, b, 0x400 + len⟩ }).reply n f eOK []

/-- Later words of the staging. -/
def State.stageMore (n : Fin 4) (f : Frame) (s : State) : State :=
  let a := f.arg.toNat
  match s.staging with
  | none => s.reply n f eLEN []
  | some x =>
    if a % 4 ≠ 0 ∨ x.size < a + 4 * f.payload.length then s.reply n f eLEN []
    else (State.sramPut (x.base + a) (wordBytes f.payload) s).reply n f eOK []

/-- IMG_LOAD (R86). -/
def State.opImgLoad (n : Fin 4) (f : Frame) (s : State) : State :=
  s.orReject n f (gate (!s.gb HOST.RIGHTS_IMAGE n) (s.barred true) false f.payload.isEmpty) fun s =>
    let other := match s.staging with
      | some x => x.port != n
      | none => false
    if s.committing || other then s.reply n f eBUSY []
    else if f.arg = 0 then State.stageOpen n f s else State.stageMore n f s

/-! TELEM_SUB and TELEM_UNSUB (R89, R399, R400). -/

/-- A stream. -/
def State.stream (s : State) (k : Nat) : Stream := at' s.streams k ⟨none, []⟩

/-- Another port owns stream `k`. -/
def State.streamTaken (s : State) (n : Fin 4) (k : Nat) : Bool :=
  match (s.stream k).owner with
  | some m => m != n
  | none => false

/-- The signals of a stream after a subscription: a new one is added, an old one keeps its place. -/
def subscribe (sig : BitVec 20) (dec : Nat) (l : List Signal) : List Signal :=
  if l.any fun y => y.sig == sig then l.map fun y => if y.sig == sig then { y with dec := dec } else y
  else l ++ [⟨sig, dec, 0, 0⟩]

/-- TELEM_SUB (R89). -/
def State.opTelemSub (n : Fin 4) (f : Frame) (s : State) : State :=
  let k := bits f.arg.toNat 20 2
  let sig := BitVec.ofNat 20 f.arg.toNat
  let dec := (f.payload.getD 0 0).toNat
  let on := (s.stream k).signals.any fun y => y.sig == sig
  s.orReject n f (firstCode [
      (!s.gb HOST.RIGHTS_TELEM n, eRIGHTS), (s.streamTaken n k, eOWNER), (s.barred false, eMODE),
      (resvSet f.arg 0xFFC00000, eRESV), (f.payload.length != 1, eLEN), (!s.sigDefined sig.toNat, eENUM),
      (dec == 0 || decide (65535 < dec), eRANGE),
      (!on && decide (256 ≤ (s.stream k).signals.length), eNOSPACE)]) fun s =>
    State.reply n f eOK []
      { s with streams := upd s.streams k fun x => ⟨some n, subscribe sig dec x.signals⟩ }

/-- TELEM_UNSUB (R89): the stream is released with its last signal (R400). -/
def State.opTelemUnsub (n : Fin 4) (f : Frame) (s : State) : State :=
  let k := bits f.arg.toNat 20 2
  let sig := BitVec.ofNat 20 f.arg.toNat
  s.orReject n f (firstCode [
      (!s.gb HOST.RIGHTS_TELEM n, eRIGHTS), (s.streamTaken n k, eOWNER), (s.barred false, eMODE),
      (resvSet f.arg 0xFFC00000, eRESV), (!f.payload.isEmpty, eLEN),
      (!((s.stream k).signals.any fun y => y.sig == sig), eRANGE)]) fun s =>
    State.reply n f eOK []
      { s with streams := upd s.streams k fun x =>
          let l := x.signals.filter fun y => y.sig != sig
          ⟨if l.isEmpty then none else some n, l⟩ }

end Sys2Proof.Machine
end

