-- ==== Sys2Proof/Machine/HostTask.lean ====
section
/-! DEFINITION. The task commands of a host: TASK_ADMIT, TASK_RETIRE and TASK_MAILBOX (R87, R163, R173). -/

namespace Sys2Proof.Machine

/-- The raw descriptor of image task `i`, or why there is none (R56, R87). -/
def State.findDescr (s : State) (i : Nat) : Except Code (List Byte) :=
  if s.bootedBank.isNone then .error eSIG
  else
    match s.imageDescr i with
    | none => .error eNOTASK
    | some l => .ok l

/-- The checks of TASK_ADMIT on a descriptor, before capacity, in their order (R9, R76): a setup task's port, ownership,
the mode, reserved bits, the size of the initial mailbox (R87), and then the descriptor itself (R162). -/
def State.admitCode (s : State) (n : Fin 4) (l : List Byte) (arg : Word) (words : Nat) : Code :=
  let d := descrOf l
  let c := s.descrCheck l (fld (s.bankHdr (s.bootedBank.getD 0)) 12 4)
  firstCode [
    (d.kind == 1 && !s.gb HOST.RIGHTS_SAFEOWN n, eRIGHTS),
    (d.commands.any fun b => !s.owns n b, eOWNER),
    (s.barred true || (d.kind == 1 && s.mode != mCONFIGURE), eMODE),
    (resvSet arg 0xFFFF0000, eRESV),
    (decide (2 ^ d.mbLog2 < 4 * words), eLEN),
    (c != eOK, c)]

/-- TASK_ADMIT (R87, R173). -/
def State.opTaskAdmit (n : Fin 4) (f : Frame) (s : State) : State :=
  match s.findDescr (bits f.arg.toNat 0 16) with
  | .error c => s.orReject n f (gate false (s.barred true) (resvSet f.arg 0xFFFF0000) false) fun s => s.reply n f c []
  | .ok l =>
    s.orReject n f (s.admitCode n l f.arg f.payload.length) fun s =>
      match s.admitTask n (descrOf l) f.payload with
      | .error c => s.reply n f c []
      | .ok (id, t) => t.reply n f eOK [BitVec.ofNat 32 id]

/-- In RUN a task leaves only when every bridge it drives is in STO (R87). -/
def State.retireUnsafe (s : State) (x : Task) : Bool :=
  s.mode == mRUN && x.d.driven.any fun b => s.g FBRK.BRST_PAT (s.unitOf b) != 2

/-- The port does not own a bridge that task `id` commands (R68). -/
def State.notOwner (s : State) (n : Fin 4) (id : Nat) : Bool :=
  match s.task? id with
  | none => false
  | some x => x.d.commands.any fun b => !s.owns n b

/-- TASK_RETIRE (R87): answered when the task has gone at its next boundary. A setup task ends with SEND = 0b00 (R164). A
pending move of the task is cancelled (R182). -/
def State.opTaskRetire (n : Fin 4) (f : Frame) (s : State) : State :=
  let id := bits f.arg.toNat 0 8
  s.orReject n f (firstCode [
      (s.notOwner n id, eOWNER), (s.barred false, eMODE), (resvSet f.arg 0xFFFFFF00, eRESV), (!f.payload.isEmpty, eLEN)])
    fun s =>
    match s.task? id with
    | none => s.reply n f eNOTASK []
    | some x =>
      if s.retireUnsafe x then s.reply n f eSAFETY []
      else
        State.hold n f (.retire id) (State.cancelMove id
          (s.modTask id fun x => { x with retire := some (x.retire.getD (some (n, f.tag), 0)) }))

/-- The mailbox words `a` to `a + c − 1` lie in the task's mailbox. -/
def mailboxFits (x : Task) (a c : Nat) : Bool := decide (4 * (a + c) ≤ 2 ^ x.d.mbLog2)

/-- Word `w` is one of the two axis words of an enabled axis of task `t`, which only the supervisor writes (R211). -/
def State.axisWordAt (s : State) (t w : Nat) : Bool :=
  (s.axesOfTask t).any fun n => decide (s.g CTL.AXMB_MBOFF n ≤ w ∧ w < s.g CTL.AXMB_MBOFF n + 2)

/-- The words `off` to `off + cnt − 1` of task `id` hold an axis word, which no host writes (R211). -/
def State.axisWords (s : State) (id off cnt : Nat) : Bool := (List.range cnt).any fun i => s.axisWordAt id (off + i)

/-- TASK_MAILBOX (R68, R87, R211): a write is applied, and a read is captured and answered, at the task's next boundary. -/
def State.opTaskMailbox (n : Fin 4) (f : Frame) (s : State) : State :=
  let a := f.arg.toNat
  let id := bits a 0 8
  let off := bits a 16 16
  let read := a.testBit 8 == Config.dirRead
  let cnt := if read then (f.payload.getD 0 0).toNat else f.payload.length
  let badLen := if read then f.payload.length != 1 || cnt == 0 || decide (1024 < cnt) else f.payload.isEmpty
  s.orReject n f (firstCode [
      (!read && s.axisWords id off cnt, eRIGHTS), (s.notOwner n id, eOWNER), (s.barred false, eMODE),
      (resvSet f.arg 0x0000FE00, eRESV), (badLen, eLEN)]) fun s =>
    match s.task? id with
    | none => s.reply n f eNOTASK []
    | some x =>
      s.orReject n f (if mailboxFits x off cnt then eOK else eLEN) fun s =>
        let q : MbReq := ⟨n, f.tag, !read, off, f.payload, cnt⟩
        let s1 := s.modTask id fun x => { x with reqs := x.reqs ++ [q] }
        if read then State.hold n f (.mailbox id) s1 else s1.reply n f eOK []

end Sys2Proof.Machine
end

