-- ==== Sys2Proof/Machine/LongOps.lean ====
section
/-! DEFINITION. Long operations (R57, R91 to R96, R388, R395, R403): their limits, their steps, their end, OP_STATUS and
OP_ABORT. -/

namespace Sys2Proof.Machine

/-! Starting (R91, R92). -/

/-- An operation before it starts. -/
def LongOp.init (n : Fin 4) (k : OpKind) (total : Nat) : LongOp :=
  ⟨0, n, k, 0, total, none, false, eOK, [], 0, 0, 0, [], 0, [], [], [], 0, 1⟩

/-- The group of R92: 0 the operations that write NVST, 1 calibration, 2 self-test. -/
def opGroup (k : OpKind) : Nat :=
  if writesNv k then 0
  else match k with
    | .cal _ => 1
    | _ => 2

/-- The limits of R92 for one more operation of port `n`: two pending of the port, and one of its group. A self-test that
burns belongs to both groups. -/
def State.limits (s : State) (n : Fin 4) (k : OpKind) : Code :=
  let isBist := fun (k : OpKind) => match k with
    | .bist .. => true
    | _ => false
  firstCode [
    (decide (2 ≤ s.ops.countP fun o => o.port == n), eNOSPACE),
    (s.ops.any fun o => opGroup o.kind == opGroup k || (isBist o.kind && isBist k), eBUSY)]

/-- A request that writes NVST meets a failed NVST (R13). -/
def State.nvFailed (s : State) : Bool := s.pwr.failed.getLsbD 24

/-- The operation starts: its token, and E_PENDING (R91). -/
def State.opBegin (n : Fin 4) (f : Frame) (o : LongOp) (s : State) : State :=
  let ser := s.ports[n].serial + 1
  let tok := BitVec.ofNat 32 (n.val * 2 ^ 30 + f.opc.toNat * 65536 + ser.toNat)
  let o1 := { o with token := tok }
  State.reply n f ePENDING [tok]
    { s with ops := s.ops ++ [o1], ports := s.ports.set n { s.ports[n] with serial := ser } }

/-! IMG_COMMIT (R57, R93). -/

/-- The bank IMG_COMMIT writes: 0 A, 1 B. -/
def State.imgTarget (s : State) : Nat := if s.bootedBank = some 0 then 1 else 0

/-- Bytes of the staging buffer. -/
def State.staged (s : State) (off n : Nat) : List Byte :=
  match s.staging with
  | some x => bytesAt s.sram (x.base + off) n
  | none => []

/-- Bytes of the staging buffer cannot be read (R33). -/
def State.stagedBad (s : State) (off n : Nat) : Bool :=
  match s.staging with
  | some x => s.poisoned (x.base + off) n
  | none => true

/-- The staged image passes R54 and the SEQ rule of R57, or the code it fails with. -/
def State.stagedCode (s : State) : Code :=
  let h := s.staged 0 0x400
  let x := hdrOf h
  if s.stagedBad 0 (0x400 + x.len) then eMEMCHK
  else if s.imageCheck h (s.staged 0x400 x.len) ≠ 0 then eSIG
  else match s.bootedBank with
    | none => eOK
    | some b => if (hdrOf (s.bankHdr b)).seq < x.seq then eOK else eSIG

/-- The steps that verify an image of `len` body bytes, of 40 µs each: hashing at 640 MB/s, and 3.5 ms for the signature
(R55, R93). -/
def verifySteps (len : Nat) : Nat := (len + 25599) / 25600 + 88

/-- IMG_COMMIT (R57). Without a staging buffer there is no valid image to commit; another port's buffer is held. -/
def State.opImgCommit (n : Fin 4) (f : Frame) (s : State) : State :=
  let len := (hdrOf (s.staged 0 0x400)).len
  s.orReject n f (gate (!s.gb HOST.RIGHTS_IMAGE n || s.gb NVS.KEYSTAT_CLOSED) (s.barred true) (f.arg != 0) (!f.payload.isEmpty))
    fun s => s.orReject n f (firstCode [
        (s.nvFailed, eNVCHK), (s.limits n .imgCommit != eOK, s.limits n .imgCommit),
        (match s.staging with
          | some x => x.port != n
          | none => false, eBUSY),
        (s.staging.isNone, eSIG)]) fun s =>
      s.opBegin n f { LongOp.init n .imgCommit (verifySteps len + 2 + (len + 4095) / 4096) with
        len := len, bank := s.imgTarget, verify := verifySteps len }

/-! NV_COMMIT (R403). -/

/-- The bank index of nvBase of a parameter or calibration bank. -/
def parBank (cal : Bool) (b : Nat) : Nat := (if cal then 4 else 2) + b

/-- The winner of the last selection (R403): 0 or 1, where a bank of the kind is valid. -/
def State.winner (s : State) (cal : Bool) : Option Nat :=
  if cal then if s.g NVS.BANKSTAT_CVAL 0 = 0 then none else some (s.g NVS.BANKSTAT_CWIN 0)
  else if s.g NVS.BANKSTAT_PVAL 0 = 0 then none else some (s.g NVS.BANKSTAT_PWIN 0)

/-- The bank to write: the one that did not win, or P0 or C0. -/
def State.nvTarget (s : State) (cal : Bool) : Nat :=
  match s.winner cal with
  | some w => 1 - w
  | none => 0

/-- The SEQ to write. -/
def State.nextSeq (s : State) (cal : Bool) : Nat :=
  match s.winner cal with
  | some _ => (s.word (if cal then NVS.CSEQ else NVS.PSEQ)).toNat + 1
  | none => 1

/-- The length of the SAFETY section (R402). -/
def safetyLen : Nat := 0x1F000

/-- The user section of NV_COMMIT lies where R403 wants it. -/
def State.userOk (s : State) : Bool :=
  let a := (s.word NVS.USRC).toNat
  let n := (s.word NVS.ULEN).toNat
  a % 32 == 0 && n % 32 == 0 && decide (n ≤ 0xE0000) && decide (a + n ≤ hostArea)

/-- NV_COMMIT (R403). -/
def State.opNvCommit (n : Fin 4) (f : Frame) (s : State) : State :=
  let cal := f.arg.toNat % 2 == 1
  let len := if cal then (4 * s.bgs.trims.length + 31) / 32 * 32 else safetyLen + (s.word NVS.ULEN).toNat
  s.orReject n f (gate (!s.gb HOST.RIGHTS_SAFEOWN n || (!cal && s.gb NVS.KEYSTAT_CLOSED)) (s.barred true)
      (resvSet f.arg 0xFFFFFFFE) (!f.payload.isEmpty)) fun s =>
    s.orReject n f (firstCode [
        (s.nvFailed, eNVCHK), (s.limits n (.nvCommit cal) != eOK, s.limits n (.nvCommit cal)),
        (!cal && !s.userOk, eRANGE), (decide (2 ^ 32 ≤ s.nextSeq cal), eNOSPACE)]) fun s =>
      s.opBegin n f { LongOp.init n (.nvCommit cal) (3 + (len + 4095) / 4096) with
        len := len, src := (s.word NVS.USRC).toNat, trims := s.bgs.trims, bank := parBank cal (s.nvTarget cal) }

/-! BIST_RUN and CAL_RUN (R388, R395). -/

/-- The slices of an island (R387). DEDUCED (log entry 30). -/
def bistSlices (isl : Nat) : Nat :=
  if 2 ≤ isl ∧ isl ≤ 17 then 8
  else match isl with
    | 0 => 16
    | 1 => 200
    | 18 => 64 + 1024
    | 19 => 96
    | 20 => 128
    | 21 => 112
    | 22 => 32
    | 23 => 48
    | 24 => 32
    | _ => 16

/-- Soft repairs of an island that are not yet in fuses (R390). -/
def State.unburned (s : State) (isl : Nat) : List SpareMem := s.bgs.softRepairs.filter fun m => (spareIsl m) == isl

/-- What an engine's self-test needs (R176, R181, R182): an ACTIVE engine a SPARE one to drain to, a second one in test
another SPARE, and no engine in debug. E_NOSPACE answers for the second need too (DESIGN CHOICE, log entry 113). -/
def State.bistEngineCode (s : State) (isl : Nat) : Code :=
  if 2 ≤ isl ∧ isl ≤ 17 then
    let e := isl - 2
    let spares := (s.inState eSPARE).length
    let busy := ((List.range 16).filter fun x => x != e && (s.est x == eTEST || (s.est x == eDRAIN && s.g PLC.ESTAT_REASON x == rSLICE))).length
    if s.dbgEngine = some e then eBUSY
    else if (s.est e = eACTIVE && (spares == 0 || decide (2 ≤ busy)))
        || (s.est e = eSPARE && (decide (2 ≤ busy) || (busy == 1 && decide (spares < 2)))) then eNOSPACE
    else eOK
  else eOK

/-- The engine of a self-test is taken out of service for it. -/
def State.bistTake (isl : Nat) (s : State) : State :=
  if 2 ≤ isl ∧ isl ≤ 17 then
    let e := isl - 2
    if s.est e = eSPARE then (State.setEst e eTEST 0 s).plc
    else if s.est e = eACTIVE then
      match State.drainTo e rSLICE s with
      | some s1 => s1.plc
      | none => s
    else s
  else s

/-- BIST_RUN (R92, R388). -/
def State.opBistRun (n : Fin 4) (f : Frame) (s : State) : State :=
  let a := f.arg.toNat
  let isl := bits a 0 5
  let full := a.testBit 8
  let burn := a.testBit 9
  let k := OpKind.bist (Fin.ofNat 26 isl) full burn
  s.orReject n f (gate (!s.gb HOST.RIGHTS_SAFEOWN n)
      (s.barred true || ((full || burn) && !(s.mode == mCONFIGURE || s.mode == mSAFE)))
      (resvSet f.arg 0xFFFFFCE0) (!f.payload.isEmpty)) fun s =>
    s.orReject n f (firstCode [
        (decide (25 < isl) || (burn && !(decide (2 ≤ isl ∧ isl ≤ 18))), eRANGE),
        (burn && s.nvFailed, eNVCHK),
        (s.limits n k != eOK, s.limits n k),
        (s.bistEngineCode isl != eOK, s.bistEngineCode isl),
        (burn && decide (512 < s.fuses.burned.length + (s.unburned isl).length), eNOSPACE)]) fun s =>
      State.bistTake isl (s.opBegin n f (LongOp.init n k (bistSlices isl)))

/-- CAL_RUN (R92, R395): one step for each block. DEDUCED (log entry 30). -/
def State.opCalRun (n : Fin 4) (f : Frame) (s : State) : State :=
  let tg := BitVec.ofNat 2 f.arg.toNat
  s.orReject n f (gate (!s.gb HOST.RIGHTS_SAFEOWN n)
      (s.barred true || !(s.mode == mCONFIGURE || s.mode == mREADY || s.mode == mSAFE))
      (resvSet f.arg 0xFFFFFFFC) (!f.payload.isEmpty)) fun s =>
    s.orReject n f (firstCode [
        (tg == 3, eENUM), (s.limits n (.cal tg) != eOK, s.limits n (.cal tg))]) fun s =>
      s.opBegin n f (LongOp.init n (.cal tg) (if tg = 0 then 24 else if tg = 1 then 32 else 56))

/-! The steps of an operation that writes a bank. -/

/-- What body step `j` writes, read when the step starts (R403); none where SRAM gives an uncorrectable codeword. -/
def State.chunk (s : State) (o : LongOp) (j : Nat) : Option (List Byte) :=
  let off := 4096 * j
  let n := min 4096 (o.len - off)
  let fromWinner := match s.winner false with
    | some w => bytesAt s.nv.bytes (nvBase (parBank false w) + 0x1000 + off) n
    | none => s.freeBytes n
  match o.kind with
  | .imgCommit => if s.stagedBad (0x400 + off) n then none else some (s.staged (0x400 + off) n)
  | .nvCommit true =>
    let b := wordBytes o.trims
    some (((b ++ List.replicate (o.len - b.length) 0).drop off).take n)
  | .nvCommit false =>
    if off < safetyLen then some fromWinner
    else if s.poisoned (o.src + (off - safetyLen)) n then none
    else some (bytesAt s.sram (o.src + (off - safetyLen)) n)
  | .safeCommit _ => some (if off < safetyLen then s.freeBytes n else fromWinner)
  | _ => some []

/-- The step after `done` ones starts: a body step reads what it will write. -/
def State.readAhead (o : LongOp) (s : State) : LongOp × State :=
  if o.verify + 1 ≤ o.done ∧ o.done + 1 < o.total then
    let s1 := { s with freeCtr := s.freeCtr + 1024 }
    match s.chunk o (o.done - (o.verify + 1)) with
    | some l => ({ o with data := l }, s1)
    | none => ({ o with err := eMEMCHK }, s1)
  else (o, s)

/-- The SEQ an operation writes. -/
def State.opSeq (s : State) (o : LongOp) : Nat :=
  match o.kind with
  | .imgCommit => (hdrOf (s.staged 0 0x400)).seq
  | .nvCommit cal => s.nextSeq cal
  | _ => s.nextSeq false

/-- The bits of BANKSTAT that tell which banks of a kind are valid. -/
def bankVal (bank : Nat) : FRef := if bank < 4 then NVS.BANKSTAT_PVAL else NVS.BANKSTAT_CVAL

/-- An image bank's check result is written (R54, R95). -/
def State.putChk (bank v : Nat) (s : State) : State :=
  if bank = 0 then s.p SYS.BOOT_ACHK 0 v else s.p SYS.BOOT_BCHK 0 v

/-- The bytes and lines of a bank, kept before its header goes (R95). -/
def State.keepBank (s : State) (o : LongOp) : LongOp :=
  let a := nvBase o.bank
  let z := nvSize o.bank
  { o with
    oldBytes := s.nv.bytes.filter fun c => decide (a ≤ c.1 ∧ c.1 < a + z)
    oldLines := s.nv.lines.filter fun l => decide (a ≤ 32 * l.line ∧ 32 * l.line < a + z)
    oldValid := if o.bank < 2 then 0 else s.g (bankVal o.bank) 0 }

/-- The header of the target is made invalid: MAGIC written 0 (R93, R403). -/
def State.killHeader (o : LongOp) (s : State) : State :=
  let s1 := State.nvPut (nvBase o.bank) [0, 0, 0, 0] (BitVec.ofNat 16 (s.opSeq o)) s
  if o.bank < 2 then State.putChk o.bank 1 s1 else s1.pbit (bankVal o.bank) 0 (o.bank % 2) false

/-- One step of the body. -/
def State.writeBody (o : LongOp) (s : State) : State :=
  let b := nvBase o.bank + (if o.bank < 2 then 0x400 else 0x1000) + 4096 * (o.done - (o.verify + 1))
  if o.data.isEmpty then s else State.nvPut b o.data (BitVec.ofNat 16 (s.opSeq o)) s

/-- The header page of a parameter or calibration bank (R402). -/
def State.parHeader (s : State) (o : LongOp) : List Byte :=
  let h := leBytes 4 (if o.bank < 4 then 0x50384A4B else 0x43384A4B) ++ leBytes 4 (s.opSeq o) ++ leBytes 4 o.len
  h ++ leBytes 4 (crc32c (h ++ bytesAt s.nv.bytes (nvBase o.bank + 0x1000) o.len)).toNat ++ List.replicate 4080 0

/-- The commit point: the header is written, and the bank counts (R57, R359, R403). -/
def State.writeHeader (o : LongOp) (s : State) : State :=
  if o.bank < 2 then
    State.putChk o.bank 0 (State.nvPut (nvBase o.bank) (s.staged 0 0x400) (BitVec.ofNat 16 (s.opSeq o)) s)
  else
    let q := s.opSeq o
    let cal := decide (4 ≤ o.bank)
    let conf : Option (List (Nat × Word)) := match o.kind with
      | .safeCommit _ => some o.config
      | _ => match s.winner false with
        | some w => at' s.nv.config w none
        | none => none
    let s1 := State.nvPut (nvBase o.bank) (s.parHeader o) (BitVec.ofNat 16 q) s
    let s2 := ((s1.pbit (bankVal o.bank) 0 (o.bank % 2) true).p (if cal then NVS.BANKSTAT_CWIN else NVS.BANKSTAT_PWIN) 0
      (o.bank % 2)).setWord (if cal then NVS.CSEQ else NVS.PSEQ) 0 (BitVec.ofNat 32 q)
    if cal then { s2 with bgs := { s2.bgs with committed := o.trims } } else { s2 with nv := { s2.nv with config := upd s2.nv.config (o.bank % 2) fun _ => conf } }

/-- The session of a SAFE_COMMIT ends with it, if it is still open (R357). -/
def State.sessDone (o : LongOp) (tag : Nat) (s : State) : State :=
  match s.safe.sess with
  | some x => if x.sid = o.sid then State.sessEnd tag s else s
  | none => s

/-- A SAFE_COMMIT reaches its commit point: locked, or for an UNLOCK session unlocked (R359, R361). -/
def State.lockApply (o : LongOp) (s : State) : State :=
  match o.kind with
  | .safeCommit unlock =>
    State.sessDone o (if unlock then 4 else 3) (s.pb SAFE.STAT_LOCKED 0 !unlock).guarUpdate
  | _ => s

/-- The end of one step of an operation that writes a bank (R93, R403): the last of the checking steps gives the verdict,
then the header goes, the body follows, and the header is last. -/
def State.bankStep (o : LongOp) (s : State) : LongOp × State :=
  if s.nvFailed then ({ o with err := eNVCHK }, s)
  else if o.done < o.verify then
    match o.kind with
    | .imgCommit => (if o.done + 1 = o.verify then { o with err := s.stagedCode } else o, s)
    | _ => (o, s)
  else if o.done = o.verify then (s.keepBank o, State.killHeader o s)
  else if o.done + 1 < o.total then (o, State.writeBody o s)
  else (o, State.lockApply o (State.writeHeader o s))

/-! The steps of a self-test and of a calibration. -/

/-- Replace a stretch of the trims by measured ones. -/
def spliceTrims (old : List Word) (start n : Nat) (new : List Word) : List Word :=
  let m := new.take n
  old.take start ++ m ++ old.drop (start + m.length)

/-- The trims of a calibration take effect (R395): 84 words of M0–M23, then 64 of CMP0–CMP31 (log entry 31). -/
def State.calDone (tg : BitVec 2) (new : List Word) (s : State) : State :=
  let t := if tg = 0 then spliceTrims s.bgs.trims 0 84 new
    else if tg = 1 then spliceTrims s.bgs.trims 84 64 new else spliceTrims s.bgs.trims 0 148 new
  let s1 := { s with bgs := { s.bgs with trims := t } }
  let s2 := if tg = 1 then s1 else s1.pb BGS.CALSTAT_CONV 0 true
  let s3 := if tg = 0 then s2 else s2.pb BGS.CALSTAT_CMP 0 true
  if s3.gb BGS.CALSTAT_CONV 0 && s3.gb BGS.CALSTAT_CMP 0 then s3.pb BGS.CALSTAT_DEFAULT 0 false else s3

/-- The block a failing slice of an island's self-test belongs to (R388). -/
def bistBlock (isl : Nat) (r : SliceResult) : SliceBlock :=
  if 2 ≤ isl ∧ isl ≤ 17 then .engine (Fin.ofNat 16 (isl - 2))
  else if isl = 18 && r.kind == 0 then .bank (Fin.ofNat 16 (r.addr.toNat / 0x200000))
  else .island (Fin.ofNat 26 isl)

/-- An engine's self-test waits for its drain (R181). -/
def State.bistWaits (s : State) (isl : Nat) : Bool := decide (2 ≤ isl ∧ isl ≤ 17) && s.est (isl - 2) == eDRAIN

/-- The soft repairs of an island go into fuses, as far as they hold (R390). -/
def State.burnRepairs (isl : Nat) (s : State) : State :=
  let k := 512 - s.fuses.burned.length
  let rest := s.bgs.softRepairs.filter fun m => (spareIsl m) != isl
  let s1 := { s with
    fuses := { s.fuses with burned := s.fuses.burned ++ (s.unburned isl).take k }
    bgs := { s.bgs with softRepairs := rest ++ (s.unburned isl).drop k } }
  s1.p NVS.FUSESTAT_REPUSED 0 s1.fuses.burned.length

/-- The engine of a self-test is given back (R165). -/
def State.bistGive (isl : Nat) (s : State) : State :=
  let e := isl - 2
  if 2 ≤ isl ∧ isl ≤ 17 ∧ s.est e = eTEST ∧ !s.bgs.slices.contains (.engine (Fin.ofNat 16 e)) then (State.setEst e eSPARE 0 s).plc
  else s

/-! The end of a step, and of an operation (R91, R94 to R96). -/

/-- The operation is over: its token, OP_DONE, the staging buffer of an IMG_COMMIT, and an abort that has waited. -/
def State.opEnd (o : LongOp) (st : Nat) (c : Code) (s : State) : State :=
  let fin : Finished := ⟨o.token, st, c, o.done, o.total⟩
  let s1 := { s with
    ops := s.ops.filter fun x => x.token != o.token
    ports := s.ports.set o.port { s.ports[o.port] with finished := (fin :: s.ports[o.port].finished).take 4 }
    staging := if o.kind == OpKind.imgCommit then none else s.staging }
  let s2 := s1.raiseFull 18 0x40 0 o.token c (some o.port)
  match o.abort with
  | none => s2
  | some (n, _) => State.finish n eOK [if st = 1 then 1 else 0] s2

/-- A bank whose writing was stopped is as before; an image bank reads as invalid (R95). -/
def State.undoBank (o : LongOp) (s : State) : State :=
  if o.done < o.verify + 1 ∨ o.bank < 2 then s
  else
    let a := nvBase o.bank
    let z := nvSize o.bank
    let b0 := s.nv.bytes.filter fun c => !decide (a ≤ c.1 ∧ c.1 < a + z)
    let l0 := s.nv.lines.filter fun l => !decide (a ≤ 32 * l.line ∧ 32 * l.line < a + z)
    let b1 := o.oldBytes.foldl (fun m c => putByte m c.1 c.2) b0
    ({ s with nv := { s.nv with bytes := b1, lines := l0 ++ o.oldLines } }).p (bankVal o.bank) 0 o.oldValid

/-- What the end of a step does by the operation's kind: the operation, and the state. -/
def State.kindStep (o : LongOp) (r : OpStepResult) (s : State) : LongOp × State :=
  match o.kind with
  | .bist isl _ burn =>
    let s1 := if r.slice.failed then State.sliceFailed (bistBlock isl r.slice) r.slice s else s
    let o1 := if r.slice.failed then { o with err := eSAFETY } else o
    if o.done + 1 < o.total then (o1, s1)
    else (o1, if burn && o1.err == eOK then State.burnRepairs isl s1 else s1)
  | .cal tg =>
    let o1 := { o with trims := o.trims ++ r.trims }
    if o.done + 1 < o.total then (o1, s) else (o1, State.calDone tg o1.trims s)
  | .safeCommit true => (o, State.lockApply o s)
  | _ => State.bankStep o s

/-- A check has stopped the operation: a self-test still runs all its slices. -/
def LongOp.stopped (o : LongOp) : Bool :=
  o.err != eOK && match o.kind with
    | .bist .. => false
    | _ => true

/-- An operation that ends early leaves its block. -/
def State.opRelease (o : LongOp) (s : State) : State :=
  match o.kind with
  | .bist isl _ _ => State.bistGive isl s
  | _ => s

/-- One step of operation `o` ends (R93). -/
def State.opStep (o : LongOp) (r : OpStepResult) (s : State) : State :=
  let waits := match o.kind with
    | .bist isl _ _ => s.bistWaits isl && !(o.stop || o.abort.isSome)
    | _ => false
  if waits then s
  else
    let x := State.kindStep o r s
    let o1 := { x.1 with done := o.done + 1 }
    let s1 := x.2
    if o1.stopped then State.opEnd o1 3 o1.err (State.opRelease o1 s1)
    else if o1.total ≤ o1.done then
      if o1.err = eOK then State.opEnd o1 1 eOK (State.opRelease o1 s1) else State.opEnd o1 3 o1.err (State.opRelease o1 s1)
    else if o1.stop || o1.abort.isSome then State.opEnd o1 2 eABORTED (State.opRelease o1 (State.undoBank o1 s1))
    else
      let y := State.readAhead o1 s1
      { y.2 with ops := y.2.ops.map fun z => if z.token == o.token then y.1 else z }

/-! OP_STATUS and OP_ABORT (R94, R95). -/

/-- A finished operation. -/
def State.finishedOp (s : State) (tok : Word) : Option Finished :=
  (s.ports.toList.flatMap (·.finished)).find? fun x => x.token == tok

/-- A pending operation. -/
def State.pendingOp (s : State) (tok : Word) : Option LongOp := s.ops.find? fun o => o.token == tok

/-- OP_STATUS (R91, R94). -/
def State.opOpStatus (n : Fin 4) (f : Frame) (s : State) : State :=
  s.orReject n f (gate false (s.barred false) (resvSet f.arg 0x3F000000) (!f.payload.isEmpty)) fun s =>
    match s.pendingOp f.arg, s.finishedOp f.arg with
    | some o, _ => s.reply n f eOK [0, BitVec.ofNat 32 o.done, BitVec.ofNat 32 o.total]
    | none, some x =>
      s.reply n f eOK [BitVec.ofNat 32 (x.code.toNat * 65536 + x.state), BitVec.ofNat 32 x.done, BitVec.ofNat 32 x.total]
    | none, none => s.reply n f eRANGE []

/-- The port that a token names (R91). -/
def tokenPort (tok : Word) : Fin 4 := Fin.ofNat 4 (tok.toNat / 2 ^ 30)

/-- OP_ABORT (R91, R95). -/
def State.opOpAbort (n : Fin 4) (f : Frame) (s : State) : State :=
  s.orReject n f (gate false (s.barred false) (resvSet f.arg 0x3F000000) (!f.payload.isEmpty)) fun s =>
    match s.pendingOp f.arg, s.finishedOp f.arg with
    | none, none => s.reply n f eRANGE []
    | none, some _ => if tokenPort f.arg = n then s.reply n f eOK [1] else s.reply n f eOWNER []
    | some o, _ =>
      if o.port ≠ n then s.reply n f eOWNER []
      else
        State.hold n f (.abort f.arg)
          { s with ops := s.ops.map fun x => if x.token == o.token then { x with abort := some (n, f.tag) } else x }

end Sys2Proof.Machine
end

