-- ==== Sys2Proof/Machine/HostSafe.lean ====
section
/-! DEFINITION. Safety sessions and the commit of the safety configuration: SAFE_OPEN, SAFE_CONFIRM and SAFE_COMMIT
(R357 to R361). -/

namespace Sys2Proof.Machine

/-- What every action of SAFE_OPEN is checked for first: the port, the mode, reserved bits, and a defined action (R357). -/
def State.openGate (s : State) (n : Fin 4) (arg : Word) : Code :=
  let act := bits arg.toNat 0 3
  firstCode [
    (!s.gb HOST.RIGHTS_SAFEOWN n, eRIGHTS),
    (s.mode != mCONFIGURE, eMODE),
    (resvSet arg 0x0000FFF8 || (act != 2 && resvSet arg 0xFFFF0000), eRESV),
    (!(act == 0 || act == 1 || act == 2 || act == 4), eENUM)]

/-- OPEN and UNLOCK (R357): a session with a fresh SID and NONCE. -/
def State.sessOpen (n : Fin 4) (f : Frame) (unlock : Bool) (s : State) : State :=
  let locked := s.gb SAFE.STAT_LOCKED
  s.orReject n f (firstCode [
      (!unlock && locked, eLOCKED), (unlock && !locked, eRANGE),
      (s.safe.sess.isSome || decide (s.tbase < s.safe.sessBar), eSESSION),
      (!f.payload.isEmpty, eLEN)]) fun s =>
    let sid := BitVec.ofNat 16 s.free.toNat
    let nonce := s.used.free
    let d := bytesWords s.digest
    let s1 := { s.used.used with safe := { s.safe with sess := some ⟨sid, nonce, d, n, unlock, false, 0, s.tbase⟩ } }
    State.reply n f eOK (BitVec.ofNat 32 sid.toNat :: nonce :: d) (s1.sessRegs.raise 1 0xC9 0)

/-- CLOSE (R357). -/
def State.sessClose (n : Fin 4) (f : Frame) (s : State) : State :=
  let known := match s.safe.sess with
    | some x => x.sid.toNat == bits f.arg.toNat 16 16
    | none => false
  s.orReject n f (firstCode [(!known, eSESSION), (!f.payload.isEmpty, eLEN)]) fun s =>
    (State.sessEnd 2 s).reply n f eOK []

/-- SETSEED (R357, R392). -/
def State.sessSeed (n : Fin 4) (f : Frame) (s : State) : State :=
  s.orReject n f (firstCode [
      (s.gb NVS.KEYSTAT_ZERO, eSAFETY), (s.gb SAFE.STAT_LOCKED, eLOCKED), (s.safe.sess.isSome, eSESSION),
      (f.payload.length != 8, eLEN), (f.payload.all (· == 0), eRANGE)]) fun s =>
    (State.sessRegs { s with safe := { s.safe with seeds := s.safe.seeds.set n (some f.payload) } }).reply n f eOK []

/-- SAFE_OPEN (R357). -/
def State.opSafeOpen (n : Fin 4) (f : Frame) (s : State) : State :=
  s.orReject n f (s.openGate n f.arg) fun s =>
    match bits f.arg.toNat 0 3 with
    | 0 => State.sessOpen n f false s
    | 1 => State.sessOpen n f true s
    | 2 => State.sessClose n f s
    | _ => State.sessSeed n f s

/-! SAFE_CONFIRM (R358). -/

/-- The token a session wants from the SAFEOWN port: bytes 0–7 of the HMAC over SID, NONCE and D (R358). -/
def sessToken (x : Session) (seed : List Word) : List Word :=
  bytesWords ((hmac384 (wordBytes seed) (leBytes 2 x.sid.toNat ++ leBytes 4 x.nonce.toNat ++ wordBytes x.digest)).take 8)

/-- The payload confirms session `x` from port `n` (R358). -/
def State.confirms (s : State) (n : Fin 4) (x : Session) (pl : List Word) : Bool :=
  pl.take 12 == x.digest
    && (!s.gb HOST.RIGHTS_SAFEOWN n || match s.safe.seeds[n] with
        | some k => pl.drop 12 == sessToken x k
        | none => false)

/-- A wrong confirmation: the third ends the session, and bars a new one for 10 s (R357, R358). -/
def State.confirmFails (x : Session) (s : State) : State :=
  if x.fails = 2 then
    let s1 := State.sessEnd 2 s
    { s1 with safe := { s1.safe with sessBar := s.tbase + 2000000000 } }
  else State.sessRegs { s with safe := { s.safe with sess := some { x with fails := x.fails + 1 } } }

/-- SAFE_CONFIRM (R358). -/
def State.opSafeConfirm (n : Fin 4) (f : Frame) (s : State) : State :=
  s.orReject n f (gate false (s.barred false) (resvSet f.arg 0xFFFF0000) false) fun s =>
    match s.safe.sess with
    | none => s.reply n f eSESSION []
    | some x =>
      if x.sid.toNat ≠ bits f.arg.toNat 0 16 then s.reply n f eSESSION []
      else if f.payload.length ≠ (if s.gb HOST.RIGHTS_SAFEOWN n then 14 else 12) then s.reply n f eLEN []
      else if x.conf then s.reply n f eOK []
      else if s.confirms n x f.payload then
        ((State.sessRegs { s with safe := { s.safe with sess := some { x with conf := true } } }).raise 1 0xC9 1).reply n f eOK []
      else (State.confirmFails x s).reply n f eCONFIRM []

/-! SAFE_COMMIT (R359). -/

/-- The safety configuration as it stands: every RWL word with its address (R356). -/
def State.rwlConfig (s : State) : List (Nat × Word) := rwlRegs.map fun x => (x.1, s.rwlWord x.2.1 x.2.2)

/-- The body length SAFE_COMMIT writes: its SAFETY section, and the winner's USER section (R403). -/
def State.safeLen (s : State) : Nat :=
  match s.winner false with
  | some w => s.nvNat (nvBase (parBank false w) + 8) 4
  | none => safetyLen

/-- The checks of SAFE_COMMIT on its session, and whether their failure ends it (R359). -/
def State.commitCode (s : State) (n : Fin 4) (x : Session) : Code × Bool :=
  if !x.unlock && s.gb NVS.KEYSTAT_CLOSED then (eRIGHTS, false)
  else if !x.conf then (eCONFIRM, true)
  else if !x.unlock && s.commitBad then (eRANGE, true)
  else
    (firstCode [
      (!x.unlock && s.nvFailed, eNVCHK),
      (s.limits n (.safeCommit x.unlock) != eOK, s.limits n (.safeCommit x.unlock)),
      (!x.unlock && decide (2 ^ 32 ≤ s.nextSeq false), eNOSPACE)], false)

/-- The open session is an UNLOCK session, whose commit writes no bank. -/
def State.unlocking (s : State) : Bool :=
  match s.safe.sess with
  | none => false
  | some x => x.unlock

/-- SAFE_COMMIT (R359); while NVST is closed only for an UNLOCK session (R52, R392). -/
def State.opSafeCommit (n : Fin 4) (f : Frame) (s : State) : State :=
  s.orReject n f (gate (!s.gb HOST.RIGHTS_SAFEOWN n || (s.gb NVS.KEYSTAT_CLOSED && !s.unlocking)) (s.barred true)
      (resvSet f.arg 0xFFFF0000) (!f.payload.isEmpty)) fun s =>
    match s.safe.sess with
    | none => s.reply n f eSESSION []
    | some x =>
      if x.sid.toNat ≠ bits f.arg.toNat 0 16 then (State.sessEnd 2 s).reply n f eSESSION []
      else
        let c := s.commitCode n x
        if c.1 = eOK then
          let o := LongOp.init n (.safeCommit x.unlock) (if x.unlock then 1 else 3 + (s.safeLen + 4095) / 4096)
          s.opBegin n f { o with
            len := s.safeLen, config := s.rwlConfig, sid := x.sid, bank := parBank false (s.nvTarget false) }
        else (if c.2 then State.sessEnd 2 s else s).reply n f c.1 []

end Sys2Proof.Machine
end

