-- ==== Sys2Proof/Machine/HostMode.lean ====
section
/-! DEFINITION. MODE_REQ (R41 to R45, R63, R65, R66, R182, R207, R435). -/

namespace Sys2Proof.Machine

/-- A cause to stay in SAFE is present (R435). -/
def State.causePresent (s : State) : Bool :=
  (s.g SYS.MODE_CAUSE == 3 && s.stoDemand)
  || !s.pwr.refinOk || s.pwr.fltCause || s.pwr.tbaseFault || s.gb PYR.STAT_CANFAIL || s.gb NVS.KEYSTAT_SCAN || s.safe.hot
  || s.pwr.good != 0xFF
  || s.boot.bistFail
  || (s.g SYS.MODE_CAUSE == 7 && s.gb SAFE.GCFG_DEVSAFE && ((List.range 8).any (s.gb SAFE.FST_LATCH ·) || s.greactActs))

/-- Every bridge is in STO (R41). -/
def State.allSto (s : State) : Bool := s.allUnits.all fun u => s.g FBRK.BRST_PAT u == 2

/-- RUN to READY is safe: every bridge is in STO, or its speed is known and below its crossover (R41). -/
def State.slowEnough (s : State) : Bool :=
  s.allUnits.all fun u => s.g FBRK.BRST_PAT u == 2 || match s.choiceSpeed u with
    | none => false
    | some v => decide (absI v < (s.g FBRK.BRXO_XOVER u : Int) * 65536)

/-- Every protection source of bridge `b`, its link's overvoltage comparator with them, has left its reset level (R41,
R61, R62, R277). -/
def State.bridgeReady (s : State) (b : Nat) : Bool :=
  let o := if s.topo b = 3 then b - 1 else b
  ([0, 1, 2].all fun x => (s.sourcesOf o x).all fun i => s.srcLeft i true && s.srcLeft i false)
    && match s.linkOf b with
      | some l => s.srcLeft (s.g DCL.CFG_OVCMP l) true
      | none => true

/-- Every bridge with an admitted F-class task has its protection running (R41). -/
def State.protReady (s : State) : Bool :=
  s.tasks.all fun t => t.d.cls != 0 || t.d.driven.all s.bridgeReady

/-- Latched demands that SAFE entry alone caused go with it (R263). -/
def State.leaveSafe (s : State) : State :=
  overL s.allUnits (fun u s => if (at' s.units u UnitSt.none).onlySafe then State.releaseDemand u s else s) s

/-- The gates that bench mode let go high fall with it (R45). -/
def State.benchOff (s : State) : State :=
  overL s.allUnits (fun u s => if s.demanded u || s.forcedSto u then s else State.setPat u 1 (s.unitOff u)) s

/-- A requested transition is completed (R43), and the command answered. In RUN an axis whose demand was released before
leaves SAFE (R214). -/
def State.modeDone (n : Fin 4) (f : Frame) (new : Nat) (s : State) : State :=
  let bench := f.arg.toNat.testBit 8
  let s1 := if s.gb SYS.MODE_BENCH && !bench then s.benchOff else s
  let s2 := if s1.mode = mSAFE then s1.leaveSafe else s1
  let s3 := State.transition new 2 (some n) s2
  let s3 := if new = mRUN then overL s3.allUnits State.axesFree s3 else s3
  (s3.pb SYS.MODE_BENCH 0 bench).reply n f eOK []

/-- A watched safe input is fed by a test-pulse output (R63). -/
def State.watchTpo (s : State) : Bool :=
  (List.range 16).any fun c => s.gbit CNPY.WATCH_EN 0 (4 + c) && s.gb SAFE.SIN_EN (c / 2)
    && decide (s.g (if c % 2 = 0 then SAFE.SIN_TPA else SAFE.SIN_TPB) (c / 2) < 8)

/-- The RTC count, in periods of 32.768 kHz (R63). -/
def State.rtcCount (s : State) : Nat := s.rtc * 32768 / 200000000 % 2 ^ 32

/-- A watched wake source is active (R66): one reported so, or the alarm, whose count is now. -/
def State.watchActive (s : State) : Bool :=
  s.pwr.wakeActive &&& BitVec.ofNat 23 (s.g CNPY.WATCH_EN) != 0
    || (s.gbit CNPY.WATCH_EN 0 3 && s.rtcCount == (s.word CNPY.RTCALM).toNat)

/-- What keeps the KJ8 out of SLEEP, its wake sources apart (R41, R182). -/
def State.sleepBarred (s : State) : Bool :=
  (List.range 48).any s.padCmd || !s.ops.isEmpty || (List.range 16).any (fun e => s.est e == eDRAIN)
    || s.gb CNPY.STAT_RTCBAD
    || (s.mode == mSAFE && (List.finRange 4).any fun l => s.gb DCL.CFG_EN l && !s.below60 l)

/-- MODE_REQ SLEEP (R41, R63, R65, R66): once accepted, NV writes are completed and it is answered at the next tick, and the
domains are switched off at the one after. -/
def State.modeSleep (n : Fin 4) (f : Frame) (s : State) : State :=
  let s1 := if s.watchTpo then s.pb CNPY.STAT_WATCHTPO 0 true else s
  let s2 := if s.watchActive then s1.pb CNPY.STAT_WAKEPEND 0 true else s1
  if s.sleepBarred || s.watchTpo || s.watchActive then s2.reply n f eMODE []
  else State.hold n f .sleep { s2 with pwr := { s2.pwr with entering := .accepted } }

/-- The transitions of R41, with the codes that refuse them. -/
def State.modeGo (n : Fin 4) (f : Frame) (tgt : Nat) (s : State) : State :=
  if (s.mode = mCONFIGURE ∨ s.mode = mREADY ∨ s.mode = mSAFE) ∧ tgt = mSLEEP then State.modeSleep n f s
  else if s.mode = mCONFIGURE ∧ tgt = mREADY then
    s.orReject n f (firstCode [
        (s.bootedBank.isNone, eSIG), (s.tasks.any fun t => t.d.kind == 1, eMODE),
        (!s.gb SAFE.STAT_LOCKED || s.gb PYR.STAT_DBGDIV, eSAFETY)]) (State.modeDone n f tgt)
  else if s.mode = mREADY ∧ tgt = mRUN then
    s.orReject n f (firstCode [
        (s.stoDemand || s.gb SAFE.STAT_STOFLT || !s.gb SAFE.STAT_RSTOK || !s.protReady, eSAFETY)]) (State.modeDone n f tgt)
  else if s.mode = mRUN ∧ tgt = mREADY then
    s.orReject n f (if s.slowEnough then eOK else eSAFETY) (State.hold n f .runToReady)
  else if s.mode = mREADY ∧ tgt = mCONFIGURE then State.modeDone n f tgt s
  else if s.mode = mSAFE ∧ tgt = mCONFIGURE then
    s.orReject n f (if s.causePresent || !s.allSto then eSAFETY else eOK) (State.modeDone n f tgt)
  else if s.mode = mSAFE ∧ tgt = mREADY then
    s.orReject n f (firstCode [
        (s.bootedBank.isNone, eSIG),
        (s.causePresent || !s.allSto || !s.gb SAFE.STAT_RSTOK || !s.gb SAFE.STAT_LOCKED || s.gb PYR.STAT_DBGDIV, eSAFETY)])
      (State.modeDone n f tgt)
  else s.reply n f eMODE []

/-- What a MODE_REQ is checked for before the transition it asks (R2, R40 to R42, R49, R51). -/
def State.modeCode (s : State) (n : Fin 4) (f : Frame) : Code :=
  let tgt := bits f.arg.toNat 0 3
  firstCode [
    (tgt != mSAFE && !s.gb HOST.RIGHTS_SAFEOWN n, eRIGHTS),
    (s.scrapped || tgt == mBOOT || ((s.mode == mBOOT || s.booting) && tgt != mSAFE), eMODE),
    (resvSet f.arg 0xFFFFFEF8, eRESV),
    (!f.payload.isEmpty, eLEN),
    (decide (5 < tgt), eENUM),
    (f.arg.toNat.testBit 8 && tgt != mCONFIGURE, eRANGE),
    (s.boot.bistFail && tgt != mSAFE, eSAFETY)]

/-- MODE_REQ (R41, R42). -/
def State.opModeReq (n : Fin 4) (f : Frame) (s : State) : State :=
  let tgt := bits f.arg.toNat 0 3
  s.orReject n f (s.modeCode n f) fun s =>
    if tgt = mSAFE then (State.enterSafe 2 (some n) s).reply n f eOK []
    else if tgt = s.mode then
      if tgt = mCONFIGURE ∧ f.arg.toNat.testBit 8 ≠ s.gb SYS.MODE_BENCH then State.modeDone n f tgt s
      else s.reply n f eOK []
    else State.modeGo n f tgt s

/-- The port waits for a RUN to READY. -/
def Port.toReady (x : Port) : Bool :=
  match x.busy with
  | some (_, .runToReady) => true
  | _ => false

/-- RUN to READY is completed once every bridge has turned its switches off (R41): an axis that is not OFF becomes IDLE
(R214), and the request is answered. -/
def State.runToReadyDone (s : State) : State :=
  match (List.finRange 4).find? (fun n => s.ports[n].toReady) with
  | none => s
  | some n =>
    if (s.allUnits.all fun u => (at' s.units u UnitSt.none).stopped) && (List.range 48).all (fun n => !s.padCmd n) then
      let us := s.units.map fun x => { x with stopped := false }
      State.finish n eOK [] (State.transition mREADY 2 (some n) ({ s with units := us }).axesIdle)
    else s

end Sys2Proof.Machine
end

