-- ==== Sys2Proof/Machine/HostServe.lean ====
section
/-! DEFINITION. Serving the host ports (R71 to R79): each port's frames are taken in order, one at a time, when they
arrive and whenever what the port waited for is over; and the SPI transactions. -/

namespace Sys2Proof.Machine

/-- Carry out a command that has passed its frame checks (R82). -/
def State.dispatch (n : Fin 4) (f : Frame) (s : State) : State :=
  match f.opc.toNat with
  | 0x01 => State.opStatusWords n f s
  | 0x02 => State.opRead n f s
  | 0x03 => State.opWrite n f s
  | 0x04 => State.opDoorbell n f s
  | 0x10 => State.opImgLoad n f s
  | 0x11 => State.opImgCommit n f s
  | 0x20 => State.opTaskAdmit n f s
  | 0x21 => State.opTaskRetire n f s
  | 0x22 => State.opTaskMailbox n f s
  | 0x30 => State.opModeReq n f s
  | 0x40 => State.opNvCommit n f s
  | 0x41 => State.opBistRun n f s
  | 0x42 => State.opCalRun n f s
  | 0x50 => State.opSafeOpen n f s
  | 0x51 => State.opSafeConfirm n f s
  | 0x52 => State.opSafeCommit n f s
  | 0x60 => State.opTelemSub n f s
  | 0x61 => State.opTelemUnsub n f s
  | 0x70 => State.opOpStatus n f s
  | 0x71 => State.opOpAbort n f s
  | _ => s.reply n f eOPC []

/-- The opcodes of R82. -/
def opcodes : List Nat :=
  [0x01, 0x02, 0x03, 0x04, 0x10, 0x11, 0x20, 0x21, 0x22, 0x30, 0x40, 0x41, 0x42, 0x50, 0x51, 0x52, 0x60, 0x61, 0x70, 0x71]

/-- A frame waits for a RUN to READY, or an entry to SLEEP, of another port: the transitions are taken in their order
(R43). SAFE does not wait. -/
def State.frameWaits (s : State) (f : Frame) : Bool :=
  f.opc == 0x30 && f.st == eOK && bits f.arg.toNat 0 3 != mSAFE && (s.toReady || s.pwr.entering != .idle)

/-- Take the frame at the head of Q(2n) (R79, R98). -/
def State.takeFrame (n : Fin 4) (f : Frame) (l : List Frame) (s : State) : State :=
  State.setWord { s with ports := s.ports.set n { s.ports[n] with cmds := l, busy := some (f, .serving) } }
    QUE.QHEAD (2 * n.val) (s.word QUE.QHEAD (2 * n.val) + 1)

/-- Take a port's next frame and carry it out; one that failed its checks is answered with its code (R77). -/
def State.serveOne (n : Fin 4) (f : Frame) (l : List Frame) (s : State) : State :=
  let s1 := State.takeFrame n f l s
  if f.st = eOK then State.dispatch n f s1 else s1.reply n f f.st []

/-- The frame that port `n` can be served next, if it has one and does not wait (R79). -/
def State.ready (s : State) (n : Fin 4) : Option (Fin 4 × Frame × List Frame) :=
  match s.ports[n].busy, s.ports[n].cmds with
  | none, f :: l => if s.frameWaits f then none else some (n, f, l)
  | _, _ => none

/-- Serve frames, the earliest arrival first and the lower port number at equal stamps (R43), until every port waits.
`fuel` bounds the frames. -/
def State.serve : Nat → State → State
  | 0, s => s
  | fuel + 1, s =>
    if !s.hostUp then s
    else
      match leastBy (fun (a b : Fin 4 × Frame × List Frame) => decide (a.2.1.came < b.2.1.came))
          ((List.finRange 4).filterMap s.ready) with
      | none => s
      | some (n, f, l) => State.serve fuel (State.serveOne n f l s)

/-- Serve every port (R43, R79). -/
def State.serveAll (s : State) : State := State.serve (s.ports.toList.map fun x => x.cmds.length).sum s

/-- A frame for port `n` comes in, and what can be served is served. -/
def State.cmdArrive (n : Fin 4) (f : Frame) (s : State) : State := (State.enqueue n f s).serveAll

/-- A command frame over SPI (R71): a port carried over Ethernet discards it (R378). -/
def State.spiFrame (n : Fin 4) (f : Frame) (s : State) : State :=
  if !s.spiUp then s
  else if s.gb ETH.HBIND_EN n then s.pb HOST.PSTAT_BADTX n true
  else State.cmdArrive n f s

/-- The frame of a command with its payload (R74); a payload of more than 1,024 words fails the frame checks (R76). -/
def hostFrame (opc : Nat) (tag : BitVec 8) (arg : Word) (pl : List Word) : Frame :=
  ⟨BitVec.ofNat 8 opc, tag, arg, pl, if 1024 < pl.length then eLEN else eOK, 4 * (min 1024 pl.length + 3), 0⟩

/-- A command of port `n` over SPI. -/
def State.host (n : Fin 4) (opc : Nat) (tag : BitVec 8) (arg : Word) (pl : List Word) (s : State) : State :=
  State.spiFrame n (hostFrame opc tag arg pl) s

/-- STATUS (R88). -/
def execStatus (p : Fin 4) (tag : BitVec 8) (arg : Word) (pl : List Word) (s : State) : Out :=
  .next (State.host p 0x01 tag arg pl s)

/-- READ (R83). -/
def execRead (p : Fin 4) (tag : BitVec 8) (arg : Word) (pl : List Word) (s : State) : Out :=
  .next (State.host p 0x02 tag arg pl s)

/-- WRITE (R84). -/
def execWrite (p : Fin 4) (tag : BitVec 8) (arg : Word) (pl : List Word) (s : State) : Out :=
  .next (State.host p 0x03 tag arg pl s)

/-- DOORBELL (R85). -/
def execDoorbell (p : Fin 4) (tag : BitVec 8) (arg : Word) (pl : List Word) (s : State) : Out :=
  .next (State.host p 0x04 tag arg pl s)

/-- IMG_LOAD (R86). -/
def execImgLoad (p : Fin 4) (tag : BitVec 8) (arg : Word) (pl : List Word) (s : State) : Out :=
  .next (State.host p 0x10 tag arg pl s)

/-- IMG_COMMIT (R57). -/
def execImgCommit (p : Fin 4) (tag : BitVec 8) (arg : Word) (pl : List Word) (s : State) : Out :=
  .next (State.host p 0x11 tag arg pl s)

/-- TASK_ADMIT (R87). -/
def execTaskAdmit (p : Fin 4) (tag : BitVec 8) (arg : Word) (pl : List Word) (s : State) : Out :=
  .next (State.host p 0x20 tag arg pl s)

/-- TASK_RETIRE (R87). -/
def execTaskRetire (p : Fin 4) (tag : BitVec 8) (arg : Word) (pl : List Word) (s : State) : Out :=
  .next (State.host p 0x21 tag arg pl s)

/-- The argument of TASK_MAILBOX with DIR set for a read or a write (R82; log entry 4). -/
def withDir (arg : Word) (read : Bool) : Word :=
  BitVec.ofNat 32 (setBits arg.toNat 8 1 (if read == Config.dirRead then 1 else 0))

/-- TASK_MAILBOX_WRITE (R87). -/
def execTaskMailboxWrite (p : Fin 4) (tag : BitVec 8) (arg : Word) (pl : List Word) (s : State) : Out :=
  .next (State.host p 0x22 tag (withDir arg false) pl s)

/-- TASK_MAILBOX_READ (R87). -/
def execTaskMailboxRead (p : Fin 4) (tag : BitVec 8) (arg : Word) (pl : List Word) (s : State) : Out :=
  .next (State.host p 0x22 tag (withDir arg true) pl s)

/-- MODE_REQ (R42). -/
def execModeReq (p : Fin 4) (tag : BitVec 8) (arg : Word) (pl : List Word) (s : State) : Out :=
  .next (State.host p 0x30 tag arg pl s)

/-- NV_COMMIT (R403). -/
def execNvCommit (p : Fin 4) (tag : BitVec 8) (arg : Word) (pl : List Word) (s : State) : Out :=
  .next (State.host p 0x40 tag arg pl s)

/-- BIST_RUN (R388). -/
def execBistRun (p : Fin 4) (tag : BitVec 8) (arg : Word) (pl : List Word) (s : State) : Out :=
  .next (State.host p 0x41 tag arg pl s)

/-- CAL_RUN (R395). -/
def execCalRun (p : Fin 4) (tag : BitVec 8) (arg : Word) (pl : List Word) (s : State) : Out :=
  .next (State.host p 0x42 tag arg pl s)

/-- SAFE_OPEN (R357). -/
def execSafeOpen (p : Fin 4) (tag : BitVec 8) (arg : Word) (pl : List Word) (s : State) : Out :=
  .next (State.host p 0x50 tag arg pl s)

/-- The argument of an action of SAFE_OPEN (R357). -/
def actionArg (hi : BitVec 29) (act : BitVec 3) : Word := hi ++ act

/-- SAFE_UNLOCK (R357). -/
def execSafeUnlock (p : Fin 4) (tag : BitVec 8) (hi : BitVec 29) (pl : List Word) (s : State) : Out :=
  .next (State.host p 0x50 tag (actionArg hi 1) pl s)

/-- SAFE_CLOSE (R357). -/
def execSafeClose (p : Fin 4) (tag : BitVec 8) (hi : BitVec 29) (pl : List Word) (s : State) : Out :=
  .next (State.host p 0x50 tag (actionArg hi 2) pl s)

/-- SAFE_SETSEED (R357). -/
def execSafeSetseed (p : Fin 4) (tag : BitVec 8) (hi : BitVec 29) (pl : List Word) (s : State) : Out :=
  .next (State.host p 0x50 tag (actionArg hi 4) pl s)

/-- SAFE_CONFIRM (R358). -/
def execSafeConfirm (p : Fin 4) (tag : BitVec 8) (arg : Word) (pl : List Word) (s : State) : Out :=
  .next (State.host p 0x51 tag arg pl s)

/-- SAFE_COMMIT (R359). -/
def execSafeCommit (p : Fin 4) (tag : BitVec 8) (arg : Word) (pl : List Word) (s : State) : Out :=
  .next (State.host p 0x52 tag arg pl s)

/-- TELEM_SUB (R89). -/
def execTelemSub (p : Fin 4) (tag : BitVec 8) (arg : Word) (pl : List Word) (s : State) : Out :=
  .next (State.host p 0x60 tag arg pl s)

/-- TELEM_UNSUB (R89). -/
def execTelemUnsub (p : Fin 4) (tag : BitVec 8) (arg : Word) (pl : List Word) (s : State) : Out :=
  .next (State.host p 0x61 tag arg pl s)

/-- OP_STATUS (R94). -/
def execOpStatus (p : Fin 4) (tag : BitVec 8) (arg : Word) (pl : List Word) (s : State) : Out :=
  .next (State.host p 0x70 tag arg pl s)

/-- OP_ABORT (R95). -/
def execOpAbort (p : Fin 4) (tag : BitVec 8) (arg : Word) (pl : List Word) (s : State) : Out :=
  .next (State.host p 0x71 tag arg pl s)

/-- LONG_OP_STEP (R93): one step of a pending operation ends. -/
def execLongOpStep (tok : Word) (r : OpStepResult) (s : State) : Out :=
  .next (match s.pendingOp tok with
    | none => s
    | some o => (State.opStep o r s).serveAll)

/-- RUN_TO_READY_COMPLETE (R41). -/
def execRunToReadyComplete (s : State) : Out := .next s.runToReadyDone.serveAll

/-! SPI transactions. -/

/-- SPI_BAD_TRANSACTION (R71): a transaction with a code that is not one of the six. -/
def execSpiBadTransaction (p : Fin 4) (code : BitVec 8) (s : State) : Out :=
  .next (if s.spiUp && !([0x5A, 0x5B, 0xA5, 0xA6, 0xE5, 0xE6].contains code) then s.pb HOST.PSTAT_BADTX p.val true else s)

/-- The code of the frame checks on the words clocked in (R76). -/
def frameCode (words : List Word) (partialWord : Bool) : Code :=
  let n := words.length
  let len := bits (words.getD 0 0).toNat 0 16
  firstCode [
    (decide (n < 3) || decide (1027 < n) || partialWord, eLEN),
    (words.getD (n - 1) 0 != crc32c (wordBytes (words.take (n - 1))), eCRC),
    (decide (1024 < len) || len + 3 != n, eLEN),
    (!opcodes.contains (bits (words.getD 0 0).toNat 24 8), eOPC)]

/-- The frame that words make (R74), with the code of its checks. -/
def frameOf (words : List Word) (c : Code) : Frame :=
  let w0 := (words.getD 0 0).toNat
  ⟨BitVec.ofNat 8 (bits w0 24 8), BitVec.ofNat 8 (bits w0 16 8), words.getD 1 0, (words.drop 2).take (bits w0 0 16), c,
   4 * min 1027 words.length, 0⟩

/-- FRAME_INTEGRITY_FAILURE (R76): a transaction whose words are checked one after the other. One that passes every check
is an ordinary command. -/
def execFrameIntegrityFailure (p : Fin 4) (words : List Word) (partialWord : Bool) (s : State) : Out :=
  .next (State.spiFrame p (frameOf words (frameCode words partialWord)) s)

/-- The words of a response frame (R74, R75). -/
def respWords (r : Resp) : List Word :=
  let w := [BitVec.ofNat 32 (r.opc.toNat * 2 ^ 24 + r.tag.toNat * 2 ^ 16 + r.payload.length), BitVec.ofNat 32 r.code.toNat]
    ++ r.payload
  w ++ [crc32c (wordBytes w)]

/-- The empty frame (R73). -/
def emptyFrame : List Word := [0, 0, crc32c (wordBytes [0, 0])]

/-- The frame at the head of port `n`'s responses: the overflow answer, the head of Q(2n+1), or the empty frame (R73,
R78). -/
def State.headFrame (s : State) (n : Fin 4) : List Word :=
  match s.ports[n].ovf, s.ports[n].resps with
  | some r, _ => respWords r
  | none, r :: _ => respWords r
  | none, [] => emptyFrame

/-- The frame that a response read of port `n` returns; over Ethernet the SPI port gives the empty one (R378). -/
def State.respFrame (s : State) (n : Fin 4) : List Word := if s.gb ETH.HBIND_EN n then emptyFrame else s.headFrame n

/-- What an event read of port `n` returns: the record at the head of its queue, or four words of ones, with their CRC
(R73, R75). -/
def State.eventFrame (s : State) (n : Fin 4) : List Word :=
  let w := if s.gb ETH.HBIND_EN n || s.qLevel (8 + n.val) == 0 then List.replicate 4 0xFFFFFFFF
    else s.qEntry (8 + n.val) (s.word QUE.QHEAD (8 + n.val)).toNat
  w ++ [crc32c (wordBytes w)]

/-- The first words of a frame are clocked out at port `n`; beyond its end the pins give zeros (R73). -/
def State.clockOut (n : Fin 4) (frame : List Word) (words : Nat) (s : State) : State :=
  let out := (frame ++ List.replicate (words - frame.length) 0).take words
  { s with ports := s.ports.set n { s.ports[n] with out := out } }

/-- A response leaves port `n`: the overflow answer, or the head of Q(2n+1), if `words` holds all of it (R73, R78). -/
def State.respOut (n : Fin 4) (words : Nat) (s : State) : State :=
  let x := s.ports[n]
  match x.ovf, x.resps with
  | some r, _ => if r.payload.length + 3 ≤ words then { s with ports := s.ports.set n { x with ovf := none } } else s
  | none, r :: l =>
    if r.payload.length + 3 ≤ words then
      State.setWord { s with ports := s.ports.set n { x with resps := l } } QUE.QHEAD (2 * n.val + 1)
        (s.word QUE.QHEAD (2 * n.val + 1) + 1)
    else s
  | none, [] => s

/-- The SPI ports serve reads, up to the end of an entry to SLEEP (R13, R65). -/
def State.spiReads (s : State) : Bool := s.memfUp && s.islandUp 22

/-- RESPONSE_READ (R73): a port carried over Ethernet keeps its responses (R378). -/
def execResponseRead (p : Fin 4) (words : Nat) (s : State) : Out :=
  .next (if s.spiReads then
      let s1 := State.clockOut p (s.respFrame p) words s
      if s.gb ETH.HBIND_EN p then s1 else State.respOut p words s1
    else s)

/-- Records leave Q(8+n). -/
def State.eventsOut (n : Fin 4) (cnt : Nat) (s : State) : State :=
  s.setWord QUE.QHEAD (8 + n.val) (s.word QUE.QHEAD (8 + n.val) + BitVec.ofNat 32 (min cnt (s.qLevel (8 + n.val))))

/-- EVENT_READ (R73): the record leaves once its four words and their CRC have been clocked out. -/
def execEventRead (p : Fin 4) (words : Nat) (s : State) : Out :=
  .next (if s.spiReads then
      let s1 := State.clockOut p (s.eventFrame p) words s
      if s.gb ETH.HBIND_EN p || decide (words < 5) then s1 else State.eventsOut p 1 s1
    else s)

end Sys2Proof.Machine
end

