-- ==== Sys2Proof/Machine/NetHost.lean ====
section
/-! DEFINITION. Received Ethernet frames (R377) and host transport over Ethernet (R378). -/

namespace Sys2Proof.Machine

/-- The peer address of host context `n` (R378). -/
def State.peerOf (s : State) (n : Nat) : List Byte := addr6 (s.word ETH.HPEER n) (BitVec.ofNat 32 (s.g ETH.HBIND_PEERH n))

/-- The host context a host-transport frame is for, if it is bound so (R378). -/
def State.boundPort (s : State) (m : Nat) (b pay : List Byte) : Option (Fin 4) :=
  let n := (pay.getD 1 0).toNat
  if h : n < 4 then
    if s.gb ETH.HBIND_EN n && s.g ETH.HBIND_MAC n == m && b.take 6 == s.macAddr m && (b.drop 6).take 6 == s.peerOf n
    then some ⟨n, h⟩ else none
  else none

/-- The frame of a command that came over Ethernet, with the code of its checks (R76, R378): its LEN tells where it ends
in the padded payload, and is at most 371. -/
def ethCommand (words : List Word) : Frame :=
  let w0 := (words.getD 0 0).toNat
  let len := bits w0 0 16
  let c := if 371 < len ∨ words.length < len + 3 then eLEN else frameCode (words.take (len + 3)) false
  let f := frameOf words c
  { f with size := 4 * (min 371 len + 3) }

/-- A network doorbell that came over MAC `m` (R373, R378). -/
def State.ethBell (m : Nat) (v : Word) (s : State) : State :=
  let src := bits v.toNat 0 20
  if 0x50000 + 0x10000 * (4 + m) ≤ src ∧ src ≤ 0x5FFFF + 0x10000 * (4 + m) then
    s.raiseFull 23 src (bits v.toNat 20 8) 0 (BitVec.ofNat 16 (4 + m)) none
  else State.ethDrop m s

/-- A host-transport frame (R378). -/
def State.hostEth (m : Nat) (b pay : List Byte) (s : State) : State :=
  let words := bytesWords (pay.drop 4)
  match s.boundPort m b pay with
  | none => State.ethDrop m s
  | some n =>
    match (pay.getD 0 0).toNat with
    | 1 => if s.hostUp then State.cmdArrive n (ethCommand words) s else s
    | 4 => State.ethBell m (words.getD 0 0) s
    | _ => State.ethDrop m s

/-- A frame that MAC `m` has received (R377). -/
def State.ethIn (m : Nat) (f : EthFrame) (s : State) : State :=
  if !s.ethOn m then s
  else
    let x := State.ethCheck m f s
    let et := be16 f.bytes (etAt f.bytes)
    let pay := f.bytes.drop (etAt f.bytes + 2)
    if !x.2 then x.1
    else if et = s.g ETH.ETYPE_SAFEET then State.ethPdu m pay x.1
    else if et = s.g ETH.ETYPE_HOSTET then State.hostEth m f.bytes pay x.1
    else State.netPush (17 + 2 * m) (ethEntry f) f.bytes x.1

/-- ETH_FRAME_RECEIVED (R377). -/
def execEthFrameReceived (m : Fin 2) (f : EthFrame) (s : State) : Out := .next (State.ethIn m f s)

/-- The words of a host-transport payload of port `n`: KIND, PORT and FSEQ, the frames sent before it (DESIGN CHOICE, log
entry 117), and the body (R378). -/
def transportWords (n kind : Nat) (fseq : BitVec 16) (body : List Word) : List Word :=
  BitVec.ofNat 32 (kind + 256 * n + 65536 * fseq.toNat) :: body

/-- The bytes of a host-transport payload: padded with zeros to 46 (R378). -/
def transportBytes (w : List Word) : List Byte := wordBytes w ++ List.replicate (46 - 4 * w.length) 0

/-- A host-transport frame of port `n` has left the MAC (R378): the response it carried, the overflow answer first, or
its records leave their queue, and FSEQ counts. -/
def State.transportSent (n : Fin 4) (events : Bool) (cnt : Nat) (s : State) : State :=
  let x := s.ports[n]
  let some' := if events then cnt != 0 && s.qLevel (8 + n.val) != 0 else x.ovf.isSome || !x.resps.isEmpty
  if s.gb ETH.HBIND_EN n && s.ethOn (s.g ETH.HBIND_MAC n) && some' then
    let q := 8 + n.val
    let k := min (min 64 cnt) (s.qLevel q)
    let body := if events then (List.range k).flatMap fun i => s.qEntry q ((s.word QUE.QHEAD q).toNat + i) else s.headFrame n
    let s1 := { s with ports := s.ports.set n { x with
      fseq := x.fseq + 1, out := transportWords n.val (if events then 3 else 2) x.fseq body } }
    if events then State.eventsOut n k s1 else State.respOut n 1027 s1
  else s

/-- HOST_TRANSPORT_FRAME_SENT (R378). -/
def execHostTransportFrameSent (n : Fin 4) (events : Bool) (cnt : Nat) (s : State) : Out :=
  .next (State.transportSent n events cnt s)

end Sys2Proof.Machine
end

