-- ==== Sys2Proof/Machine/Schedule.lean ====
section
/-! DEFINITION. Period boundaries, the sample frame and the release of steps (R103, R105, R149, R154 to R156, R160, R164,
R171, R206, R211, R226, R227). -/

namespace Sys2Proof.Machine

/-! Frame entries. -/

/-- The flag word of an entry (R149). -/
def flagWord (valid half skip stale disagree : Bool) : Word :=
  BitVec.ofNat 32 ((if valid then 1 else 0) + (if half then 2 else 0) + (if skip then 4 else 0) + (if stale then 8 else 0)
    + if disagree then 16 else 0)

/-- An entry of a failed plausibility group, until FAIL is cleared (R285). -/
def State.disagrees (s : State) (x : Nat × Nat) : Bool :=
  (s.memberCodes x).any fun c => (List.range 32).any fun g => s.inGroup c g && s.gbit DSM.RSTAT_FAIL 0 g

/-- The count and angle of a port are valid (R308). -/
def State.cntValid (s : State) (p : Nat) : Bool :=
  s.posMode p != 0 && (s.port p).cntSet && (s.posMode p != 5 || (s.port p).locked)

/-- The stamp of a port's values: the capture in INC and HALL, else the latest good frame or loop update (R308). -/
def State.posStamp (s : State) (p tick : Nat) : Nat := if 3 ≤ s.posMode p then (s.port p).lastStamp else tick

/-- An entry of a port; none while a frame sampled at or before the boundary is still coming in (R154, R308). -/
def State.posEntry (s : State) (k p tick : Nat) : Option FrameVal :=
  let waits := match (s.port p).inFrame with
    | some t => decide (t ≤ tick)
    | none => false
  if k = 10 then some ⟨s.posStat p, 1, tick⟩
  else if waits then none
  else if k = 5 then some ⟨s.posSpeed p, flagWord (s.gb POS.STAT_SPD_VALID p) false false false false, s.posStamp p tick⟩
  else
    some ⟨if k = 4 then s.word POS.CNT p else s.posAngle p, flagWord (s.cntValid p) false false false false,
      s.posStamp p tick⟩

/-- The most recent sample of an entry that the state holds (R154, R160). -/
def State.latest (s : State) (x : Nat × Nat) (tick : Nat) : Option FrameVal :=
  match x.1 with
  | 1 => some ⟨s.word DSM.RES x.2, flagWord (s.gb DSM.STAT_VALID x.2) false false false (s.disagrees x), (s.dsmCh x.2).stamp⟩
  | 3 => some ⟨s.word ADC.RES x.2,
      flagWord (s.gb ADC.RST_VALID x.2 && s.convValid x.2) (s.gb ADC.RST_HALF x.2) false false (s.disagrees x), (s.cnv x.2).stamp⟩
  | 7 => some ⟨(s.link x.2).vdc, flagWord (s.link x.2).valid false false false false, (s.link x.2).stamp⟩
  | 8 =>
    let c := at' s.cmdin x.2 ⟨[], 0, 0, 0, 0⟩
    some ⟨ofInt c.value, flagWord (s.gb CTL.CMDST_VALID x.2) false false false false, c.stamp⟩
  | 9 => some ⟨s.cmpStat x.2, 1, tick⟩
  | 2 => none
  | k => s.posEntry k x.2 tick

/-- An entry as it stands at a boundary: the DSM and ADC entries of a bridge-synchronous task are sampled there and have
still to come (R154). -/
def State.atBoundary (s : State) (d : Descr) (x : Nat × Nat) : Option FrameVal :=
  if d.byBridge && decide (x.1 ≤ 3) then none else s.latest x s.tbase

/-- An entry that shows a capture (R149, R280). -/
def State.ofCapture (s : State) (x : Nat × Nat) (stale : Bool) (c : Capture) : FrameVal :=
  ⟨ofInt c.code, flagWord c.valid c.half false stale (s.disagrees x), c.tick⟩

/-- What an entry shows without a new sample: with SKIP the last valid sample, with STALE the previous value (R149, R227).
With no such value it is not valid, and its value free (log entry 3). -/
def State.previous (s : State) (t : Task) (i : Nat) (x : Nat × Nat) (skip stale : Bool) : FrameVal :=
  match (if skip then assocGet t.lastValid i else t.prevFrame[i]?) with
  | some v => ⟨v.value, flagWord (v.flags.getLsbD 0) (v.flags.getLsbD 1) skip stale (s.disagrees x), v.stamp⟩
  | none => ⟨Config.freeWord (s.freeCtr + i), flagWord false false skip stale (s.disagrees x), 0⟩

/-! Skipped entries (R226, R227). -/

/-- The frame entry of a member code. -/
def codeEntry (c : Nat) : Nat × Nat := if c < 64 then (1, c) else (3, c - 64)

/-- The other member of a redundant pair of entry `x` (R227, R284). -/
def State.partners (s : State) (x : Nat × Nat) : List (Nat × Nat) :=
  (s.memberCodes x).flatMap fun c => (s.groupsOf c).filterMap fun g =>
    if s.gb DSM.RGRP_TYPE g then none
    else some (codeEntry (if s.g DSM.RGRP_A g = c then s.g DSM.RGRP_B g else s.g DSM.RGRP_A g))

/-- Entry `x` of a task is skipped by axis `n` at sample instant `ts`. -/
def State.entrySkip (s : State) (n ts : Nat) (x : Nat × Nat) : Bool :=
  s.skipped n x ts || (s.partners x).any fun y => s.skipped n y ts

/-- Axis `n` of a bridge-synchronous task skips an entry at this boundary. -/
def State.axisSkips (s : State) (t : Task) (n : Nat) : Bool :=
  t.d.byBridge && t.d.smp.any fun x => (x.1 == 1 || x.1 == 3) && s.entrySkip n s.tbase x

/-! The period boundary (R154). -/

/-- Apply one mailbox request (R87). -/
def State.mailboxDo (t : Nat) (q : MbReq) (s : State) : State :=
  if q.write then State.mboxPut t q.off q.words s
  else
    match s.task? t with
    | none => s
    | some x => State.finish q.port eOK (bytesWords (s.segGet x true false (4 * q.off) (4 * q.count))) s

/-- The mailbox requests that wait for the boundary, in their order (R79, R87). -/
def State.mailboxAll (t : Nat) (s : State) : State :=
  match s.task? t with
  | none => s
  | some x => overL x.reqs (fun q => State.mailboxDo t q) (s.modTask t fun x => { x with reqs := [] })

/-- A retirement that waits for the boundary (R87, R164): SEND of a setup task tells how it ended. -/
def State.retireDue (t : Nat) (s : State) : State :=
  match s.task? t with
  | none => s
  | some x =>
    match x.retire with
    | none => s
    | some (_, send) =>
      let s1 := s.p CTL.TRUN_SEND t send.toNat
      State.dropTask t s1

/-- Demand the captures of a bridge-synchronous task's converters (R280): which of its entries got none. -/
def State.captures : List (Nat × Nat) → State → List Bool × State
  | [], s => ([], s)
  | x :: l, s =>
    if x.1 = 3 ∧ s.convMode x.2 ≠ 0 then
      let y := State.capture x.2 s
      let r := State.captures l y.1
      (y.2.isNone :: r.1, r.2)
    else
      let r := State.captures l s
      (false :: r.1, r.2)

/-- The boundary's samples are taken, and the step waits for its frame (R154). -/
def State.sampleFrame (t : Task) (s : State) : State :=
  let r := if t.d.byBridge then State.captures t.d.smp s else (t.d.smp.map fun _ => false, s)
  let s1 := r.2
  let skip := t.d.smp.map fun x => t.d.byBridge && (x.1 == 1 || x.1 == 3)
    && (s1.axesOfTask t.id).any fun n => s1.entrySkip n s1.tbase x
  let b : Boundary := ⟨s1.tbase, t.d.smp.map (s1.atBoundary t.d), skip, r.1,
    (List.range 8).map fun p => (s1.word POS.CNT p, s1.posStat p)⟩
  s1.modTask t.id fun x => { x with wait := some b }

/-- Mark the step of task `t` as late. -/
def State.markLate (t : Nat) (s : State) : State :=
  { s with engines := s.engines.map fun e => { e with steps := e.steps.map fun x =>
      if x.task == t then { x with late := true } else x } }

/-- What the boundary does with the task's step: none is started while one is in flight, at a step's timeout, or while the
engine is halted (R156, R191, R206). -/
def State.boundaryStep (t : Nat) (s : State) : State :=
  match s.task? t with
  | none => s
  | some x =>
    if (s.eng x.eng).halted then State.lateStep t (State.markLate t s)
    else
      match s.stepOf x with
      | some st => if st.late then s else State.lateStep t (State.markLate t s)
      | none => if x.timedOut = some s.tbase then s else State.sampleFrame x s

/-- PERIOD_BOUNDARY (R154): mailbox requests and a retirement take effect, the supervisor writes its axis words (R211),
and sampling begins. -/
def State.boundary (t : Nat) (s : State) : State :=
  if !s.up || (s.task? t).isNone then s
  else
    let s1 := State.retireDue t (State.mailboxAll t s)
    let s2 := s1.modTask t fun x => { x with lastBoundary := some s.tbase }
    let s3 := overL (s2.axesOfTask t) (fun n s =>
      match s.task? t with
      | none => s
      | some x => State.axisBoundary n (s.axisSkips x n) s) s2
    (State.boundaryStep t s3).serveAll

/-- PERIOD_BOUNDARY (R154). -/
def execPeriodBoundary (t : Fin 256) (s : State) : Out := .next (State.boundary t s)

/-! The release of a step (R103, R105, R154, R171). -/

/-- Entry `i` of the frame, as far as it is there: `arr` is what the sensing paths have delivered, and `late` tells that
half the period has passed. An entry whose converter took no capture shows the converter's previous one (R280). -/
def State.frameEntry (s : State) (t : Task) (b : Boundary) (arr : List (Option Int)) (late : Bool) (i : Nat) :
    Option FrameVal :=
  let x := t.d.smp.getD i (0, 0)
  let stale := s.previous t i x false true
  if b.skip.getD i false then some (s.previous t i x true false)
  else
    match b.frame.getD i none with
    | some v => some v
    | none =>
      if 3 < x.1 then (s.posEntry x.1 x.2 b.tick).or (if late then some stale else none)
      else if b.held.getD i false then
        some (match s.lastCapture x with
          | some c => s.ofCapture x true c
          | none => stale)
      else
        match (State.deliver x b.tick (arr.getD i none) s).2 with
        | some c => some (s.ofCapture x false c)
        | none => if late then some stale else none

/-- The captures a frame has brought are noted (R274, R280). -/
def State.keepFrame (t : Task) (b : Boundary) (arr : List (Option Int)) (s : State) : State :=
  overL (List.range t.d.smp.length) (fun i s =>
    let x := t.d.smp.getD i (0, 0)
    if x.1 ≤ 3 && !b.held.getD i false && (b.frame.getD i none).isNone then (State.deliver x b.tick (arr.getD i none) s).1
    else s) s

/-- The running order of steps (R171): class F, M, S, a begun step before one that is not, the earlier deadline, the lower
ID. Steps that wait for their verdict run no more. -/
def State.runsBefore (s : State) (y x : Step) : Bool :=
  let cls := fun (z : Step) => match s.task? z.task with
    | some t => t.d.cls
    | none => 3
  let dl := fun (z : Step) => z.tick + z.period.toNat
  let begun := y.passB || y.cur.count != 0
  !y.judged && (decide (cls y < cls x)
    || (cls y == cls x && (begun || decide (dl y < dl x) || (dl y == dl x && decide (y.task < x.task)))))

/-- Put a step in its place. -/
def State.insertStep (s : State) (x : Step) (l : List Step) : List Step :=
  l.takeWhile (fun y => s.runsBefore y x) ++ x :: l.dropWhile (fun y => s.runsBefore y x)

/-- Entries present in the queues a task consumes, and free in those it produces, at the start of a step (R129). -/
def State.queueLevels (s : State) (d : Descr) : List (Nat × Nat) :=
  d.que.map fun q => (q.1, if q.2 then s.qN q.1 - s.qLevel q.1 else s.qLevel q.1)

/-- Count and status of every port, for the evaluation of the step's axes: no count where the POSCNT entry came stale
(R231, R309). -/
def portsOf (t : Task) (b : Boundary) (frame : List FrameVal) : List (Option Word × Word) :=
  (List.range 8).map fun p =>
    let y := b.pos.getD p (0, 0)
    match (List.range t.d.smp.length).find? fun i => t.d.smp.getD i (0, 0) == (4, p) with
    | none => (some y.1, y.2)
    | some i =>
      let v := frame.getD i ⟨0, 0, 0⟩
      (if v.flags.getLsbD 3 then none else some v.value, y.2)

/-- The frame entries that hold a new valid sample. -/
def newValid (frame : List FrameVal) : List (Nat × FrameVal) :=
  (List.range frame.length).filterMap fun i =>
    match frame[i]? with
    | some v => if v.flags.getLsbD 0 && !v.flags.getLsbD 2 && !v.flags.getLsbD 3 then some (i, v) else none
    | none => none

/-- The step starts with its frame (R103, R106, R149). The special PERIOD of half a tick over is rounded up (R159; DESIGN
CHOICE, log entry 109). -/
def State.startStep (t : Task) (b : Boundary) (frame : List FrameVal) (s : State) : State :=
  let dbg := s.dbgEngine == some t.eng.val
  let st : Step :=
    { task := t.id, tick := b.tick, period := BitVec.ofNat 32 ((s.period2 t.d + 1) / 2), frame := frame, passB := false,
      cur := t.pass, resA := none, log := [], levels := s.queueLevels t.d, judged := false, debug := dbg, late := false,
      faulted := 0, endStamp := 0 }
  let s1 := { s with freeCtr := s.freeCtr + frame.length }
  let s2 := s1.modTask t.id fun x =>
    { x with wait := none, prevFrame := frame,
             lastValid := (newValid frame).foldl (fun l y => assocPut l y.1 y.2) x.lastValid, posAt := portsOf t b frame, dbgRan := x.dbgRan || dbg }
  s2.modEng t.eng fun e => { e with steps := s2.insertStep st e.steps }

/-- STEP_RELEASE, and SAMPLE_STALE_TIMEOUT with `late` (R154): the step that waits for its frame starts once every entry is
there. -/
def State.release (t : Nat) (arr : List (Option Int)) (late : Bool) (s : State) : State :=
  match s.task? t with
  | none => s
  | some x =>
    match x.wait with
    | none => s
    | some b =>
      let l := (List.range x.d.smp.length).map (s.frameEntry x b arr late)
      if !s.up || l.any (·.isNone) then s
      else State.startStep x b (l.filterMap id) (State.keepFrame x b arr s)

/-- STEP_RELEASE (R154). -/
def execStepRelease (t : Fin 256) (arr : List (Option Int)) (s : State) : Out := .next (State.release t arr false s)

/-- SAMPLE_STALE_TIMEOUT (R154): entries that have not arrived show their previous value with STALE set. -/
def execSampleStaleTimeout (t : Fin 256) (arr : List (Option Int)) (s : State) : Out :=
  .next (State.release t arr true s)

/-! The two rows of a move (R177, R178). -/

/-- The abandoned step of a moving task, as it restarts on the destination (R178): its frame, its boundary and its input
log stay. -/
def restarted (t : Task) (st : Step) : Step :=
  { st with cur := t.pass, passB := false, resA := none }

/-- A step of class S or of a setup task in progress is abandoned for the move (R178). -/
def State.moveRestart (t : Task) (st : Step) (s : State) : State :=
  let s1 := State.commitMove t.id (State.endStep t.id (State.rollback st s))
  match s1.task? t.id with
  | none => s1
  | some x => s1.modEng x.eng fun e => { e with steps := s1.insertStep (restarted x st) e.steps }

/-- The copying of a move has ended. -/
def State.preCopied (t : Nat) (s : State) : State :=
  s.localNew.modTask t fun x => { x with move := x.move.map fun m => { m with copied := true } }

/-- PRECOPY_COMPLETE (R177, R178). -/
def State.precopy (t : Nat) (s : State) : State :=
  match s.task? t with
  | none => s
  | some x =>
    if !s.up || x.move.isNone then s
    else
      match s.stepOf x with
      | some st =>
        if x.d.cls = 2 && !st.judged then State.moveRestart x st (State.preCopied t s) else State.preCopied t s
      | none => State.preCopied t s

/-- PRECOPY_COMPLETE (R177). -/
def execPrecopyComplete (t : Fin 256) (s : State) : Out := .next (State.precopy t s)

/-- MOVE_COMMIT (R177): pre-copy has ended and no step of the task is in progress. -/
def State.moveCommit (t : Nat) (s : State) : State :=
  match s.task? t with
  | none => s
  | some x =>
    let ready := match x.move with
      | some m => m.copied
      | none => false
    if s.up && ready && (s.stepOf x).isNone then (State.commitMove t s).serveAll else s

/-- MOVE_COMMIT (R177). -/
def execMoveCommit (t : Fin 256) (s : State) : Out := .next (State.moveCommit t s)

end Sys2Proof.Machine
end

