-- ==== Sys2Proof/Machine/Power.lean ====
section
/-! DEFINITION. Supplies, resets and SLEEP (R14, R15, R23, R25, R46 to R48, R63 to R66, R408). -/

namespace Sys2Proof.Machine

/-! What survives a reset. -/

/-- A register of Canopy, or SYS.SUPPLY, which Canopy holds (R48, R408). -/
def canopyReg (a : Nat) : Bool :=
  a == SYS.SUPPLY.addr 0 || match blockAt a with
    | some b => b.island == 0
    | none => false

/-- A register that PD_FBRK holds through the reset of the domains on VDDC (R15, R48): the blocks Firebreak serves, those
of the tasks apart, and the mode. -/
def firebreakReg (a : Nat) : Bool :=
  a == SYS.MODE.addr 0 || match blockAt a with
    | some b => b.base ∈ [0x40060000, 0x400A0000, 0x40140000, 0x401A0000]
    | none => false

/-- Every domain is reset: what is not volatile stays, and what waits outside the KJ8. -/
def State.porKeep (s : State) : State :=
  { State.reset with
    fuses := s.fuses
    nv := { s.nv with logPend := [], logSince := 0 }
    safe := { Safety.init with seeds := s.safe.seeds }
    freeCtr := s.freeCtr
    pending := s.pending }

/-- ZERO, CLOSED and SCAN stay until a power-on reset (R392, R393). -/
def State.keyKeep (was s : State) : State :=
  ((s.pb NVS.KEYSTAT_ZERO 0 (was.gb NVS.KEYSTAT_ZERO)).pb NVS.KEYSTAT_CLOSED 0 (was.gb NVS.KEYSTAT_CLOSED)).pb
    NVS.KEYSTAT_SCAN 0 (was.gb NVS.KEYSTAT_SCAN)

/-- What a reset that is no power-on reset leaves: a boot BIST failure (R51, R435), and the wake sources that Canopy
sees active (R66). -/
def State.dipKeep (was s : State) : State :=
  { s with boot := { s.boot with bistFail := was.boot.bistFail }
           pwr := { s.pwr with wakeActive := was.pwr.wakeActive } }

/-- Every domain but PD_CNPY is reset: its registers and its RTC stay. -/
def State.canopyKeep (s : State) : State :=
  State.dipKeep s (State.keyKeep s { s.porKeep with regs := s.regs.filter (fun x => canopyReg x.1), rtc := s.rtc })

/-- A link that Firebreak goes on serving, its times from TBASE 0 on. BOOT permits no discharge: it ends (R45, R267). -/
def Link.rebase (l : Link) : Link :=
  { l with
    valid := false, stamp := 0, period := Option.none, chopOn := false, began := false,
    dsc := Option.none }

/-- A unit that Firebreak goes on serving, its times from TBASE 0 on. -/
def UnitSt.rebase (x : UnitSt) : UnitSt :=
  { x with ascAt := x.ascAt.map (fun p => (0, p.2)), lastChoose := 0, stopped := false }

/-- The domains on VDDC are reset, Firebreak and Canopy not (R15, R48). The configuration is no longer locked, so GUAR
reads 0 (R5). -/
def State.vddcReset (s : State) : State :=
  let s0 := s.porKeep
  let s1 := State.dipKeep s <| State.keyKeep s { s0 with
    regs := s.regs.filter fun x => canopyReg x.1 || firebreakReg x.1
    rtc := s.rtc
    pwr := { s0.pwr with good := s.pwr.good, padLow := s.pwr.padLow, uvPend := s.pwr.uvPend, refinOk := s.pwr.refinOk }
    units := s.units.map UnitSt.rebase
    links := s.links.map Link.rebase
    safe := { s0.safe with fltArm := s.safe.fltArm, sin := s.safe.sin, pair := s.safe.pair, sout := s.safe.sout,
                           condSupply := s.safe.condSupply, condTemp := s.safe.condTemp, hot := s.safe.hot } }
  let s2 := ((s1.pb SAFE.STAT_LOCKED 0 false).pb SAFE.STAT_RSTOK 0 false).setWord PYR.DBGCTL 0 0
  State.guarUpdate ((((s2.p SYS.MODE_PREV 0 s.mode).p SYS.MODE_CAUSE 0 6).pb SYS.MODE_BENCH 0 false).p SYS.MODE_CUR 0 mBOOT)

/-! The release sequence (R46). -/

/-- The wake record, under Canopy's stamp (R64). -/
def State.wakeRecord (s : State) : State :=
  match s.boot.wakeRaise with
  | none => s
  | some i =>
    { s with ev := { s.ev with inFlight := s.ev.inFlight ++
        [⟨BitVec.ofNat 20 (0x20 + i.val), 0, 0, 0, s.pwr.wakeStamp, 0, none, false, none, 0⟩] } }

/-- BOOT begins (R46 step 6), a completed transition (R41, R43): the records that have waited for it are raised (R48, R64),
and what stood until it is over (R13, R202, R435). A boot BIST failure stands until power-on reset (R51). -/
def State.bootBegin (s : State) : State :=
  let s1 := { s with
    pwr := { s.pwr with phase := .running, failed := 0, fltCause := false, tbaseFault := false, uvPend := 0, waking := false,
                        entering := .idle, wakeLatch := none } }
  let s2 := overL ((List.range 8).filter fun k => s.pwr.uvPend.getLsbD k) (fun k s => s.raise 0 0x14 k) s1
  let s3 := s2.wakeRecord.raise 1 0x10 mBOOT
  let s4 := (s3.pb PYR.STAT_CANFAIL 0 false).setWord PYR.LAST 0 0
  { s4 with boot := ⟨1, s.boot.bistFail, none, false⟩ }

/-- The release sequence runs: Canopy stops at step 3 while REFIN fails its check (R46). -/
def State.releaseSeq (s : State) : State :=
  if s.pwr.refinOk then s.bootBegin else { s with pwr := { s.pwr with phase := .refinWait } }

/-- SUPPLIES_GOOD (R46, R48): the last supply has become good. -/
def State.suppliesGood (refinOk xtal : Bool) (s : State) : State :=
  let go := fun (s : State) =>
    State.releaseSeq ({ s with pwr := { s.pwr with good := BitVec.allOnes 8, refinOk := refinOk } }.pb CNPY.STAT_XTAL 0 xtal)
  match s.pwr.phase with
  | .ramp => go s
  | .running => if s.pwr.good = BitVec.allOnes 8 then s else go s.vddcReset
  | _ => s

/-- SUPPLIES_GOOD (R46). -/
def execSuppliesGood (refinOk xtal : Bool) (s : State) : Out := .next (State.suppliesGood refinOk xtal s)

/-- POWER_ON_RESET (R46). -/
def execPowerOnReset (s : State) : Out := .next s.porKeep

/-- REFIN_RETRY (R12, R46). -/
def State.refinRetry (ok : Bool) (s : State) : State :=
  let s1 := { s with pwr := { s.pwr with refinOk := ok } }
  match s.pwr.phase with
  | .refinWait => if ok then s1.bootBegin else s1
  | .running => s1
  | _ => s

/-- REFIN_RETRY (R46). -/
def execRefinRetry (refinOk : Bool) (s : State) : Out := .next (State.refinRetry refinOk s)

/-! A supply fails (R48). -/

/-- Every bridge in STO: ASC cannot be driven (R48). A unit that was in another pattern changes it (R259). -/
def State.stoAll (s : State) : State :=
  overL s.allUnits (fun u s =>
    let s1 := State.demand u 6 false s
    if s1.g FBRK.BRST_PAT u = 2 then s1 else State.takePattern u 6 (2, s1.gb FBRK.BRST_SPDUNK u, false) s1) s

/-- PD_FBRK and everything behind it is reset until VDDF is good again. -/
def State.vddfReset (k : Nat) (s : State) : State :=
  let s1 := s.canopyKeep
  { s1 with pwr := { s1.pwr with good := s.pwr.good, uvPend := s.pwr.uvPend ||| BitVec.ofNat 8 (2 ^ k) } }

/-- A supply other than VDDK fails: the reactions of R48. One that leaves PD_MEMF running raises SUPPLY_UV at once. -/
def State.supplyLost (k : Nat) (s0 : State) : State :=
  let s := (s0.pbit SYS.SUPPLY_UV 0 k true)
  let s1 := { s with pwr := { s.pwr with good := s.pwr.good &&& ~~~BitVec.ofNat 8 (2 ^ k) } }
  if k = 1 ∨ s.pwr.phase ≠ .running then State.vddfReset k s1
  else
    let s2 := s1.raise 0 0x14 k
    State.afterCause s2 (State.enterSafe 6 none (if 6 ≤ k then s2.stoAll else State.demandAll 6 false s2))

/-- SUPPLY_FAIL (R48): a supply that was good has failed; in SLEEP only VDDK counts. -/
def State.supplyFail (k : Nat) (s : State) : State :=
  if k = 0 then s.porKeep
  else if s.pwr.phase = .sleep ∨ !s.pwr.good.getLsbD k then s
  else State.supplyLost k s

/-- SUPPLY_FAIL (R48). -/
def execSupplyFail (k : Fin 8) (s : State) : Out := .next (State.supplyFail k.val s)

/-! SLEEP and wake (R25, R63 to R66). -/

/-- TBASE after SLEEP: the saved value and the duration by the RTC, exact to within one of its periods (R25). The error is
a free value (log entry 3). -/
def State.wakeTbase (s : State) : Nat :=
  let e : Int := (s.free.toNat % 12209 : Nat) - 6104
  max s.pwr.savedTbase ((s.pwr.savedTbase + s.pwr.sleepTicks : Nat) + e).toNat

/-- The KJ8 wakes by source `i` (R64). -/
def State.wakeUp (i : Fin 23) (s : State) : State :=
  let t := s.wakeTbase % 2 ^ 64
  let s0 := s.canopyKeep.used
  let s1 := { s0 with
    tbase := t
    pwr := { s0.pwr with good := s.pwr.good, phase := .ramp, waking := true, wakeStamp := t }
    boot := { s0.boot with wakeRaise := some i } }
  (((s1.setWord SYS.MODE 0 0x00010001).pb TIME.STAT_SLEPT 0 true).p CNPY.WAKE_IDX 0 i).pb CNPY.WAKE_VALID 0 true

/-- Pages of the event log are written until nothing of it waits (R65). -/
def State.logFlush : Nat → State → State
  | 0, s => s
  | n + 1, s => State.logFlush n s.logPage

/-- Steps 1 and 2 of R65: NV writes in progress are completed, and the request is answered. -/
def State.sleepAnswer (s : State) : State :=
  let s1 := State.logFlush ((s.nv.logPend.length + 127) / 128) s.wearSave
  let s2 := overL (List.finRange 4) (fun n s =>
    match s.ports[n].busy with
    | some (_, .sleep) => State.finish n eOK [] s
    | _ => s) s1
  { s2 with pwr := { s2.pwr with entering := .answered } }

/-- Steps 3 and 4 of R65: TBASE is saved, and every domain but PD_CNPY is switched off. A source latched meanwhile wakes
the KJ8 at once (R66). -/
def State.sleepNow (s : State) : State :=
  let s2 := s.canopyKeep
  let s3 := { s2 with pwr := { s2.pwr with good := s.pwr.good, phase := .sleep, savedTbase := s.tbase } }
  let s4 := s3.p SYS.MODE_CUR 0 mSLEEP
  match s.pwr.wakeLatch with
  | some i => State.wakeUp i s4
  | none => s4

/-- A frame that CANc_WAKE decodes is a wake frame (R374). -/
def State.wakeFrame (s : State) (c : Nat) (f : CanFrame) (bad : Bool) : Bool :=
  let m := s.g CNPY.CWIM_MASK c
  let data (r w : Reg) (o : Nat) : Bool := (List.range 4).all fun i =>
    let mask := byteNat (leBytes 4 (s.word r c).toNat) i 1
    mask == 0 || (decide (o + i < f.data.length)
      && byteNat f.data (o + i) 1 &&& mask == byteNat (leBytes 4 (s.word w c).toNat) i 1 &&& mask)
  !bad && !f.fdf && f.xtd == s.gb CNPY.CWID_XTD c && f.id.toNat &&& m == s.g CNPY.CWID_ID c &&& m
    && data CNPY.CWDML CNPY.CWDL 0 && data CNPY.CWDMH CNPY.CWDH 4

/-- What an input does to the wake condition of source `i`: it begins, and whether it is still there afterwards. A frame's
condition ends with it, and WKMODE tells which of the two CANc_WAKE watches (R63, R374). -/
def State.wakeMeets (s : State) (i : Nat) (x : WakeInput) : Bool × Bool :=
  let can := i == 1 || i == 2
  match x with
  | .level a =>
    let on := a && (!can || s.g CNPY.CWCFG_WKMODE (i - 1) == 1)
    (on, on)
  | .frame f bad => (can && s.g CNPY.CWCFG_WKMODE (i - 1) == 2 && s.wakeFrame (i - 1) f bad, false)

/-- WAKE_SOURCE (R64, R66): the wake condition of a source begins or ends. One that begins wakes the KJ8 if it is watched,
or is latched while SLEEP is being entered. -/
def State.wakeSource (i : Fin 23) (input : WakeInput) (s0 : State) : State :=
  let b := BitVec.ofNat 23 (2 ^ i.val)
  let x := s0.wakeMeets i input
  let s := { s0 with pwr := { s0.pwr with
    wakeActive := if x.2 then s0.pwr.wakeActive ||| b else s0.pwr.wakeActive &&& ~~~b } }
  if !x.1 || !s.gbit CNPY.WATCH_EN 0 i then s
  else
    match s.pwr.phase with
    | .sleep => State.wakeUp i s
    | .running =>
      if s.pwr.entering ≠ .idle && s.pwr.wakeLatch.isNone then { s with pwr := { s.pwr with wakeLatch := some i } } else s
    | _ => s

/-- WAKE_SOURCE (R64). -/
def execWakeSource (w : WakeEvent) (s : State) : Out := .next (State.wakeSource w.source w.input s)

end Sys2Proof.Machine
end

