-- ==== Sys2Proof/Machine/Boot.lean ====
section
/-! DEFINITION. The boot sequence (R2, R49 to R58, R390, R392, R398, R402). -/

namespace Sys2Proof.Machine

/-- Step 1: what the fuse array gives the registers (R49, R408). In SCRAP the key store is zeroized, and BOOT is not left
(R2, R52). -/
def State.bootFuses (s : State) : State :=
  let s1 := (((s.p SYS.BOOT_LIFE 0 s.fuses.life.toNat).p SYS.BOOT_SVNFLOOR 0 s.fuses.svnFloor).p NVS.FUSESTAT_REVOKED 0
    s.fuses.revoked.toNat).p NVS.FUSESTAT_REPUSED 0 s.fuses.burned.length
  if s.fuses.life = 0b111 then { s1.zeroizeNow with boot := { s1.boot with step := 7 } }
  else { s1 with boot := { s1.boot with step := 2 } }

/-- Step 2: the key store; in RETURN it is zeroized, and ZEROIZED waits for the end of boot (R52). -/
def State.bootKeys (s : State) : State :=
  let ret := s.fuses.life == 0b011
  let s1 := if ret then s.zeroize else s.sessRegs
  { s1 with boot := { s1.boot with step := 3, zeroRaise := ret } }

/-- The memory has more defects than spares left by the burned repairs (R50, R390). -/
def State.overDefect (s : State) (r : BootResult) (m : SpareMem) : Bool :=
  decide (spareCount m < s.fuses.burned.count m + r.defects.count m)

/-- Banks with more defects than spares (R50). -/
def State.banksBad (s : State) (r : BootResult) : BitVec 16 := BitVec.ofFnLE fun n => s.overDefect r (.bank n)

/-- Engines with a local memory that cannot be repaired (R50). -/
def State.enginesBad (s : State) (r : BootResult) : BitVec 16 :=
  BitVec.ofFnLE fun e => s.overDefect r (.engine e false) || s.overDefect r (.engine e true)

/-- Step 3: memory BIST (R50): banks and engines out of service, and the soft repairs of the others' defects (R390). -/
def State.bootMem (r : BootResult) (s : State) : State :=
  let s1 := (s.p SYS.BOOTMEM_BANKOFF 0 (s.banksBad r).toNat).p SYS.BOOTMEM_ENGOFF 0
    (s.g SYS.BOOTMEM_ENGOFF ||| (s.enginesBad r).toNat)
  let s2 := overL (r.defects.filter fun m => !s.overDefect r m) State.mapSpare s1
  { s2 with boot := { s2.boot with step := 4 } }

/-- The factory trims of the fuse array are in use (R51, R58). -/
def State.factoryTrims (s : State) : State :=
  let t := (List.range 148).map Config.factoryTrim
  State.pb { s with bgs := { s.bgs with trims := t, committed := t } } BGS.CALSTAT_DEFAULT 0 true

/-- At the end of BOOT engines out of service are OFF, the others SPARE (R50, R165). -/
def State.enginesOn (s : State) : State :=
  (overL (List.range 16) (fun e s => State.setEst e (if s.gbit SYS.BOOTMEM_ENGOFF 0 e then eOFF else eSPARE) 0 s) s).spareFlags

/-- No image and no check of one (R51, R52). -/
def State.noImage (s : State) : State := ((s.p SYS.BOOT_IMG 0 0).p SYS.BOOT_ACHK 0 1).p SYS.BOOT_BCHK 0 1

/-- An island other than an engine has failed logic BIST (R51): SAFE, and the boot ends there, with ZEROIZED if it waited
for the end (R52). -/
def State.bistFails (i : Nat) (s : State) : State :=
  let s1 := ((s.pb SYS.BOOT_BISTFAIL 0 true).p SYS.BOOT_BISTISL 0 i).noImage.factoryTrims.raise 18 0x13 i
  let s2 := State.afterCause s1
    (State.enterSafe 5 none { s1 with boot := { s1.boot with step := 7, bistFail := true, zeroRaise := false } }).guarUpdate
  if s.boot.zeroRaise then s2.raise 24 0xE4 0 else s2

/-- Step 4: logic BIST (R49 to R51). -/
def State.bootLogic (r : BootResult) (s : State) : State :=
  let engine := match r.logicBad with
    | some i => if 2 ≤ i.val ∧ i.val ≤ 17 then 2 ^ (i.val - 2) else 0
    | none => 0
  let s1 := (s.p SYS.BOOTMEM_ENGOFF 0 (s.g SYS.BOOTMEM_ENGOFF ||| r.enginesBad.toNat ||| engine))
  match r.logicBad with
  | some i => if engine = 0 then State.bistFails i s1 else { s1 with boot := { s1.boot with step := 5 } }
  | none => { s1 with boot := { s1.boot with step := 5 } }

/-- The bank taken first (R55): the well-formed one, the higher SEQ, bank A on equal ones. -/
def State.firstBank (s : State) : Nat :=
  let a := s.bankHdr 0
  let b := s.bankHdr 1
  if hdrWellFormed a && hdrWellFormed b then if (hdrOf a).seq < (hdrOf b).seq then 1 else 0
  else if hdrWellFormed b then 1 else 0

/-- Step 5: image selection and verification (R54, R55). While NVST is closed it is skipped (R52). -/
def State.bootImage (s : State) : State :=
  if s.gb NVS.KEYSTAT_CLOSED then { s.noImage with boot := { s.boot with step := 6 } }
  else
    let ca := s.bankCheck 0
    let cb := s.bankCheck 1
    let chk := fun (b : Nat) => if b = 0 then ca else cb
    let x := s.firstBank
    let y := 1 - x
    let seq := fun (b : Nat) => (hdrOf (s.bankHdr b)).seq
    let s1 := (s.p SYS.BOOT_ACHK 0 ca).p SYS.BOOT_BCHK 0 cb
    let s2 := if chk x = 0 then s1.p SYS.BOOT_IMG 0 (x + 1)
      else if chk y = 0 then
        let s' := s1.p SYS.BOOT_IMG 0 (y + 1)
        if hdrWellFormed (s.bankHdr x) && decide (seq y < seq x) then (s'.pb SYS.BOOT_FALLBK 0 true).raise 18 0x12 (y + 1)
        else s'
      else s1.p SYS.BOOT_IMG 0 0
    { s2 with boot := { s2.boot with step := 6 } }

/-- One word of a committed safety configuration is restored (R58, R408): what it enables starts, as by a write. -/
def State.restoreWord (x : Nat × Word) (s : State) : State :=
  match regAt x.1 with
  | none => s
  | some (r, k) =>
    let m := BitVec.ofNat 32 (rwlMask r)
    let t := s.setWord r k ((s.word r k &&& ~~~m) ||| (x.2 &&& m))
    State.gateHook s r k x.2.toNat (State.motionHook s r k x.2.toNat (State.senseHook s r k t))

/-- Every comparator and every delta-sigma channel starts afresh under the whole restored configuration (R61, R62). -/
def State.sourcesRestart (s : State) : State :=
  overL (List.range 64) State.dsmRestart (overL (List.range 32) State.compRestart s)

/-- The selected parameter bank (R58, R402): its safety configuration is restored, and locked. -/
def State.bootPar (s : State) : State :=
  if s.gb NVS.KEYSTAT_CLOSED then s
  else
    let s1 := s.p NVS.BANKSTAT_PVAL 0 ((if s.parValid 2 then 1 else 0) + if s.parValid 3 then 2 else 0)
    match s.parWinner 2 with
    | none => s1
    | some b =>
      let s2 := (s1.p NVS.BANKSTAT_PWIN 0 (b - 2)).setWord NVS.PSEQ 0 (BitVec.ofNat 32 (s.nvNat (nvBase b + 4) 4))
      match at' s.nv.config (b - 2) none with
      | none => s2
      | some l => (overL l State.restoreWord s2).sourcesRestart.pb SAFE.STAT_LOCKED 0 true

/-- The selected calibration bank, or the factory trims (R58, R395, R402). -/
def State.bootCal (s : State) : State :=
  let s1 := s.p NVS.BANKSTAT_CVAL 0 ((if s.parValid 4 then 1 else 0) + if s.parValid 5 then 2 else 0)
  match s.parWinner 4 with
  | none => s1.factoryTrims
  | some b =>
    let a := nvBase b
    let s2 := (s1.p NVS.BANKSTAT_CWIN 0 (b - 4)).setWord NVS.CSEQ 0 (BitVec.ofNat 32 (s.nvNat (a + 4) 4))
    let t := (bytesWords (bytesAt s.nv.bytes (a + 0x1000) (s.nvNat (a + 8) 4))).take 148
    (State.pb { s2 with bgs := { s2.bgs with trims := t, committed := t } } BGS.CALSTAT_CONV 0 true).pb BGS.CALSTAT_CMP 0 true

/-- The wear records are reloaded (R398). -/
def State.bootWear (s : State) : State :=
  overL (List.range 8) (fun k s =>
    match s.nv.wearSaved[k]? with
    | none => s
    | some (d, w) => State.setWord { s with bgs := { s.bgs with wear := upd s.bgs.wear k fun _ => w } } BGS.WDMG k d) s

/-- The end of boot: CONFIGURE, unless SAFE has been entered meanwhile, and BOOT_DONE (R49, R52). -/
def State.bootDone (s : State) : State :=
  let s1 := { s with boot := { s.boot with step := 7, zeroRaise := false }, bgs := { s.bgs with cycleStart := s.tbase } }
  let s2 := (s1.pb SAFE.STAT_RSTOK 0 false).guarUpdate
  let s3 := if s2.mode = mBOOT then State.transition mCONFIGURE (s2.g SYS.MODE_CAUSE) none s2 else s2
  let s4 := s3.enginesOn.raise 1 0x11 0
  if s.boot.zeroRaise then s4.raise 24 0xE4 0 else s4

/-- A boot step finishes (R49). -/
def State.bootStep (r : BootResult) (s : State) : State :=
  if !s.up then s
  else match s.boot.step with
    | 1 => s.bootFuses
    | 2 => s.bootKeys
    | 3 => State.bootMem r s
    | 4 => State.bootLogic r s
    | 5 => s.bootImage
    | 6 =>
      let s1 := s.bootPar.bootCal.bootWear
      (if r.srstClosed then s1.srstStick else s1).bootDone.serveAll
    | _ => s

/-- BOOT_STEP_COMPLETE (R49). -/
def execBootStepComplete (r : BootResult) (s : State) : Out := .next (State.bootStep r s)

end Sys2Proof.Machine
end

