-- ==== Sys2Proof/Machine/Clock.lean ====
section
/-! DEFINITION. What passing time does by itself (R23, R25, R63, R65, R79). -/

namespace Sys2Proof.Machine

/-- One tick of 5 ns: Canopy's clock runs always, TBASE while its domain is released or a wake is under way (R23, R25), the
RTC stands for it in SLEEP; an entry to SLEEP is completed; and frames that wait are served. -/
def tick (s0 : State) : State :=
  let s := { s0 with rtc := s0.rtc + 1 }
  match s.pwr.phase with
  | .running =>
    match s.pwr.entering with
    | .answered => s.sleepNow
    | .accepted => State.sleepAnswer { s with tbase := (s.tbase + 1) % 2 ^ 64 }
    | .idle => State.serveAll { s with tbase := (s.tbase + 1) % 2 ^ 64 }
  | .sleep => { s with pwr := { s.pwr with sleepTicks := s.pwr.sleepTicks + 1 } }
  | .ramp => if s.pwr.waking then { s with tbase := (s.tbase + 1) % 2 ^ 64 } else s
  | .refinWait => if s.pwr.waking then { s with tbase := (s.tbase + 1) % 2 ^ 64 } else s

end Sys2Proof.Machine
end

