-- ==== Sys2Proof/Machine/RegCmds.lean ====
section
/-! DEFINITION. The commands that are a register write with a behaviour of its own, and REGISTER_WRITE: each is a write
of its register by a host port or a task, checked and answered under R8 and R9 (RegCheck.lean, RegWrite.lean). -/

namespace Sys2Proof.Machine

/-- REGISTER_WRITE (R8). -/
def execRegisterWrite (w : Who) (addr v : Word) (s : State) : Out :=
  .next (State.rowWrite w addr.toNat v s).pumpStep

/-- QUEUE_ENABLE (R100): QUE.QCFG of Q16–Q31. -/
def execQueueEnable (w : Who) (q : Fin 16) (v : Word) (s : State) : Out :=
  .next (State.rowWrite w (QUE.QCFG.addr (16 + q.val)) v s)

/-- EVT_DOORBELL_WRITE (R85). -/
def execEvtDoorbellWrite (w : Who) (v : Word) (s : State) : Out :=
  .next (State.rowWrite w (EVT.DOORBELL.addr 0) v s)

/-- PORT_SLEEP_WRITE (R328). -/
def execPortSleepWrite (w : Who) (n : Fin 4) (v : Word) (s : State) : Out :=
  .next (State.rowWrite w (EVT.PSLEEP.addr n) v s)

/-- EVT_QBIND_WRITE (R327). -/
def execEvtQbindWrite (w : Who) (q : Fin 4) (v : Word) (s : State) : Out :=
  .next (State.rowWrite w (EVT.QBIND.addr q) v s)

/-- DEBUG_ENABLE (R205). -/
def execDebugEnable (w : Who) (v : Word) (s : State) : Out :=
  .next (State.rowWrite w (PYR.DBGCTL.addr 0) v s).pumpStep

/-- DEBUG_DISABLE (R208). -/
def execDebugDisable (w : Who) (v : Word) (s : State) : Out :=
  .next (State.rowWrite w (PYR.DBGCTL.addr 0) v s).pumpStep

/-- DEBUG_HALT (R206). -/
def execDebugHalt (w : Who) (v : Word) (s : State) : Out :=
  .next (State.rowWrite w (PYR.DBGCTL.addr 0) v s).pumpStep

/-- DEBUG_RESUME (R206). -/
def execDebugResume (w : Who) (v : Word) (s : State) : Out :=
  .next (State.rowWrite w (PYR.DBGCTL.addr 0) v s).pumpStep

/-- DEBUG_STEP (R206): the engine executes one instruction. -/
def execDebugStep (w : Who) (v : Word) (s : State) : Out :=
  .next (State.rowWrite w (PYR.DBGCTL.addr 0) v s).pumpStep

/-- DBGDIV_CLEAR (R207). -/
def execDbgdivClear (w : Who) (v : Word) (s : State) : Out :=
  .next (State.rowWrite w (PYR.STAT.addr 0) v s)

/-- AXIS_ENABLE (R210). -/
def execAxisEnable (w : Who) (n : Fin 8) (v : Word) (s : State) : Out :=
  .next (State.rowWrite w (CTL.AXCFG.addr n) v s)

/-- AXIS_DISABLE (R210). -/
def execAxisDisable (w : Who) (n : Fin 8) (v : Word) (s : State) : Out :=
  .next (State.rowWrite w (CTL.AXCFG.addr n) v s)

/-- AXIS_START (R215). -/
def execAxisStart (w : Who) (n : Fin 8) (v : Word) (s : State) : Out :=
  .next (State.rowWrite w (CTL.AXCMD.addr n) v s)

/-- AXIS_STOP (R215). -/
def execAxisStop (w : Who) (n : Fin 8) (v : Word) (s : State) : Out :=
  .next (State.rowWrite w (CTL.AXCMD.addr n) v s)

/-- SWITCH_FAULT_CLEAR (R255). -/
def execSwitchFaultClear (w : Who) (upper : Bool) (v : Word) (s : State) : Out :=
  .next (State.rowWrite w ((if upper then GATE.SWFLT1 else GATE.SWFLT0).addr 0) v s)

/-- DEMAND_RELEASE (R263). -/
def execDemandRelease (w : Who) (v : Word) (s : State) : Out :=
  .next (State.rowWrite w (FBRK.BRREL.addr 0) v s)

/-- OVTRIP_CLEAR (R266). -/
def execOvtripClear (w : Who) (l : Fin 4) (v : Word) (s : State) : Out :=
  .next (State.rowWrite w (DCL.STAT.addr l) v s)

/-- DISCHARGE_GO (R267). -/
def execDischargeGo (w : Who) (v : Word) (s : State) : Out :=
  .next (State.rowWrite w (DCL.DSCCMD.addr 0) v s)

/-- DISCHARGE_STOP (R267). -/
def execDischargeStop (w : Who) (v : Word) (s : State) : Out :=
  .next (State.rowWrite w (DCL.DSCCMD.addr 0) v s)

/-- PLAUSIBILITY_FAIL_CLEAR (R285). -/
def execPlausibilityFailClear (w : Who) (v : Word) (s : State) : Out :=
  .next (State.rowWrite w (DSM.RSTAT.addr 0) v s)

/-- READBACK_START (R290). -/
def execReadbackStart (w : Who) (v : Word) (s : State) : Out :=
  .next (State.rowWrite w (CMP.RDBK.addr 0) v s)

/-- PORT_ENABLE (R293). -/
def execPortEnable (w : Who) (n : Fin 8) (v : Word) (s : State) : Out :=
  .next (State.rowWrite w (POS.CFG.addr n) v s)

/-- INDEX_ARM (R297). -/
def execIndexArm (w : Who) (n : Fin 8) (v : Word) (s : State) : Out :=
  .next (State.rowWrite w (POS.CMD.addr n) v s)

/-- COMPARE_WRITE (R312). -/
def execCompareWrite (w : Who) (n : Fin 8) (j : Fin 4) (ctl : Bool) (v : Word) (s : State) : Out :=
  .next (State.rowWrite w ((if ctl then POS.CMPC else POS.CMPV).addr (4 * n.val + j.val)) v s)

/-- CAN_ENABLE (R363). -/
def execCanEnable (w : Who) (c : Fin 4) (v : Word) (s : State) : Out :=
  .next (State.rowWrite w (CAN.CFG.addr c) v s)

/-- CAN_TX_PUSH (R367). -/
def execCanTxPush (w : Who) (c : Fin 4) (v : Word) (s : State) : Out :=
  .next (State.rowWrite w (CAN.TXPUSH.addr c) v s)

/-- CAN_RX_POP (R367). -/
def execCanRxPop (w : Who) (c : Fin 4) (v : Word) (s : State) : Out :=
  .next (State.rowWrite w (CAN.RXPOP.addr c) v s)

/-- ETH_TX_PUSH (R412). -/
def execEthTxPush (w : Who) (m : Fin 2) (v : Word) (s : State) : Out :=
  .next (State.rowWrite w (ETH.TXPUSH.addr m) v s)

/-- ETH_RX_POP (R412). -/
def execEthRxPop (w : Who) (m : Fin 2) (v : Word) (s : State) : Out :=
  .next (State.rowWrite w (ETH.RXPOP.addr m) v s)

/-- MDIO_TRANSACTION (R376). -/
def execMdioTransaction (w : Who) (m : Fin 2) (v : Word) (s : State) : Out :=
  .next (State.rowWrite w (ETH.MDIO.addr m) v s)

/-- HOST_TRANSPORT_BIND (R378). -/
def execHostTransportBind (w : Who) (n : Fin 4) (v : Word) (s : State) : Out :=
  .next (State.rowWrite w (ETH.HBIND.addr n) v s)

/-- PTP_OFFSET_LO_WRITE (R380). -/
def execPtpOffsetLoWrite (w : Who) (v : Word) (s : State) : Out :=
  .next (State.rowWrite w (ETH.PTPOFS_LO.addr 0) v s)

/-- PTP_OFFSET_HI_WRITE (R380). -/
def execPtpOffsetHiWrite (w : Who) (v : Word) (s : State) : Out :=
  .next (State.rowWrite w (ETH.PTPOFS_HI.addr 0) v s)

/-- ZEROIZE (R392). -/
def execZeroize (w : Who) (v : Word) (s : State) : Out :=
  .next (State.rowWrite w (NVS.ZEROIZE.addr 0) v s)

/-- FUSE_SVNUP (R394). -/
def execFuseSvnup (w : Who) (v : Word) (s : State) : Out :=
  .next (State.rowWrite w (NVS.FUSECMD.addr 0) v s)

/-- FUSE_REVOKE (R394). -/
def execFuseRevoke (w : Who) (v : Word) (s : State) : Out :=
  .next (State.rowWrite w (NVS.FUSECMD.addr 0) v s)

/-- FUSE_LIFE (R394). -/
def execFuseLife (w : Who) (v : Word) (s : State) : Out :=
  .next (State.rowWrite w (NVS.FUSECMD.addr 0) v s)

/-- TELEMETRY_POP (R400). -/
def execTelemetryPop (w : Who) (st : Fin 4) (v : Word) (s : State) : Out :=
  .next (State.rowWrite w (BGS.TPOP.addr st) v s)

end Sys2Proof.Machine
end

