-- ==== Sys2Proof/Machine/Dispatch.lean ====
section
/-! DEFINITION. One arm per command of the table: its meaning. -/

namespace Sys2Proof.Machine

def exec (i : Instr) (s : State) : Host.Outcome State Fault Refusal :=
  match i with
  | .powerOnReset => Sys2Proof.Machine.execPowerOnReset s
  | .suppliesGood refinOk xtal => Sys2Proof.Machine.execSuppliesGood refinOk xtal s
  | .refinRetry refinOk => Sys2Proof.Machine.execRefinRetry refinOk s
  | .supplyFail k => Sys2Proof.Machine.execSupplyFail k s
  | .refLoss => Sys2Proof.Machine.execRefLoss s
  | .clockFailure ix => Sys2Proof.Machine.execClockFailure ix s
  | .crossingFailure x t => Sys2Proof.Machine.execCrossingFailure x t s
  | .heartbeatTimeout src dst => Sys2Proof.Machine.execHeartbeatTimeout src dst s
  | .padToggleLoss pad => Sys2Proof.Machine.execPadToggleLoss pad s
  | .tbaseErr ix => Sys2Proof.Machine.execTbaseErr ix s
  | .bootStepComplete r => Sys2Proof.Machine.execBootStepComplete r s
  | .wakeSource w => Sys2Proof.Machine.execWakeSource w s
  | .runToReadyComplete => Sys2Proof.Machine.execRunToReadyComplete s
  | .spiBadTransaction p code => Sys2Proof.Machine.execSpiBadTransaction p code s
  | .responseRead p words => Sys2Proof.Machine.execResponseRead p words s
  | .eventRead p words => Sys2Proof.Machine.execEventRead p words s
  | .status p tag arg pl => Sys2Proof.Machine.execStatus p tag arg pl s
  | .read p tag arg pl => Sys2Proof.Machine.execRead p tag arg pl s
  | .write p tag arg pl => Sys2Proof.Machine.execWrite p tag arg pl s
  | .doorbell p tag arg pl => Sys2Proof.Machine.execDoorbell p tag arg pl s
  | .imgLoad p tag arg pl => Sys2Proof.Machine.execImgLoad p tag arg pl s
  | .imgCommit p tag arg pl => Sys2Proof.Machine.execImgCommit p tag arg pl s
  | .taskAdmit p tag arg pl => Sys2Proof.Machine.execTaskAdmit p tag arg pl s
  | .taskRetire p tag arg pl => Sys2Proof.Machine.execTaskRetire p tag arg pl s
  | .taskMailboxWrite p tag arg pl => Sys2Proof.Machine.execTaskMailboxWrite p tag arg pl s
  | .taskMailboxRead p tag arg pl => Sys2Proof.Machine.execTaskMailboxRead p tag arg pl s
  | .modeReq p tag arg pl => Sys2Proof.Machine.execModeReq p tag arg pl s
  | .nvCommit p tag arg pl => Sys2Proof.Machine.execNvCommit p tag arg pl s
  | .bistRun p tag arg pl => Sys2Proof.Machine.execBistRun p tag arg pl s
  | .calRun p tag arg pl => Sys2Proof.Machine.execCalRun p tag arg pl s
  | .safeOpen p tag arg pl => Sys2Proof.Machine.execSafeOpen p tag arg pl s
  | .safeUnlock p tag hi pl => Sys2Proof.Machine.execSafeUnlock p tag hi pl s
  | .safeClose p tag hi pl => Sys2Proof.Machine.execSafeClose p tag hi pl s
  | .safeSetseed p tag hi pl => Sys2Proof.Machine.execSafeSetseed p tag hi pl s
  | .safeConfirm p tag arg pl => Sys2Proof.Machine.execSafeConfirm p tag arg pl s
  | .safeCommit p tag arg pl => Sys2Proof.Machine.execSafeCommit p tag arg pl s
  | .telemSub p tag arg pl => Sys2Proof.Machine.execTelemSub p tag arg pl s
  | .telemUnsub p tag arg pl => Sys2Proof.Machine.execTelemUnsub p tag arg pl s
  | .opStatus p tag arg pl => Sys2Proof.Machine.execOpStatus p tag arg pl s
  | .opAbort p tag arg pl => Sys2Proof.Machine.execOpAbort p tag arg pl s
  | .longOpStep tok r => Sys2Proof.Machine.execLongOpStep tok r s
  | .registerWrite w addr v => Sys2Proof.Machine.execRegisterWrite w addr v s
  | .queueEnable w q v => Sys2Proof.Machine.execQueueEnable w q v s
  | .eventRaise ix => Sys2Proof.Machine.execEventRaise ix s
  | .eventWriteSlot => Sys2Proof.Machine.execEventWriteSlot s
  | .moderationWindowClose q => Sys2Proof.Machine.execModerationWindowClose q s
  | .holdOffExpiry g => Sys2Proof.Machine.execHoldOffExpiry g s
  | .evtDoorbellWrite w v => Sys2Proof.Machine.execEvtDoorbellWrite w v s
  | .portSleepWrite w n v => Sys2Proof.Machine.execPortSleepWrite w n v s
  | .evtQbindWrite w q v => Sys2Proof.Machine.execEvtQbindWrite w q v s
  | .periodBoundary t => Sys2Proof.Machine.execPeriodBoundary t s
  | .stepRelease t arr => Sys2Proof.Machine.execStepRelease t arr s
  | .sampleStaleTimeout t arr => Sys2Proof.Machine.execSampleStaleTimeout t arr s
  | .budgetExceeded e => Sys2Proof.Machine.execBudgetExceeded e s
  | .adds e gd ga gb => Sys2Proof.Machine.execAdds e gd ga gb s
  | .subs e gd ga gb => Sys2Proof.Machine.execSubs e gd ga gb s
  | .negs e gd ga => Sys2Proof.Machine.execNegs e gd ga s
  | .abss e gd ga => Sys2Proof.Machine.execAbss e gd ga s
  | .mulq e gd ga gb => Sys2Proof.Machine.execMulq e gd ga gb s
  | .divq e gd ga gb => Sys2Proof.Machine.execDivq e gd ga gb s
  | .min e gd ga gb => Sys2Proof.Machine.execMin e gd ga gb s
  | .max e gd ga gb => Sys2Proof.Machine.execMax e gd ga gb s
  | .clips e gd ga gb => Sys2Proof.Machine.execClips e gd ga gb s
  | .clipr e gd ga gb gc => Sys2Proof.Machine.execClipr e gd ga gb gc s
  | .shls e gd ga n => Sys2Proof.Machine.execShls e gd ga n s
  | .shrq e gd ga n => Sys2Proof.Machine.execShrq e gd ga n s
  | .sqrtq e gd ga => Sys2Proof.Machine.execSqrtq e gd ga s
  | .addw e gd ga gb => Sys2Proof.Machine.execAddw e gd ga gb s
  | .subw e gd ga gb => Sys2Proof.Machine.execSubw e gd ga gb s
  | .mulw e gd ga gb => Sys2Proof.Machine.execMulw e gd ga gb s
  | .divw e gd ga gb => Sys2Proof.Machine.execDivw e gd ga gb s
  | .and e gd ga gb => Sys2Proof.Machine.execAnd e gd ga gb s
  | .or e gd ga gb => Sys2Proof.Machine.execOr e gd ga gb s
  | .xor e gd ga gb => Sys2Proof.Machine.execXor e gd ga gb s
  | .shl e gd ga gb => Sys2Proof.Machine.execShl e gd ga gb s
  | .shr e gd ga gb => Sys2Proof.Machine.execShr e gd ga gb s
  | .shra e gd ga gb => Sys2Proof.Machine.execShra e gd ga gb s
  | .clz e gd ga => Sys2Proof.Machine.execClz e gd ga s
  | .mov e gd ga => Sys2Proof.Machine.execMov e gd ga s
  | .csel e gd ga gb gc => Sys2Proof.Machine.execCsel e gd ga gb gc s
  | .seq e gd ga gb => Sys2Proof.Machine.execSeq e gd ga gb s
  | .slt e gd ga gb => Sys2Proof.Machine.execSlt e gd ga gb s
  | .sle e gd ga gb => Sys2Proof.Machine.execSle e gd ga gb s
  | .sltu e gd ga gb => Sys2Proof.Machine.execSltu e gd ga gb s
  | .addsi e gd ga imm => Sys2Proof.Machine.execAddsi e gd ga imm s
  | .addwi e gd ga imm => Sys2Proof.Machine.execAddwi e gd ga imm s
  | .andi e gd ga imm => Sys2Proof.Machine.execAndi e gd ga imm s
  | .ori e gd ga imm => Sys2Proof.Machine.execOri e gd ga imm s
  | .xori e gd ga imm => Sys2Proof.Machine.execXori e gd ga imm s
  | .movi e gd imm => Sys2Proof.Machine.execMovi e gd imm s
  | .lui e gd imm => Sys2Proof.Machine.execLui e gd imm s
  | .slti e gd ga imm => Sys2Proof.Machine.execSlti e gd ga imm s
  | .aclr e ad => Sys2Proof.Machine.execAclr e ad s
  | .mula e ad ga gb => Sys2Proof.Machine.execMula e ad ga gb s
  | .maca e ad ga gb => Sys2Proof.Machine.execMaca e ad ga gb s
  | .msua e ad ga gb => Sys2Proof.Machine.execMsua e ad ga gb s
  | .amov e ad src => Sys2Proof.Machine.execAmov e ad src s
  | .aadd e ad src => Sys2Proof.Machine.execAadd e ad src s
  | .aneg e ad src => Sys2Proof.Machine.execAneg e ad src s
  | .ext e g ad sh => Sys2Proof.Machine.execExt e g ad sh s
  | .aldq e ad ga => Sys2Proof.Machine.execAldq e ad ga s
  | .fadd e gd ga gb => Sys2Proof.Machine.execFadd e gd ga gb s
  | .fsub e gd ga gb => Sys2Proof.Machine.execFsub e gd ga gb s
  | .fmul e gd ga gb => Sys2Proof.Machine.execFmul e gd ga gb s
  | .fdiv e gd ga gb => Sys2Proof.Machine.execFdiv e gd ga gb s
  | .fma e gd ga gb => Sys2Proof.Machine.execFma e gd ga gb s
  | .fneg e gd ga => Sys2Proof.Machine.execFneg e gd ga s
  | .fabs e gd ga => Sys2Proof.Machine.execFabs e gd ga s
  | .fmin e gd ga gb => Sys2Proof.Machine.execFmin e gd ga gb s
  | .fmax e gd ga gb => Sys2Proof.Machine.execFmax e gd ga gb s
  | .fsqrt e gd ga => Sys2Proof.Machine.execFsqrt e gd ga s
  | .fslt e gd ga gb => Sys2Proof.Machine.execFslt e gd ga gb s
  | .fsle e gd ga gb => Sys2Proof.Machine.execFsle e gd ga gb s
  | .fseq e gd ga gb => Sys2Proof.Machine.execFseq e gd ga gb s
  | .ftoq e gd ga => Sys2Proof.Machine.execFtoq e gd ga s
  | .qtof e gd ga => Sys2Proof.Machine.execQtof e gd ga s
  | .ftoi e gd ga => Sys2Proof.Machine.execFtoi e gd ga s
  | .itof e gd ga => Sys2Proof.Machine.execItof e gd ga s
  | .ld32 e gd ga off => Sys2Proof.Machine.execLd32 e gd ga off s
  | .ldf e gd ga off => Sys2Proof.Machine.execLdf e gd ga off s
  | .st32 e gd ga off => Sys2Proof.Machine.execSt32 e gd ga off s
  | .ld16 e gd ga off => Sys2Proof.Machine.execLd16 e gd ga off s
  | .ld16u e gd ga off => Sys2Proof.Machine.execLd16u e gd ga off s
  | .ld8u e gd ga off => Sys2Proof.Machine.execLd8u e gd ga off s
  | .ldacc e ad ga off => Sys2Proof.Machine.execLdacc e ad ga off s
  | .stacc e ad ga off => Sys2Proof.Machine.execStacc e ad ga off s
  | .lda e gd ga off => Sys2Proof.Machine.execLda e gd ga off s
  | .sta e gd ga off => Sys2Proof.Machine.execSta e gd ga off s
  | .qlen e gd q => Sys2Proof.Machine.execQlen e gd q s
  | .qrdw e gd q k => Sys2Proof.Machine.execQrdw e gd q k s
  | .qpop e q => Sys2Proof.Machine.execQpop e q s
  | .qwrw e q k ga => Sys2Proof.Machine.execQwrw e q k ga s
  | .qpush e q => Sys2Proof.Machine.execQpush e q s
  | .beq e ga gb off => Sys2Proof.Machine.execBeq e ga gb off s
  | .bne e ga gb off => Sys2Proof.Machine.execBne e ga gb off s
  | .blt e ga gb off => Sys2Proof.Machine.execBlt e ga gb off s
  | .bge e ga gb off => Sys2Proof.Machine.execBge e ga gb off s
  | .bltu e ga gb off => Sys2Proof.Machine.execBltu e ga gb off s
  | .bgeu e ga gb off => Sys2Proof.Machine.execBgeu e ga gb off s
  | .bzc e ga cc off => Sys2Proof.Machine.execBzc e ga cc off s
  | .jmp e off => Sys2Proof.Machine.execJmp e off s
  | .call e off => Sys2Proof.Machine.execCall e off s
  | .loop e lv cnt len => Sys2Proof.Machine.execLoop e lv cnt len s
  | .nop e => Sys2Proof.Machine.execNop e s
  | .stepend e => Sys2Proof.Machine.execStepend e s
  | .mfs e gd gc => Sys2Proof.Machine.execMfs e gd gc s
  | .mts e gc ga => Sys2Proof.Machine.execMts e gc ga s
  | .stwclr e gc => Sys2Proof.Machine.execStwclr e gc s
  | .fence e => Sys2Proof.Machine.execFence e s
  | .trap e gc => Sys2Proof.Machine.execTrap e gc s
  | .ret e => Sys2Proof.Machine.execRet e s
  | .jr e ga => Sys2Proof.Machine.execJr e ga s
  | .longAlu e fn gd ga gx imm => Sys2Proof.Machine.execLongAlu e fn gd ga gx imm s
  | .ldal e gd imm => Sys2Proof.Machine.execLdal e gd imm s
  | .stal e ga imm => Sys2Proof.Machine.execStal e ga imm s
  | .movl e gd imm => Sys2Proof.Machine.execMovl e gd imm s
  | .clarke e gd ga => Sys2Proof.Machine.execClarke e gd ga s
  | .clarke2 e gd ga => Sys2Proof.Machine.execClarke2 e gd ga s
  | .iclarke e gd ga => Sys2Proof.Machine.execIclarke e gd ga s
  | .park e gd ga gb => Sys2Proof.Machine.execPark e gd ga gb s
  | .ipark e gd ga gb => Sys2Proof.Machine.execIpark e gd ga gb s
  | .sincos e gd ga => Sys2Proof.Machine.execSincos e gd ga s
  | .vec e gd ga => Sys2Proof.Machine.execVec e gd ga s
  | .angadd e gd ga gb => Sys2Proof.Machine.execAngadd e gd ga gb s
  | .svm7 e gd ga => Sys2Proof.Machine.execSvm7 e gd ga s
  | .svm5 e gd ga => Sys2Proof.Machine.execSvm5 e gd ga s
  | .lim2 e gd ga gb => Sys2Proof.Machine.execLim2 e gd ga gb s
  | .lim2d e gd ga gb => Sys2Proof.Machine.execLim2d e gd ga gb s
  | .pidq e gd ga gb ad sx => Sys2Proof.Machine.execPidq e gd ga gb ad sx s
  | .smpget e gd k => Sys2Proof.Machine.execSmpget e gd k s
  | .smpflg e gd k => Sys2Proof.Machine.execSmpflg e gd k s
  | .smpstmp e gd k => Sys2Proof.Machine.execSmpstmp e gd k s
  | .pwm3 e ga k => Sys2Proof.Machine.execPwm3 e ga k s
  | .pwm1 e ga k leg => Sys2Proof.Machine.execPwm1 e ga k leg s
  | .pwmoff e k => Sys2Proof.Machine.execPwmoff e k s
  | .pwmtrim e ga k sw => Sys2Proof.Machine.execPwmtrim e ga k sw s
  | .fltset e ga k code => Sys2Proof.Machine.execFltset e ga k code s
  | .evraise e ga k => Sys2Proof.Machine.execEvraise e ga k s
  | .tlmput e ga k => Sys2Proof.Machine.execTlmput e ga k s
  | .pyryaVerdict e lines canaryOk => Sys2Proof.Machine.execPyryaVerdict e lines canaryOk s
  | .verdictTimeout e t => Sys2Proof.Machine.execVerdictTimeout e t s
  | .canaryPair ok => Sys2Proof.Machine.execCanaryPair ok s
  | .suspectExpiry e => Sys2Proof.Machine.execSuspectExpiry e s
  | .debugEnable w v => Sys2Proof.Machine.execDebugEnable w v s
  | .debugDisable w v => Sys2Proof.Machine.execDebugDisable w v s
  | .debugHalt w v => Sys2Proof.Machine.execDebugHalt w v s
  | .debugResume w v => Sys2Proof.Machine.execDebugResume w v s
  | .debugStep w v => Sys2Proof.Machine.execDebugStep w v s
  | .dbgdivClear w v => Sys2Proof.Machine.execDbgdivClear w v s
  | .precopyComplete t => Sys2Proof.Machine.execPrecopyComplete t s
  | .moveCommit t => Sys2Proof.Machine.execMoveCommit t s
  | .axisEnable w n v => Sys2Proof.Machine.execAxisEnable w n v s
  | .axisDisable w n v => Sys2Proof.Machine.execAxisDisable w n v s
  | .axisStart w n v => Sys2Proof.Machine.execAxisStart w n v s
  | .axisStop w n v => Sys2Proof.Machine.execAxisStop w n v s
  | .axisEvaluation n => Sys2Proof.Machine.execAxisEvaluation n s
  | .reacqTimeout n => Sys2Proof.Machine.execReacqTimeout n s
  | .brakeTimeout n => Sys2Proof.Machine.execBrakeTimeout n s
  | .feTimerExpiry n => Sys2Proof.Machine.execFeTimerExpiry n s
  | .cmdinSample n code high period => Sys2Proof.Machine.execCmdinSample n code high period s
  | .cmdinEdgeTimeout n => Sys2Proof.Machine.execCmdinEdgeTimeout n s
  | .carrierUpdatePoint k u => Sys2Proof.Machine.execCarrierUpdatePoint k u s
  | .gfltFault n => Sys2Proof.Machine.execGfltFault n s
  | .gfltClassify n held => Sys2Proof.Machine.execGfltClassify n held s
  | .protectionTrip src samples => Sys2Proof.Machine.execProtectionTrip src samples s
  | .ascTurnOn k => Sys2Proof.Machine.execAscTurnOn k s
  | .safeStateRechoose k => Sys2Proof.Machine.execSafeStateRechoose k s
  | .switchFaultClear w upper v => Sys2Proof.Machine.execSwitchFaultClear w upper v s
  | .demandRelease w v => Sys2Proof.Machine.execDemandRelease w v s
  | .dcLinkSample l x valid => Sys2Proof.Machine.execDcLinkSample l x valid s
  | .overvoltageTrip l => Sys2Proof.Machine.execOvervoltageTrip l s
  | .ovtripClear w l v => Sys2Proof.Machine.execOvtripClear w l v s
  | .chopperPeriodStart l => Sys2Proof.Machine.execChopperPeriodStart l s
  | .chopperCurrentTrip l => Sys2Proof.Machine.execChopperCurrentTrip l s
  | .chopperPeriodLimit l => Sys2Proof.Machine.execChopperPeriodLimit l s
  | .chopperRampUpdate l => Sys2Proof.Machine.execChopperRampUpdate l s
  | .dischargeGo w v => Sys2Proof.Machine.execDischargeGo w v s
  | .dischargeStop w v => Sys2Proof.Machine.execDischargeStop w v s
  | .dischargeSlowCheck l => Sys2Proof.Machine.execDischargeSlowCheck l s
  | .dischargeDone l => Sys2Proof.Machine.execDischargeDone l s
  | .dischargeFail l => Sys2Proof.Machine.execDischargeFail l s
  | .dsmOutput n sum => Sys2Proof.Machine.execDsmOutput n sum s
  | .dsmStuck n level => Sys2Proof.Machine.execDsmStuck n level s
  | .adcOutput c x => Sys2Proof.Machine.execAdcOutput c x s
  | .adcTrigger c x => Sys2Proof.Machine.execAdcTrigger c x s
  | .plausibilityEvaluation g a b c => Sys2Proof.Machine.execPlausibilityEvaluation g a b c s
  | .plausibilityFailClear w v => Sys2Proof.Machine.execPlausibilityFailClear w v s
  | .comparatorChange n earlier last => Sys2Proof.Machine.execComparatorChange n earlier last s
  | .readbackStart w v => Sys2Proof.Machine.execReadbackStart w v s
  | .rdbkDone x => Sys2Proof.Machine.execRdbkDone x s
  | .portEnable w n v => Sys2Proof.Machine.execPortEnable w n v s
  | .encoderEdge n a b z => Sys2Proof.Machine.execEncoderEdge n a b z s
  | .hallTransition n h => Sys2Proof.Machine.execHallTransition n h s
  | .wireDisagreement n pair => Sys2Proof.Machine.execWireDisagreement n pair s
  | .indexArm w n v => Sys2Proof.Machine.execIndexArm w n v s
  | .serialFrameStart n => Sys2Proof.Machine.execSerialFrameStart n s
  | .serialFrameReceived n f => Sys2Proof.Machine.execSerialFrameReceived n f s
  | .serialFrameTimeout x => Sys2Proof.Machine.execSerialFrameTimeout x s
  | .resolverUpdate n sx c => Sys2Proof.Machine.execResolverUpdate n sx c s
  | .speedTimeout n => Sys2Proof.Machine.execSpeedTimeout n s
  | .heldFlagExpiry n flag => Sys2Proof.Machine.execHeldFlagExpiry n flag s
  | .compareWrite w n j ctl v => Sys2Proof.Machine.execCompareWrite w n j ctl v s
  | .emulatorEdge e => Sys2Proof.Machine.execEmulatorEdge e s
  | .stoInputDemand b => Sys2Proof.Machine.execStoInputDemand b s
  | .stoInputRelease b => Sys2Proof.Machine.execStoInputRelease b s
  | .stoDiscrepancy b => Sys2Proof.Machine.execStoDiscrepancy b s
  | .safeInputLevel ch level => Sys2Proof.Machine.execSafeInputLevel ch level s
  | .testPulseStart k => Sys2Proof.Machine.execTestPulseStart k s
  | .testPulseWindowEnd ch wentLow => Sys2Proof.Machine.execTestPulseWindowEnd ch wentLow s
  | .safeInputDiscrepancy ix => Sys2Proof.Machine.execSafeInputDiscrepancy ix s
  | .safeOutputTest j => Sys2Proof.Machine.execSafeOutputTest j s
  | .brakeDrop j => Sys2Proof.Machine.execBrakeDrop j s
  | .srstRelease held => Sys2Proof.Machine.execSrstRelease held s
  | .srstStuck => Sys2Proof.Machine.execSrstStuck s
  | .srstUnstuck => Sys2Proof.Machine.execSrstUnstuck s
  | .monitorCycle => Sys2Proof.Machine.execMonitorCycle s
  | .pduCopyReceived c second bytes => Sys2Proof.Machine.execPduCopyReceived c second bytes s
  | .pduWindowEnd c => Sys2Proof.Machine.execPduWindowEnd c s
  | .pduDegradedTimeout c => Sys2Proof.Machine.execPduDegradedTimeout c s
  | .pduWatchdogTimeout c => Sys2Proof.Machine.execPduWatchdogTimeout c s
  | .pduTransmit c => Sys2Proof.Machine.execPduTransmit c s
  | .sessionTimeout => Sys2Proof.Machine.execSessionTimeout s
  | .supplyRangeChange k out => Sys2Proof.Machine.execSupplyRangeChange k out s
  | .dieTemperature j => Sys2Proof.Machine.execDieTemperature j s
  | .canEnable w c v => Sys2Proof.Machine.execCanEnable w c v s
  | .canFrameReceived c f => Sys2Proof.Machine.execCanFrameReceived c f s
  | .canTransmitComplete c r => Sys2Proof.Machine.execCanTransmitComplete c r s
  | .canBusError c k => Sys2Proof.Machine.execCanBusError c k s
  | .canBusOffRecovery c => Sys2Proof.Machine.execCanBusOffRecovery c s
  | .canTxPush w c v => Sys2Proof.Machine.execCanTxPush w c v s
  | .canRxPop w c v => Sys2Proof.Machine.execCanRxPop w c v s
  | .timeReferenceSend c sent => Sys2Proof.Machine.execTimeReferenceSend c sent s
  | .ethFrameReceived m f => Sys2Proof.Machine.execEthFrameReceived m f s
  | .ethTransmitComplete m r => Sys2Proof.Machine.execEthTransmitComplete m r s
  | .ethLink m up spd => Sys2Proof.Machine.execEthLink m up spd s
  | .ethTxPush w m v => Sys2Proof.Machine.execEthTxPush w m v s
  | .ethRxPop w m v => Sys2Proof.Machine.execEthRxPop w m v s
  | .mdioTransaction w m v => Sys2Proof.Machine.execMdioTransaction w m v s
  | .mdioDone m data => Sys2Proof.Machine.execMdioDone m data s
  | .hostTransportBind w n v => Sys2Proof.Machine.execHostTransportBind w n v s
  | .ptpOffsetLoWrite w v => Sys2Proof.Machine.execPtpOffsetLoWrite w v s
  | .ptpOffsetHiWrite w v => Sys2Proof.Machine.execPtpOffsetHiWrite w v s
  | .sliceStart b => Sys2Proof.Machine.execSliceStart b s
  | .sliceEnd b r => Sys2Proof.Machine.execSliceEnd b r s
  | .scrubRead loc r => Sys2Proof.Machine.execScrubRead loc r s
  | .zeroize w v => Sys2Proof.Machine.execZeroize w v s
  | .scanRequest => Sys2Proof.Machine.execScanRequest s
  | .fuseSvnup w v => Sys2Proof.Machine.execFuseSvnup w v s
  | .fuseRevoke w v => Sys2Proof.Machine.execFuseRevoke w v s
  | .fuseLife w v => Sys2Proof.Machine.execFuseLife w v s
  | .wearEstimate k iBar iRms => Sys2Proof.Machine.execWearEstimate k iBar iRms s
  | .wearRecordSave => Sys2Proof.Machine.execWearRecordSave s
  | .telemetrySample st sig value => Sys2Proof.Machine.execTelemetrySample st sig value s
  | .telemetryPop w st v => Sys2Proof.Machine.execTelemetryPop w st v s
  | .logPageWrite => Sys2Proof.Machine.execLogPageWrite s
  | .frameIntegrityFailure p words partialWord => Sys2Proof.Machine.execFrameIntegrityFailure p words partialWord s
  | .illegalInstruction e => Sys2Proof.Machine.execIllegalInstruction e s
  | .dsmProtectionRelease n earlier pv => Sys2Proof.Machine.execDsmProtectionRelease n earlier pv s
  | .hostTransportFrameSent n events cnt => Sys2Proof.Machine.execHostTransportFrameSent n events cnt s
  | .safeOutputTestEnd j r => Sys2Proof.Machine.execSafeOutputTestEnd j r s

end Sys2Proof.Machine
end

