-- ==== Sys2Proof/Safety.lean ====
section
/-! DEFINITION. The terms in which claims about the machine are stated: the invariant of the state that every step
keeps, what a command leaves unchanged, and what an instruction of an engine does to its pass. -/

namespace Sys2Proof.Machine

/-! The invariant. -/

/-- SRAM keeps its canonical form: an unlisted byte reads 0. -/
def State.sramWf (s : State) : Bool := Memory.wf 0 s.sram

/-- The NV store keeps its canonical form. -/
def State.nvWf (s : State) : Bool := Memory.wf 0 s.nv.bytes

/-- The register file lists its addresses in rising order, each once. -/
def State.regsWf (s : State) : Bool := rising none s.regs

/-- The stored data are in canonical form, so that equal contents are equal data. -/
structure State.Wf (s : State) : Prop where
  sram : s.sramWf = true
  nv : s.nvWf = true
  regs : s.regsWf = true

/-! Frames. -/

/-- The parts of the state, one for each field but the command queue and `localVer`, which only tells the free words of the
local windows apart. -/
inductive Part
  | regs | tbase | rtc | pwr | boot | fuses | sram | poison | upsets | xings | nv | ports | ops | staging | streams | ev | tasks
  | engines | pyr | axes | cmdin | legs | chans | units | edges | links | dsm | conv | comp | plaus | pos | emu | safe
  | can | eth | bgs | ptp | own
  deriving DecidableEq, Repr

/-- A part holds the same in two states. `ptp` is the clock offset of R380, `own` what the model adds of its own. -/
def Part.same (s t : State) : Part → Prop
  | .regs => s.regs = t.regs
  | .tbase => s.tbase = t.tbase
  | .rtc => s.rtc = t.rtc
  | .pwr => s.pwr = t.pwr
  | .boot => s.boot = t.boot
  | .fuses => s.fuses = t.fuses
  | .sram => s.sram = t.sram
  | .poison => s.poison = t.poison
  | .upsets => s.upsets = t.upsets
  | .xings => s.xings = t.xings
  | .nv => s.nv = t.nv
  | .ports => s.ports = t.ports
  | .ops => s.ops = t.ops
  | .staging => s.staging = t.staging
  | .streams => s.streams = t.streams
  | .ev => s.ev = t.ev
  | .tasks => s.tasks = t.tasks
  | .engines => s.engines = t.engines
  | .pyr => s.pyr = t.pyr
  | .axes => s.axes = t.axes
  | .cmdin => s.cmdin = t.cmdin
  | .legs => s.legs = t.legs
  | .chans => s.chans = t.chans
  | .units => s.units = t.units
  | .edges => s.edges = t.edges
  | .links => s.links = t.links
  | .dsm => s.dsm = t.dsm
  | .conv => s.conv = t.conv
  | .comp => s.comp = t.comp
  | .plaus => s.plaus = t.plaus
  | .pos => s.pos = t.pos
  | .emu => s.emu = t.emu
  | .safe => s.safe = t.safe
  | .can => s.can = t.can
  | .eth => s.eth = t.eth
  | .bgs => s.bgs = t.bgs
  | .ptp => s.ptpHeld = t.ptpHeld ∧ s.ptpOfs = t.ptpOfs
  | .own => s.wrCode = t.wrCode ∧ s.freeCtr = t.freeCtr

/-- Every part but those listed is unchanged, the command queue always. -/
def OnlyChanges (l : List Part) (s t : State) : Prop := t.pending = s.pending ∧ ∀ p, p ∉ l → p.same s t

/-- Every register word is unchanged but those at the listed addresses. -/
def OnlyRegs (l : List Nat) (s t : State) : Prop := ∀ a, a ∉ l → assocGet t.regs a = assocGet s.regs a

/-- Every register word is unchanged but those of the listed registers; a pair that the last bridge would make reaches one
instance further, which only an ill-formed topology has. -/
def OnlyRegsOf (l : List Reg) (s t : State) : Prop :=
  ∀ a, (∀ r ∈ l, ∀ k, k ≤ r.n1 * r.n2 → a ≠ r.addr k) → assocGet t.regs a = assocGet s.regs a

/-- What the reactions to a fault of an axis, a bridge or a link change. -/
def reacting : List Part := [.regs, .ev, .axes, .chans, .units, .edges, .links]

/-- The registers that a tripped protection source changes (R252 to R260, R266). -/
def tripRegs : List Reg :=
  [CTL.AXST, DCL.STAT, FBRK.BRST, FBRK.STAT, GATE.SWCLS, GATE.SWFLT0, GATE.SWFLT1]

/-- What an entry into SAFE changes (R41, R44). -/
def enteringSafe : List Part := reacting ++ [.ports, .ops, .staging, .tasks, .safe, .pwr]

/-- The frame of what takes an axis to its safe state. -/
def Reacts (s t : State) : Prop := OnlyChanges reacting s t ∧ OnlyRegsOf [CTL.AXST, DCL.STAT, FBRK.BRST] s t

/-- The frame of what may move a position count (R294 to R315). -/
def Counts (s t : State) : Prop :=
  OnlyChanges [.regs, .ev, .pos, .emu] s t
  ∧ OnlyRegsOf [POS.CMPC, POS.CMPTS, POS.CNT, POS.EMUST, POS.SPEED, POS.STAT] s t

/-- The frame of a command that port `n` takes and answers: the indices of its queues, and the listed parts (R98). -/
def Serves (n : Fin 4) (l : List Part) (s t : State) : Prop :=
  OnlyChanges (.regs :: .ports :: .ev :: l) s t
  ∧ OnlyRegs [QUE.QTAIL.addr (2 * n.val), QUE.QHEAD.addr (2 * n.val), QUE.QTAIL.addr (2 * n.val + 1)] s t

/-- One event has been raised, by source and tag, and nothing else of event delivery has changed; while PD_MEMF is
without power, none (R16, R319). -/
def Raised (src tag : Nat) (s t : State) : Prop :=
  if s.up then
    ∃ r : Raise, t.ev = { s.ev with inFlight := s.ev.inFlight ++ [r] } ∧ r.src.toNat = src ∧ r.tag.toNat = tag
      ∧ r.stamp = s.tbase
  else t.ev = s.ev

/-- A command completes, in a state that meets `Q`. -/
def Ends (i : Instr) (s : State) (Q : State → Prop) : Prop := ∃ t, exec i s = .next t ∧ Q t

/-! Engines. -/

/-- Engine `e` runs step `st` of task `t` (R103): it is powered and not halted, the step waits for no verdict, its pass
has not ended, pass A did not stop with a fault at this instruction (R135), and no codeword of the engine's memories holds
a symbol in error (R36). -/
structure Running (s : State) (e : Fin 16) (t : Task) (st : Step) : Prop where
  up : s.up = true
  going : (s.eng e).halted = false
  head : (s.eng e).steps.head? = some st
  task : s.task? st.task = some t
  open_ : st.judged = false
  more : st.cur.ended = false
  agrees : (st.passB && ((st.resA.bind (·.fault)).map (·.count)) == some st.cur.count) = false
  sound : s.localUpsets e = []

/-- No codeword of SRAM that holds a byte of [a, a + n) has a symbol in error (R31 to R33). -/
def State.unstruck (s : State) (a n : Nat) : Prop :=
  ∀ x ∈ s.upsets, ∀ cw, x.1 = .sram cw → ¬(cw * 32 < a + n ∧ a < cw * 32 + 32)

/-- The native value of a register of a pass (R106, R111). -/
def Pass.nat (p : Pass) (i : Fin 32) : Word := (if i.val = 0 then GReg.zero else p.g[i]).native

/-- The native value of an accumulator. -/
def Pass.natA (p : Pass) (i : Fin 8) : BitVec 72 := p.a[i].native

/-- A native word as a Q1.31 operand (R108). -/
def qOf (w : Word) : Int := if w = 0x80000000 then -(2 ^ 31 - 1) else w.toInt

/-- The flag SAT that a Q1.31 operand of 0x8000_0000 sets (R108). -/
def qSat (l : List Word) : Word := flagIf (l.any (· == 0x80000000)) fSAT

/-- What an instruction leaves of its pass: one more instruction executed, its STW flags (R106), and no fault. -/
structure Pass.Counted (c p : Pass) (fl : Word) : Prop where
  count : p.count = c.count + 1
  flags : p.stw &&& 0x1F = (c.stw ||| fl) &&& 0x1F
  going : p.fault = c.fault ∧ p.ended = c.ended
  queues : p.pops = c.pops ∧ p.pushes = c.pushes

/-- Where a pass goes on after an instruction of `len` words that does not branch, loop ends included (R130, R131). -/
structure Pass.GoesOn (c p : Pass) (len : Nat) : Prop where
  place : p.pc = (c.goOn (c.pc + len)).pc
  outer : p.lc0 = (c.goOn (c.pc + len)).lc0
  inner : p.lc1 = (c.goOn (c.pc + len)).lc1

/-- The pass records no output, no store and no input (R125, R186, R187). -/
structure Pass.Quiet (c p : Pass) : Prop where
  outs : p.outs = c.outs
  stores : p.ssig = c.ssig ∧ p.journal = c.journal
  inputs : p.logPos = c.logPos ∧ p.shadow = c.shadow

/-- An instruction of `len` words that only computes. -/
structure Pass.Ran (c p : Pass) (len : Nat) (fl : Word) : Prop where
  counted : c.Counted p fl
  goes : c.GoesOn p len
  quiet : c.Quiet p

/-- The registers `gd` and up hold native values of a type, g0 aside; every other g register and every accumulator
keeps its value, tag and type. -/
structure Pass.SetsG (c p : Pass) (gd : Fin 32) (vs : List Word) (isF : Bool) : Prop where
  value : ∀ k, (h : k < vs.length) → gd.val + k ≠ 0 → (h' : gd.val + k < 32) →
    (p.g[gd.val + k]).native = vs[k] ∧ (p.g[gd.val + k]).isF = isF
  others : ∀ i : Fin 32, (i.val < gd.val ∨ gd.val + vs.length ≤ i.val ∨ i.val = 0) → p.g[i] = c.g[i]
  accs : p.a = c.a

/-- Accumulator `ad` holds a native value; the others and every g register keep theirs. -/
structure Pass.SetsA (c p : Pass) (ad : Fin 8) (v : BitVec 72) : Prop where
  value : (p.a[ad]).native = v
  others : ∀ i : Fin 8, i ≠ ad → p.a[i] = c.a[i]
  regs : p.g = c.g

/-- A command executes one instruction of engine `e`, which writes native values to `gd` and up and sets flags; of the
machine, only the pass of the running step changes. -/
def Writes (i : Instr) (s : State) (e : Fin 16) (st : Step) (len : Nat) (gd : Fin 32) (vs : List Word) (isF : Bool)
    (fl : Word) : Prop :=
  ∃ p, exec i s = .next (s.setStep e { st with cur := p }) ∧ st.cur.Ran p len fl ∧ st.cur.SetsG p gd vs isF

/-- The same for an instruction whose result is an accumulator. -/
def WritesA (i : Instr) (s : State) (e : Fin 16) (st : Step) (ad : Fin 8) (v : BitVec 72) (fl : Word) : Prop :=
  ∃ p, exec i s = .next (s.setStep e { st with cur := p }) ∧ st.cur.Ran p 1 fl ∧ st.cur.SetsA p ad v

/-- The same for an instruction that only goes on, setting flags. -/
def Passes (i : Instr) (s : State) (e : Fin 16) (st : Step) (fl : Word) : Prop :=
  ∃ p, exec i s = .next (s.setStep e { st with cur := p }) ∧ st.cur.Ran p 1 fl ∧ p.g = st.cur.g ∧ p.a = st.cur.a

/-- Byte address `b` of the code segment is a place a branch may go: word `w` of it (R130). -/
def Task.isTarget (t : Task) (b : Int) (w : Nat) : Prop :=
  b = 4 * (w : Int) ∧ w < t.code.length ∧ w ∉ longSeconds false 0 t.code

/-- The place a pass goes to when it branches to word `w`: the loops whose bodies it leaves end (R131). -/
structure Pass.Jumps (c p : Pass) (w : Nat) : Prop where
  place : p.pc = w
  outer : p.lc0 = (c.jumpTo w).lc0
  inner : p.lc1 = (c.jumpTo w).lc1

/-- A branch: to its target where it is taken, to its successor where it is not; g registers as `g` says. -/
def Branches (i : Instr) (s : State) (e : Fin 16) (t : Task) (st : Step) (taken : Bool) (b : Int) (fl : Word) : Prop :=
  ∀ w, (taken = true → t.isTarget b w) →
    ∃ p, exec i s = .next (s.setStep e { st with cur := p }) ∧ st.cur.Counted p fl ∧ st.cur.Quiet p
      ∧ p.g = st.cur.g ∧ p.a = st.cur.a
      ∧ if taken then st.cur.Jumps p w else st.cur.GoesOn p 1

/-- An instruction that adds one output to the step's list (R125, R147) and only goes on. -/
def Outputs (i : Instr) (s : State) (e : Fin 16) (st : Step) (x : OutItem) (fl : Word) : Prop :=
  ∃ p, exec i s = .next (s.setStep e { st with cur := p }) ∧ st.cur.Counted p fl ∧ st.cur.GoesOn p 1
    ∧ p.outs = st.cur.outs ++ [x] ∧ p.ssig = st.cur.ssig ∧ p.journal = st.cur.journal ∧ p.logPos = st.cur.logPos
    ∧ p.shadow = st.cur.shadow ∧ p.g = st.cur.g ∧ p.a = st.cur.a

/-- An instruction that stops its pass with a fault (R134): the record of it is kept, and nothing of the instruction is
done. In pass A pass B starts, which runs the step again from its entry. -/
def Faults (i : Instr) (s : State) (e : Fin 16) (t : Task) (st : Step) (code err : Nat) : Prop :=
  st.passB = false → st.debug = false → s.slotsUsed e < 4 →
    exec i s = .next (s.setStep e { st with
      passB := true, cur := t.pass,
      resA := some { st.cur with fault := some ⟨code, err, st.cur.pc, st.cur.count⟩ } })

/-! Native results of the ALU (R117), by FN. -/

/-- A result of Q1.31 operands, with the flags it and its operands set. -/
def outQ (x : Int × Word) (l : List Word) : Word × Word := (ofInt x.1, x.2 ||| qSat l)

/-- The native result and flags of an ALU operation on native operands. -/
def aluNative (fn : Nat) (a b c : Word) : Word × Word :=
  match fn with
  | 0x00 => outQ (satOut (qOf a + qOf b)) [a, b]
  | 0x01 => outQ (satOut (qOf a - qOf b)) [a, b]
  | 0x02 => outQ (-qOf a, 0) [a]
  | 0x03 => outQ (absI (qOf a), 0) [a]
  | 0x04 => outQ (rndDiv (qOf a * qOf b) (2 ^ 31), 0) [a, b]
  | 0x05 => if qOf b = 0 then outQ (sgnI (qOf a) * (2 ^ 31 - 1), fDVZ) [a, b]
            else outQ (satOut (rndQuot (2 ^ 31 * qOf a) (qOf b))) [a, b]
  | 0x06 => outQ (min (qOf a) (qOf b), 0) [a, b]
  | 0x07 => outQ (max (qOf a) (qOf b), 0) [a, b]
  | 0x08 => outQ (clipOut (absI (qOf b)) (qOf a)) [a, b]
  | 0x09 => let v := if qOf c < qOf b then 0 else clampI (qOf b) (qOf c) (qOf a)
            outQ (v, flagIf (v != qOf a) fCLIP) [a, b, c]
  | 0x0A => outQ (satOut (qOf a * 2 ^ b.toNat)) [a]
  | 0x0B => outQ (rndDiv (qOf a) (2 ^ b.toNat), 0) [a]
  | 0x0C => if a.toInt < 0 then (0, fCLIP) else (BitVec.ofNat 32 (rndSqrt (a.toNat * 2 ^ 31)), 0)
  | 0x10 => (a + b, wrapFlag (a.toInt + b.toInt))
  | 0x11 => (a - b, wrapFlag (a.toInt - b.toInt))
  | 0x12 => (a * b, wrapFlag (a.toInt * b.toInt))
  | 0x13 => if b = 0 then (0, fDVZ) else (ofInt (a.toInt.tdiv b.toInt), wrapFlag (a.toInt.tdiv b.toInt))
  | 0x14 => (a &&& b, 0)
  | 0x15 => (a ||| b, 0)
  | 0x16 => (a ^^^ b, 0)
  | 0x17 => (a <<< (b.toNat % 32), 0)
  | 0x18 => (a >>> (b.toNat % 32), 0)
  | 0x19 => (BitVec.sshiftRight a (b.toNat % 32), 0)
  | 0x1A => (if a = 0 then 32 else BitVec.ofNat 32 (31 - Nat.log2 a.toNat), 0)
  | 0x22 => outQ (if qOf a = qOf b then 1 else 0, 0) [a, b]
  | 0x23 => outQ (if qOf a < qOf b then 1 else 0, 0) [a, b]
  | 0x24 => outQ (if qOf a ≤ qOf b then 1 else 0, 0) [a, b]
  | 0x25 => (if a.toNat < b.toNat then 1 else 0, 0)
  | _ => (0, 0)

/-- An ALU instruction writes the native result of its FN to `gd`, as type I. -/
def WritesAlu (i : Instr) (s : State) (e : Fin 16) (st : Step) (len : Nat) (gd : Fin 32) (fn : Nat) (a b c : Word) : Prop :=
  Writes i s e st len gd [(aluNative fn a b c).1] false (aluNative fn a b c).2

/-- The type of a register as an operand (R106). -/
def Pass.ty (p : Pass) (i : Fin 32) : Bool := if i.val = 0 then false else p.g[i].isF

/-- A long ALU form whose FN R117 defines and whose fields that it does not use are 0 (R115, R133). -/
def longDefined (fn : Nat) (gx : Fin 32) (imm : Word) : Bool :=
  (fn == 0x09 || fn == 0x21)
  || (gx.val == 0 && (fn ∈ [0x00, 0x01, 0x04, 0x05, 0x06, 0x07, 0x08, 0x10, 0x11, 0x12, 0x13, 0x14, 0x15, 0x16, 0x17,
        0x18, 0x19, 0x22, 0x23, 0x24, 0x25]
      || (fn ∈ [0x02, 0x03, 0x0C, 0x1A, 0x20] && imm == 0) || (fn ∈ [0x0A, 0x0B] && decide (imm.toNat < 32))))

/-! Register writes and host commands. -/

/-- A write of `v` to member `k` of register `r` by `w`, which writes for port `n`, passes every check of R9. -/
structure Accepted (s : State) (w : Who) (r : Reg) (k : Nat) (v : Word) (n : Fin 4) : Prop where
  up : s.up = true
  serving : s.islandUp 18 = true
  mode : s.mode ≠ mBOOT ∧ s.mode ≠ mSLEEP
  writer : s.writerPort w = some n
  code : s.writeCode n (r.addr k) [v] = eOK

/-- The word that an accepted write leaves in the register itself (R8). -/
def State.merged (s : State) (r : Reg) (k : Nat) (v : Word) : Word :=
  BitVec.ofNat 32 (mergeWord r k (s.word r k).toNat v.toNat)

/-- No engine is halted, or about to execute one instruction, under debug (R206), and no step runs so. -/
def State.noDebug (s : State) : Prop :=
  ∀ e : Fin 16, s.engines[e].halted = false ∧ s.engines[e].stepReq = false ∧ ∀ st ∈ s.engines[e].steps, st.debug = false

/-- No engine is about to execute one instruction under debug, and no step under debug has ended that has not been released
(R205, R206). -/
def State.noStep (s : State) : Prop :=
  ∀ e : Fin 16, s.engines[e].stepReq = false
    ∧ ∀ st ∈ s.engines[e].steps, st.debug = true → st.cur.ended = false ∧ st.cur.fault = none

/-- A register whose write does nothing but store its word (R8). -/
def plainReg (r : Reg) : Bool :=
  !(r ∈ [DSM.CLK, DSM.CH, ADC.CFG, CMP.CFG, CMP.TH, CMP.RDBK, POS.CFG, POS.CMD, POS.CMPC, POS.CMPV, POS.EMUCFG, CTL.AXCFG,
    CTL.AXCMD, CTL.CMDCFG, GATE.CH, GATE.SWFLT0, GATE.SWFLT1, FBRK.BRREL, DCL.CFG, DCL.DSCCMD, SAFE.SIN, SAFE.CONN, QUE.QCFG,
    EVT.DOORBELL, PYR.STAT, PYR.DBGCTL, CAN.CFG, CAN.TXPUSH, CAN.RXPOP, ETH.TXPUSH, ETH.RXPOP, ETH.MDIO, ETH.PTPOFS_LO,
    ETH.PTPOFS_HI, BGS.PWRCAP, BGS.TPOP, NVS.FUSECMD, NVS.ZEROIZE])

/-- Port `n` can take a command over SPI at once: its transport runs, no frame waits anywhere, the port waits for
nothing, and there is room for the answer (R71, R78, R79, R378). -/
structure State.Ready (s : State) (n : Fin 4) : Prop where
  up : s.spiUp = true
  spi : s.gb ETH.HBIND_EN n = false
  idle : ∀ m : Fin 4, s.ports[m].cmds = []
  free : s.ports[n].busy = none
  room : s.ports[n].resps.length < 64

/-- The state in which port `n` has taken a command (R79, R98). -/
def State.taken (n : Fin 4) (opc : Nat) (tag : BitVec 8) (arg : Word) (pl : List Word) (s : State) : State :=
  State.takeFrame n (hostFrame opc tag arg pl) [] (State.enqueue n (hostFrame opc tag arg pl) s)

/-- The newest answer of port `n` is this one, and the port is free again (R74). -/
def State.answered (s : State) (n : Fin 4) (opc : Nat) (tag : BitVec 8) (code : Code) (pl : List Word) : Prop :=
  s.ports[n].busy = none ∧ s.ports[n].resps.getLast? = some ⟨BitVec.ofNat 8 opc, tag, code, pl⟩

/-- The command of port `n` stays in service for what it waits for (R79). -/
def State.waitsFor (s : State) (n : Fin 4) (opc : Nat) (tag : BitVec 8) (w : Waiting) : Prop :=
  ∃ f : Frame, s.ports[n].busy = some (f, w) ∧ f.opc = BitVec.ofNat 8 opc ∧ f.tag = tag

/-- A long operation of port `n` is pending, newly begun, and E_PENDING with its token answers (R91). -/
def State.begun (s t : State) (n : Fin 4) (opc : Nat) (tag : BitVec 8) (k : OpKind) (total : Nat) : Prop :=
  let tok := BitVec.ofNat 32 (n.val * 2 ^ 30 + opc * 65536 + (s.ports[n].serial + 1).toNat)
  t.answered n opc tag ePENDING [tok]
    ∧ Serves n [.ops] s t ∧ ∃ o : LongOp, t.ops = s.ops ++ [o] ∧ o.token = tok ∧ o.port = n ∧ o.kind = k ∧ o.done = 0 ∧ o.total = total

end Sys2Proof.Machine
end

