-- ==== Sys2Proof/Certificates/Slice0/Obligations.lean ====
section
/-! DEFINITION. The statements about this model, from the numbered rules of the spec. -/

open Sys2Proof Sys2Proof.Machine

/-! Rhaxel: results of instructions. Every statement holds in both passes, with any tags: it speaks of native values
(R111), which is what R113 promises. -/

/-- R117, R118: the register and immediate forms of the ALU write the native result of their FN, as type I, and set the
flags it sets; nothing else of the machine changes. -/
def Obligations.AluResults : Prop :=
  ∀ (s : State) (e : Fin 16) (t : Task) (st : Step), Running s e t st →
    ∀ (gd ga gb gc n : Fin 32) (imm : BitVec 16),
      let a := st.cur.nat ga
      let b := st.cur.nat gb
      let c := st.cur.nat gc
      let sx : Word := imm.signExtend 32
      let zx : Word := imm.setWidth 32
      let sh : Word := BitVec.ofNat 32 n.val
      WritesAlu (.adds e gd ga gb) s e st 1 gd 0x00 a b 0
      ∧ WritesAlu (.subs e gd ga gb) s e st 1 gd 0x01 a b 0
      ∧ WritesAlu (.negs e gd ga) s e st 1 gd 0x02 a 0 0
      ∧ WritesAlu (.abss e gd ga) s e st 1 gd 0x03 a 0 0
      ∧ WritesAlu (.mulq e gd ga gb) s e st 1 gd 0x04 a b 0
      ∧ WritesAlu (.divq e gd ga gb) s e st 1 gd 0x05 a b 0
      ∧ WritesAlu (.min e gd ga gb) s e st 1 gd 0x06 a b 0
      ∧ WritesAlu (.max e gd ga gb) s e st 1 gd 0x07 a b 0
      ∧ WritesAlu (.clips e gd ga gb) s e st 1 gd 0x08 a b 0
      ∧ WritesAlu (.clipr e gd ga gb gc) s e st 1 gd 0x09 a b c
      ∧ WritesAlu (.shls e gd ga n) s e st 1 gd 0x0A a sh 0
      ∧ WritesAlu (.shrq e gd ga n) s e st 1 gd 0x0B a sh 0
      ∧ WritesAlu (.sqrtq e gd ga) s e st 1 gd 0x0C a 0 0
      ∧ WritesAlu (.addw e gd ga gb) s e st 1 gd 0x10 a b 0
      ∧ WritesAlu (.subw e gd ga gb) s e st 1 gd 0x11 a b 0
      ∧ WritesAlu (.mulw e gd ga gb) s e st 1 gd 0x12 a b 0
      ∧ WritesAlu (.divw e gd ga gb) s e st 1 gd 0x13 a b 0
      ∧ WritesAlu (.and e gd ga gb) s e st 1 gd 0x14 a b 0
      ∧ WritesAlu (.or e gd ga gb) s e st 1 gd 0x15 a b 0
      ∧ WritesAlu (.xor e gd ga gb) s e st 1 gd 0x16 a b 0
      ∧ WritesAlu (.shl e gd ga gb) s e st 1 gd 0x17 a b 0
      ∧ WritesAlu (.shr e gd ga gb) s e st 1 gd 0x18 a b 0
      ∧ WritesAlu (.shra e gd ga gb) s e st 1 gd 0x19 a b 0
      ∧ WritesAlu (.clz e gd ga) s e st 1 gd 0x1A a 0 0
      ∧ WritesAlu (.seq e gd ga gb) s e st 1 gd 0x22 a b 0
      ∧ WritesAlu (.slt e gd ga gb) s e st 1 gd 0x23 a b 0
      ∧ WritesAlu (.sle e gd ga gb) s e st 1 gd 0x24 a b 0
      ∧ WritesAlu (.sltu e gd ga gb) s e st 1 gd 0x25 a b 0
      ∧ WritesAlu (.addsi e gd ga imm) s e st 1 gd 0x00 a sx 0
      ∧ WritesAlu (.addwi e gd ga imm) s e st 1 gd 0x10 a sx 0
      ∧ WritesAlu (.andi e gd ga imm) s e st 1 gd 0x14 a zx 0
      ∧ WritesAlu (.ori e gd ga imm) s e st 1 gd 0x15 a zx 0
      ∧ WritesAlu (.xori e gd ga imm) s e st 1 gd 0x16 a zx 0
      ∧ WritesAlu (.slti e gd ga imm) s e st 1 gd 0x23 a sx 0

/-- R117, R118, R133: moves and immediates write their value with the type it has, and set no flag.
R133: a long form of a defined FN applies the ALU operation of that FN, with the immediate in its place (the
upper bound of CLIPR, the second choice of CSEL, else the second operand or the count); it is two words long. -/
def Obligations.AluMovesAndLongForms : Prop :=
  (
    ∀ (s : State) (e : Fin 16) (t : Task) (st : Step), Running s e t st →
      ∀ (gd ga gb gc : Fin 32) (imm : BitVec 16) (w : Word),
        let c := st.cur
        Writes (.mov e gd ga) s e st 1 gd [c.nat ga] (c.ty ga) 0
        ∧ Writes (.csel e gd ga gb gc) s e st 1 gd [if c.nat gc ≠ 0 then c.nat ga else c.nat gb]
            (if c.nat gc ≠ 0 then c.ty ga else c.ty gb) 0
        ∧ Writes (.movi e gd imm) s e st 1 gd [imm.signExtend 32] false 0
        ∧ Writes (.lui e gd imm) s e st 1 gd [imm.setWidth 32 <<< 16] false 0
        ∧ Writes (.movl e gd w) s e st 2 gd [w] false 0
  )
  ∧ (
    ∀ (s : State) (e : Fin 16) (t : Task) (st : Step), Running s e t st →
      ∀ (fn : BitVec 6) (gd ga gx : Fin 32) (imm : Word), longDefined fn.toNat gx imm = true →
        let c := st.cur
        let i : Instr := .longAlu e fn gd ga gx imm
        if fn.toNat = 0x20 then Writes i s e st 2 gd [c.nat ga] (c.ty ga) 0
        else if fn.toNat = 0x21 then
          Writes i s e st 2 gd [if c.nat gx ≠ 0 then c.nat ga else imm] (if c.nat gx ≠ 0 then c.ty ga else false) 0
        else WritesAlu i s e st 2 gd fn.toNat (c.nat ga) (if fn.toNat = 0x09 then c.nat gx else imm) imm
  )

/-- R119: the accumulator instructions, on native values inside the range of R110: exact products, a clamp to
±(2^71 − 1) with OVF, and EXT's rounding and saturation with SAT. -/
def Obligations.Accumulators : Prop :=
  ∀ (s : State) (e : Fin 16) (t : Task) (st : Step), Running s e t st →
    ∀ (ad as : Fin 8) (ga gb g : Fin 32) (sh : BitVec 5),
      let c := st.cur
      let x := qOf (c.nat ga)
      let y := qOf (c.nat gb)
      let fl := qSat [c.nat ga, c.nat gb]
      let acc := (c.natA ad).toInt
      let src := (c.natA as).toInt
      c.natA ad ≠ BitVec.intMin 72 → c.natA as ≠ BitVec.intMin 72 →
      WritesA (.aclr e ad) s e st ad 0 0
      ∧ WritesA (.mula e ad ga gb) s e st ad (BitVec.ofInt 72 (x * y)) fl
      ∧ WritesA (.maca e ad ga gb) s e st ad (BitVec.ofInt 72 (accOut (acc + x * y)).1) ((accOut (acc + x * y)).2 ||| fl)
      ∧ WritesA (.msua e ad ga gb) s e st ad (BitVec.ofInt 72 (accOut (acc - x * y)).1) ((accOut (acc - x * y)).2 ||| fl)
      ∧ WritesA (.amov e ad as) s e st ad (c.natA as) 0
      ∧ WritesA (.aadd e ad as) s e st ad (BitVec.ofInt 72 (accOut (acc + src)).1) (accOut (acc + src)).2
      ∧ WritesA (.aneg e ad as) s e st ad (-(c.natA as)) 0
      ∧ WritesA (.aldq e ad ga) s e st ad (BitVec.ofInt 72 (x * 2 ^ 31)) (qSat [c.nat ga])
      ∧ (let z := satOut (rndDiv acc (2 ^ (31 - sh.toInt).toNat))
         Writes (.ext e g ad sh) s e st 1 g [ofInt z.1] false z.2)

/-- R120, R109: the FPU on native values. -/
def Obligations.FpuResults : Prop :=
  ∀ (s : State) (e : Fin 16) (t : Task) (st : Step), Running s e t st →
    ∀ (gd ga gb : Fin 32),
      let c := st.cur
      let a := F32.of (c.nat ga)
      let b := F32.of (c.nat gb)
      let d := F32.of (c.nat gd)
      let bool := fun (x : Bool) => ([if x then 1 else 0] : List Word)
      let F := fun (i : Instr) (z : Word × Word) => Writes i s e st 1 gd [z.1] true z.2
      let toI := fun (i : Instr) (k : Int) (trunc : Bool) =>
        let z : Int × Word := match a with
          | .nan => (0, 0)
          | .inf n => (if n then -(2 ^ 31 - 1) else 2 ^ 31 - 1, fSAT)
          | x => satOut ((toIntF k trunc x).getD 0)
        Writes i s e st 1 gd [ofInt z.1] false z.2
      F (.fadd e gd ga gb) (addF a b)
      ∧ F (.fsub e gd ga gb) (addF a (negF b))
      ∧ F (.fmul e gd ga gb) (outF (mulExact a b))
      ∧ F (.fdiv e gd ga gb)
          (if b.isZero then if a.isZero || a == .nan then (nanWord, fNAN ||| fDVZ) else (infWord a.neg, fDVZ) else divF a b)
      ∧ F (.fma e gd ga gb) (addF (mulExact a b).norm d)
      ∧ F (.fneg e gd ga) (F32.word (c.nat ga ^^^ 0x80000000), 0)
      ∧ F (.fabs e gd ga) (F32.word (c.nat ga &&& 0x7FFFFFFF), 0)
      ∧ F (.fmin e gd ga gb)
          (if a = .nan ∨ b = .nan then F32.word (Config.minMaxNan false (c.nat ga) (c.nat gb))
           else F32.word (if ltF a b then c.nat ga else c.nat gb), 0)
      ∧ F (.fmax e gd ga gb)
          (if a = .nan ∨ b = .nan then F32.word (Config.minMaxNan true (c.nat ga) (c.nat gb))
           else F32.word (if ltF a b then c.nat gb else c.nat ga), 0)
      ∧ F (.fsqrt e gd ga) (sqrtF a)
      ∧ Writes (.fslt e gd ga gb) s e st 1 gd (bool (ltF a b)) false 0
      ∧ Writes (.fsle e gd ga gb) s e st 1 gd (bool (leF a b)) false 0
      ∧ Writes (.fseq e gd ga gb) s e st 1 gd (bool (eqF a b)) false 0
      ∧ toI (.ftoq e gd ga) 31 false
      ∧ toI (.ftoi e gd ga) 0 true
      ∧ F (.itof e gd ga) ((roundZ (c.nat ga).toInt 0).1, 0)
      ∧ F (.qtof e gd ga) ((roundZ (c.nat ga).toInt (-31)).1, 0)

/-- R141 to R145: the field-control transforms, on native values, where their register groups lie inside g1–g31. -/
def Obligations.FieldTransforms : Prop :=
  ∀ (s : State) (e : Fin 16) (t : Task) (st : Step), Running s e t st →
    ∀ (gd ga gb : Fin 32), gd.val ≠ 0 →
      let c := st.cur
      let src := fun (n : Nat) => (List.range n).map fun k => c.nat (Fin.ofNat 32 (ga.val + k))
      let q := fun (n : Nat) => (src n).map qOf
      let x := (q 2).getD 0 0
      let y := (q 2).getD 1 0
      let th := c.nat gb
      let sn := sinCode th
      let cs := cosCode th
      let lin := fun (i : Instr) (n m : Nat) (z : List Int) =>
        ga.val + n ≤ 32 → gd.val + m ≤ 32 →
          Writes i s e st 1 gd ((satAll z).1.map ofInt) false ((satAll z).2 ||| qSat (src n))
      lin (.clarke e gd ga) 3 3 (clarkeOf (q 3))
      ∧ lin (.clarke2 e gd ga) 2 2 (clarke2Of (q 2))
      ∧ lin (.iclarke e gd ga) 2 3 (iclarkeOf (q 2))
      ∧ lin (.park e gd ga gb) 2 2 [rndDiv (x * cs + y * sn) (2 ^ 31), rndDiv (-(x * sn) + y * cs) (2 ^ 31)]
      ∧ lin (.ipark e gd ga gb) 2 2 [rndDiv (x * cs - y * sn) (2 ^ 31), rndDiv (x * sn + y * cs) (2 ^ 31)]
      ∧ (gd.val + 2 ≤ 32 →
          Writes (.sincos e gd ga) s e st 1 gd [ofInt (sinCode (c.nat ga)), ofInt (cosCode (c.nat ga))] false 0)
      ∧ (ga.val + 2 ≤ 32 → gd.val + 2 ≤ 32 →
          let m := satOut (rndSqrt (x * x + y * y).toNat)
          Writes (.vec e gd ga) s e st 1 gd [ofInt m.1, if x = 0 ∧ y = 0 then 0 else atanCode y x] false
            (m.2 ||| qSat (src 2)))
      ∧ Writes (.angadd e gd ga gb) s e st 1 gd [c.nat ga + c.nat gb] false 0

/-- R144, R145, R146: the modulators, the limiters and the controller, on native values. SVM normalises a vector that
the link cannot give and sets CLIP; LIM2 keeps the direction and LIM2D the first component; PIDQ freezes its integrator
in saturation. -/
def Obligations.FieldControllers : Prop :=
  ∀ (s : State) (e : Fin 16) (t : Task) (st : Step), Running s e t st →
    ∀ (gd ga gb : Fin 32) (ad : Fin 8) (sh : BitVec 2), gd.val ≠ 0 → ga.val + 2 ≤ 32 →
      let c := st.cur
      let w := [c.nat ga, c.nat (Fin.ofNat 32 (ga.val + 1))]
      let x := qOf (w.getD 0 0)
      let y := qOf (w.getD 1 0)
      let v := phases x y
      let hi := v.foldl max (v.getD 0 0)
      let lo := v.foldl min (v.getD 0 0)
      let big := v.foldl (fun b z => if absI b < absI z then z else b) (v.getD 0 0)
      let wide := decide (2 ^ 71 < hi - lo)
      let svm := fun (off rail : Int) => v.map fun z =>
        ofInt (sat31 (if wide then rndDiv (2 ^ 31 * (2 * z - off) + rail * 2 ^ 31 * (hi - lo)) (hi - lo)
                      else rndDiv (2 * z - off + rail * 2 ^ 71) (2 ^ 40)))
      let g := c.nat gb
      let lim := (qOf g).natAbs
      let n := (x * x + y * y).toNat
      let d := clampI (-lim) lim x
      let r : Int := isqrt (lim * lim - (d * d).toNat)
      (gd.val + 3 ≤ 32 →
        Writes (.svm7 e gd ga) s e st 1 gd (svm (hi + lo) 0) false (flagIf wide fCLIP ||| qSat w)
        ∧ Writes (.svm5 e gd ga) s e st 1 gd (svm (2 * big) (sgnI big)) false (flagIf wide fCLIP ||| qSat w))
      ∧ (gd.val + 2 ≤ 32 →
        Writes (.lim2 e gd ga gb) s e st 1 gd
            (if n ≤ lim * lim then [ofInt x, ofInt y] else [ofInt (scaleTo x lim n), ofInt (scaleTo y lim n)]) false
            (flagIf (decide (lim * lim < n)) fCLIP ||| qSat (w ++ [g]))
        ∧ Writes (.lim2d e gd ga gb) s e st 1 gd [ofInt d, ofInt (clampI (-r) r y)] false
            (flagIf (d != x || clampI (-r) r y != y) fCLIP ||| qSat (w ++ [g])))
      ∧ (gb.val + 4 ≤ 32 → c.natA ad ≠ BitVec.intMin 72 →
        let gains := (List.range 4).map fun k => c.nat (Fin.ofNat 32 (gb.val + k))
        let gain := fun (k : Nat) => qOf (gains.getD k 0)
        let k : Int := 2 ^ [0, 2, 4, 8].getD sh.toNat 0
        let lim := absI (gain 3)
        let pp := gain 0 * x
        let jj := gain 1 * x
        let dd := gain 2 * sat31 (x - y)
        let i0 := (c.natA ad).toInt
        let u0 := k * (pp + i0 + jj + dd)
        let frozen := decide (lim * 2 ^ 31 < absI u0) && sgnI jj != 0 && sgnI jj == sgnI u0
        let c1 := clipOut (lim * 2 ^ 31 / k) (if frozen then i0 else i0 + jj)
        let u := clipOut lim (rndDiv (k * (pp + c1.1 + dd)) (2 ^ 31))
        let a1 := accOut c1.1
        ∃ p, exec (.pidq e gd ga gb ad sh) s = .next (s.setStep e { st with cur := p })
          ∧ c.Ran p 1 (c1.2 ||| u.2 ||| a1.2 ||| qSat (w ++ gains))
          ∧ (p.g[gd]).native = ofInt u.1 ∧ (∀ i : Fin 32, i ≠ gd → p.g[i] = c.g[i])
          ∧ (p.a[ad]).native = BitVec.ofInt 72 a1.1 ∧ (∀ i : Fin 8, i ≠ ad → p.a[i] = c.a[i]))

/-! Rhaxel: segments, absolute accesses and queues. -/

/-- R121, R122, R123, R124: a load of a word, a half word, a byte or a 16-byte unit at native(ga) + offset, inside its
segment, aligned and of a kind the segment allows, from memory that is not poisoned. Pass B reads its own copy at the
offset XOR M, mirrored; CONST is read alike in both passes. A unit of −2^71, which no store leaves, is clamped (R110). -/
def Obligations.SegmentLoads : Prop :=
  ∀ (s : State) (e : Fin 16) (t : Task) (st : Step), Running s e t st →
    ∀ (gd ga : Fin 32) (ad : Fin 8) (off : BitVec 16),
      let a := (st.cur.nat ga + off.signExtend 32).toNat
      let seg := a / 2 ^ 24
      let o := a % 2 ^ 24
      let own := if st.passB then o ^^^ (if seg = 0 then t.maskS else t.maskM) else o
      let data := fun (n : Nat) => if seg = 2 then s.constGet t o n else s.segGet t (seg == 1) st.passB own n
      let lies : Option Nat := match (if seg = 2 then t.placeC else t.place (seg == 1) st.passB) with
        | .sram b => some (b + if seg = 2 then o else own)
        | .localMem => none
      let fits := fun (n : Nat) => seg ≤ 2 ∧ o + n ≤ t.segSize seg ∧ o % n = 0
        ∧ ∀ x, lies = some x → s.poisoned x n = false ∧ s.unstruck x n
      let mirrored := st.passB && seg != 2
      let word := BitVec.ofNat 32 (leNat (data 4))
      (fits 4 →
        Writes (.ld32 e gd ga off) s e st 1 gd [if mirrored then mirrorWord false word else word] false 0
        ∧ Writes (.ldf e gd ga off) s e st 1 gd [if mirrored then mirrorWord true word else word] true 0)
      ∧ (fits 2 → seg = 2 →
        Writes (.ld16 e gd ga off) s e st 1 gd [ofInt (sext 16 (leNat (data 2)))] false 0
        ∧ Writes (.ld16u e gd ga off) s e st 1 gd [BitVec.ofNat 32 (leNat (data 2))] false 0)
      ∧ (fits 1 → seg = 2 → Writes (.ld8u e gd ga off) s e st 1 gd [BitVec.ofNat 32 (leNat (data 1))] false 0)
      ∧ (fits 16 →
        let v := sext 72 (leNat ((data 16).take 9))
        let z := accOut (if mirrored && v != -(2 ^ 71) then -v else v)
        WritesA (.ldacc e ad ga off) s e st ad (BitVec.ofInt 72 z.1) z.2)

/-- R104, R122, R123, R124: a store of a word or of a 16-byte unit to STATE or MBOX. The pass's own copy takes the
native value, mirrored in pass B; the journal keeps the old line at the first store to it; no register changes.
Reading a segment copy after a store to it: the stored bytes where it went, every other byte of every copy of
every task as before, where the copy lies in the engine's data memory. -/
def Obligations.SegmentStores : Prop :=
  (
    ∀ (s : State) (e : Fin 16) (t : Task) (st : Step), Running s e t st →
      ∀ (gd ga : Fin 32) (ad : Fin 8) (off : BitVec 16),
        let a := (st.cur.nat ga + off.signExtend 32).toNat
        let mb := a / 2 ^ 24 == 1
        let o := a % 2 ^ 24
        let own := if st.passB then o ^^^ (if mb then t.maskM else t.maskS) else o
        let fits := fun (n : Nat) => a / 2 ^ 24 ≤ 1 ∧ o + n ≤ t.segSize (a / 2 ^ 24) ∧ o % n = 0
          ∧ ∀ b, t.place mb st.passB = .sram b → s.unstruck (b + own) n
        let known := st.cur.journal.any fun j => j.mbox == mb && j.line == own / 32
        let line : JLine := ⟨mb, st.passB, own / 32, s.segGet t mb st.passB (own / 32 * 32) 32⟩
        let w := st.cur.nat gd
        let unit := (st.cur.natA ad).toInt
        let stores := fun (i : Instr) (l : List Byte) =>
          ∃ p, exec i s = .next ((State.segPut t.id mb st.passB own l s).setStep e { st with cur := p })
            ∧ st.cur.Counted p 0 ∧ st.cur.GoesOn p 1 ∧ p.g = st.cur.g ∧ p.a = st.cur.a ∧ p.outs = st.cur.outs
            ∧ p.logPos = st.cur.logPos ∧ p.journal = if known then st.cur.journal else st.cur.journal ++ [line]
        known = true ∨ st.cur.journal.length < 128 →
        (fits 4 → stores (.st32 e gd ga off)
          (leBytes 4 (if st.passB then mirrorWord (st.cur.ty gd) w else w).toNat))
        ∧ (fits 16 → stores (.stacc e ad ga off)
          (leBytes 12 (codeOf 96 (if st.passB then -unit else unit)) ++ [0, 0, 0, 0]))
  )
  ∧ (
    ∀ (s : State) (t : Task) (mb pB : Bool) (off : Nat) (l : List Byte),
      s.task? t.id = some t → t.place mb pB = .localMem →
        let s' := State.segPut t.id mb pB off l s
        OnlyChanges [.tasks] s s'
        ∧ ∃ t', s'.task? t.id = some t' ∧ s'.segGet t' mb pB off l.length = l
          ∧ (∀ a, (a < off ∨ off + l.length ≤ a) → byteAt (t'.copy mb pB) a = byteAt (t.copy mb pB) a)
          ∧ (∀ mb' pB', (mb', pB') ≠ (mb, pB) → t'.copy mb' pB' = t.copy mb' pB')
          ∧ (∀ n, n ≠ t.id → s'.task? n = s.task? n)
  )

/-- R101, R125, R127, R128: LDA and LDAL. In pass A the word read goes to gd and to the input log: a word of memory, of a
register, or of the engine's own window; the low half of a wide value latches the high half, which is then read from the
shadow. A refused access stops the pass with ABSREF or MEMUNC, and the log keeps the fault. Where the log already has an
entry for the load (in pass B, and in a step begun again on another engine), that is taken, whose address must be the same,
memory is not read, and a fault logged there is met again. Another engine's window and a 33rd entry are faults. -/
def Obligations.AbsoluteLoads : Prop :=
  ∀ (s : State) (e : Fin 16) (t : Task) (st : Step), Running s e t st →
    ∀ (gd ga : Fin 32) (off : BitVec 16) (imm : Word),
      let gives := fun (i : Instr) (len : Nat) (log : List LogEntry) (v : Word) (shadow : Option (Nat × Word)) (s' : State) =>
        ∃ p, exec i s = .next (s'.setStep e { st with cur := p, log := log })
          ∧ st.cur.Counted p 0 ∧ st.cur.GoesOn p len ∧ st.cur.SetsG p gd [v] false
          ∧ p.outs = st.cur.outs ∧ p.logPos = st.cur.logPos + 1 ∧ p.shadow = shadow
      let loads := fun (i : Instr) (len a : Nat) =>
        let reads := fun (v : Word) (high : Option Word) => gives i len (st.log ++ [⟨a, v, high, none⟩]) v
        let torn := s.pbit SYS.RDSTAT_ETORN 0 e true
        (windowOf a = some e.val → a % 4 = 0 → reads (s.windowWord a) none st.cur.shadow s)
        ∧ (windowOf a = none → (a < sramEnd → s.unstruck a 4) →
          (∀ v, s.absWord a = .ok v →
            match regAt a with
            | none => reads v none st.cur.shadow (if freeArea a then s.used else s)
            | some (g, k) =>
              freeArea a = false →
              match highOf g, pairOf g k with
              | some h, some (lo, _) => reads v (some (s.regRead h k)) (some (lo, s.regRead h k)) s
              | none, some (lo, true) =>
                match st.cur.shadow with
                | some (x, w) => if x = lo then reads w none st.cur.shadow s else reads v none st.cur.shadow torn
                | none => reads v none none torn
              | _, _ => reads v none st.cur.shadow s)
          ∧ ∀ c, s.absWord a = .error c → st.debug = false → s.slotsUsed e < 4 →
              let k := if c = eMEMCHK then cMEMUNC else cABSREF
              exec i s = .next (s.setStep e { st with
                passB := true, cur := t.pass, log := st.log ++ [⟨a, 0, none, some (k, c.toNat)⟩],
                resA := some { st.cur with fault := some ⟨k, c.toNat, st.cur.pc, st.cur.count⟩ } }))
      let again := fun (i : Instr) (len a : Nat) => ∀ x : LogEntry,
        st.log[st.cur.logPos]? = some x → x.key = a → st.cur.logPos < 32 → (windowOf a = none ∨ windowOf a = some e.val) →
          (x.fault = none → gives i len st.log x.value (if st.passB then st.cur.shadow else match x.high with
              | some w => some (a, w)
              | none => st.cur.shadow) s)
          ∧ ∀ c y, x.fault = some (c, y) → Faults i s e t st c y
      let turnedBack := fun (i : Instr) (a : Nat) =>
        (∀ n, windowOf a = some n → n ≠ e.val → Faults i s e t st cWINDOW 0)
        ∧ ((windowOf a = none ∨ windowOf a = some e.val) → st.cur.logPos = st.log.length → st.log.length = 32 →
            Faults i s e t st cIOLIM 0)
      let ea := (st.cur.nat ga + off.signExtend 32).toNat
      let now := st.passB = false ∧ st.cur.logPos = st.log.length ∧ st.log.length < 32
      (now → loads (.lda e gd ga off) 1 ea ∧ loads (.ldal e gd imm) 2 imm.toNat)
      ∧ again (.lda e gd ga off) 1 ea ∧ again (.ldal e gd imm) 2 imm.toNat
      ∧ turnedBack (.lda e gd ga off) ea ∧ turnedBack (.ldal e gd imm) imm.toNat

/-- R125, R129: STA, STAL, QPOP, QWRW and QPUSH add an output with the native value to the step's list, while it holds
fewer than 32 of them; nothing of the machine changes before the release. -/
def Obligations.AbsoluteOutputs : Prop :=
  ∀ (s : State) (e : Fin 16) (t : Task) (st : Step), Running s e t st → (st.cur.outs.filter OutItem.abs).length < 32 →
    ∀ (gd ga q k : Fin 32) (off : BitVec 16) (imm : Word),
      let a := st.cur.nat ga + off.signExtend 32
      let dir := fun (q : Nat) => (t.d.que.find? fun x => x.1 == q).map (·.2)
      (t.d.kind = 1 → (windowOf a.toNat = none ∨ windowOf a.toNat = some e.val) →
        Outputs (.sta e gd ga off) s e st (.sta a (st.cur.nat gd)) 0)
      ∧ (t.d.kind = 1 → (windowOf imm.toNat = none ∨ windowOf imm.toNat = some e.val) →
        ∃ p, exec (.stal e ga imm) s = .next (s.setStep e { st with cur := p }) ∧ st.cur.Counted p 0 ∧ st.cur.GoesOn p 2
          ∧ p.outs = st.cur.outs ++ [.sta imm (st.cur.nat ga)] ∧ p.g = st.cur.g ∧ p.a = st.cur.a)
      ∧ (dir q.val = some false → Outputs (.qpop e q) s e st (.qpop q.val) 0)
      ∧ (dir q.val = some true → 4 * k.val < s.qSize q.val →
        Outputs (.qwrw e q k ga) s e st (.qwrw q.val k.val (st.cur.nat ga)) 0)
      ∧ (dir q.val = some true → Outputs (.qpush e q) s e st (.qpush q.val) 0)

/-! Rhaxel: control flow. -/

/-- R130, R132: branches, jumps, calls and returns. Signed branches compare Q1.31 values, unsigned ones words; BZC
compares with 0; CALL writes the next address to g31. A taken branch goes to its target and ends the loops it leaves. -/
def Obligations.ControlFlow : Prop :=
  ∀ (s : State) (e : Fin 16) (t : Task) (st : Step), Running s e t st →
    ∀ (ga gb cc : Fin 32) (off : BitVec 16) (far : BitVec 26),
      let c := st.cur
      let a := c.nat ga
      let b := c.nat gb
      let x := qOf a
      let y := qOf b
      let here : Int := 4 * c.pc
      let near := here + 4 * off.toInt
      Branches (.beq e ga gb off) s e t st (decide (x = y)) near (qSat [a, b])
      ∧ Branches (.bne e ga gb off) s e t st (decide (x ≠ y)) near (qSat [a, b])
      ∧ Branches (.blt e ga gb off) s e t st (decide (x < y)) near (qSat [a, b])
      ∧ Branches (.bge e ga gb off) s e t st (decide (y ≤ x)) near (qSat [a, b])
      ∧ Branches (.bltu e ga gb off) s e t st (decide (a.toNat < b.toNat)) near 0
      ∧ Branches (.bgeu e ga gb off) s e t st (decide (b.toNat ≤ a.toNat)) near 0
      ∧ (cc.val ≤ 5 → Branches (.bzc e ga cc off) s e t st
          ([decide (x = 0), decide (x ≠ 0), decide (x < 0), decide (0 ≤ x), decide (0 < x), decide (x ≤ 0)].getD cc.val false)
          near (qSat [a]))
      ∧ Branches (.jmp e far) s e t st true (here + 4 * far.toInt) 0
      ∧ Branches (.ret e) s e t st true (c.nat 31).toNat 0
      ∧ Branches (.jr e ga) s e t st true a.toNat 0
      ∧ (∀ w, t.isTarget (here + 4 * far.toInt) w →
          ∃ p, exec (.call e far) s = .next (s.setStep e { st with cur := p }) ∧ c.Counted p 0 ∧ c.Quiet p
            ∧ c.Jumps p w ∧ c.SetsG p 31 [ofInt (here + 4)] false)

/-- R106, R131, R132: NOP and FENCE only go on; MFS reads a special register, MTS and STWCLR write STW alone; LOOP with a
count loads its counter, and with none skips its body. -/
def Obligations.SystemInstructions : Prop :=
  ∀ (s : State) (e : Fin 16) (t : Task) (st : Step), Running s e t st →
    ∀ (gd ga gc : Fin 32) (lv : Bool) (cnt : LoopCount) (len : BitVec 12),
      let c := st.cur
      let lc := fun (l : Option LoopReg) => BitVec.ofNat 32 ((l.map (·.left)).getD 0)
      let specials := [c.stw, lc c.lc0, lc c.lc1, BitVec.ofNat 32 t.id, BitVec.ofNat 32 st.tick,
        BitVec.ofNat 32 (st.tick / 2 ^ 32), t.stepn, st.period, t.astat]
      let stwTo := fun (i : Instr) (v : Word) =>
        ∃ p, exec i s = .next (s.setStep e { st with cur := p }) ∧ p.stw = v &&& 0x1F ∧ p.count = c.count + 1
          ∧ c.GoesOn p 1 ∧ c.Quiet p ∧ p.g = c.g ∧ p.a = c.a
      let n := match cnt with
        | .imm k => k.toNat
        | .reg g => (c.nat g).toNat
      let stop := c.pc + 1 + len.toNat
      let body := 1 ≤ len.toNat ∧ stop ∉ longSeconds false 0 (t.code ++ [0])
        ∧ stop - 1 ∉ longSeconds false 0 t.code ∧ endsLoop (t.code.getD (stop - 1) 0).toNat = false
      let free := if lv then c.lc1 = none ∧ ∃ o, c.lc0 = some o ∧ stop ≤ o.stop else c.lc0 = none
      Passes (.nop e) s e st 0
      ∧ Passes (.fence e) s e st 0
      ∧ (gc.val ≤ 8 → Writes (.mfs e gd gc) s e st 1 gd [specials.getD gc.val 0] false 0)
      ∧ ((c.nat ga).toNat < 32 → stwTo (.mts e 0 ga) (c.nat ga))
      ∧ stwTo (.stwclr e gc) (c.stw &&& ~~~(BitVec.ofNat 32 gc.val))
      ∧ (body → free →
          ∃ p, exec (.loop e lv cnt len) s = .next (s.setStep e { st with cur := p }) ∧ c.Counted p 0 ∧ c.Quiet p
            ∧ p.g = c.g ∧ p.a = c.a
            ∧ (n = 0 → p.pc = (c.goOn stop).pc)
            ∧ (n ≠ 0 → c.lc0.all (fun o => decide (o.stop ≠ c.pc + 1)) → c.lc1.all (fun o => decide (o.stop ≠ c.pc + 1)) →
                p.pc = c.pc + 1
                ∧ if lv then p.lc1 = some ⟨n, c.pc + 1, stop⟩ ∧ p.lc0 = c.lc0
                  else p.lc0 = some ⟨n, c.pc + 1, stop⟩ ∧ p.lc1 = c.lc1))

/-- R132, R188: STEPEND ends the pass. After pass A its record is kept in a slot and pass B starts at the entry, with
fresh registers; after pass B the step waits for its verdict.
R122, R134, R135, R137: the instructions that stop their pass with a fault: TRAP with its mask as ERR, a word or an
operand with no defined encoding, a budget that is spent, a branch to a place that is none, a field-control group that
starts at g0 or passes g31, and a task address outside its segment, misaligned or of the wrong kind; nothing else of
the instruction is done, and after pass A pass B runs the step again. -/
def Obligations.PassEndsAndFaults : Prop :=
  (
    ∀ (s : State) (e : Fin 16) (t : Task) (st : Step), Running s e t st → st.debug = false →
      let p : Pass := { st.cur.goOn (st.cur.pc + 1) with count := st.cur.count + 1, ended := true }
      (st.passB = false → s.slotsUsed e < 4 →
        exec (.stepend e) s = .next (s.setStep e { st with passB := true, resA := some p, cur := t.pass }))
      ∧ (st.passB = true → (st.resA.bind (·.fault)) = none →
        exec (.stepend e) s = .next (s.modEng e fun x =>
          { x with steps := x.steps.tail ++ [{ st with cur := p, judged := true, endStamp := s.tbase }] }))
  )
  ∧ (
    ∀ (s : State) (e : Fin 16) (t : Task) (st : Step), Running s e t st →
      ∀ (gc ga gb : Fin 32) (ad : Fin 8) (off : BitVec 16) (far : BitVec 26) (fn : BitVec 6) (gd gx : Fin 32) (imm : Word)
        (sh : BitVec 2),
        let ea := (st.cur.nat ga + off.signExtend 32).toNat
        let seg := ea / 2 ^ 24
        let inside := fun (n : Nat) => seg ≤ 2 ∧ ea % 2 ^ 24 + n ≤ t.segSize seg
        let group := fun (i : Instr) (n m : Nat) =>
          (gd.val = 0 ∨ 32 < ga.val + n ∨ 32 < gd.val + m) → Faults i s e t st cILLOP 0
        let address := fun (i : Instr) (n : Nat) =>
          (¬inside n → Faults i s e t st cSEGLIM 0) ∧ (inside n → ea % n ≠ 0 → Faults i s e t st cALIGN 0)
        Faults (.trap e gc) s e t st cTRAP gc.val
        ∧ Faults (.budgetExceeded e) s e t st cBUDGET 0
        ∧ (∀ w, t.code[st.cur.pc]? = some w → st.cur.pc ∉ longSeconds false 0 t.code → bits w.toNat 26 6 = 0x3F →
            Faults (.illegalInstruction e) s e t st cILLOP 0)
        ∧ (t.code.length ≤ st.cur.pc → Faults (.illegalInstruction e) s e t st cCODELIM 0)
        ∧ ((∀ w, ¬t.isTarget (st.cur.nat ga).toNat w) → Faults (.jr e ga) s e t st cCODELIM 0)
        ∧ ((∀ w, ¬t.isTarget (4 * (st.cur.pc : Int) + 4 * far.toInt) w) → Faults (.jmp e far) s e t st cCODELIM 0)
        ∧ (longDefined fn.toNat gx imm = false → Faults (.longAlu e fn gd ga gx imm) s e t st cILLOP 0)
        ∧ (9 ≤ gc.val → Faults (.mfs e gd gc) s e t st cILLOP 0)
        ∧ (t.d.kind ≠ 1 → Faults (.stal e ga imm) s e t st cPRIV 0)
        ∧ (6 ≤ gc.val → Faults (.bzc e ga gc off) s e t st cILLOP 0)
        ∧ ((gc.val ≠ 0 ∨ 32 ≤ (st.cur.nat ga).toNat) → Faults (.mts e gc ga) s e t st cILLOP 0)
        ∧ group (.clarke e gd ga) 3 3 ∧ group (.clarke2 e gd ga) 2 2 ∧ group (.iclarke e gd ga) 2 3
        ∧ group (.park e gd ga gb) 2 2 ∧ group (.ipark e gd ga gb) 2 2 ∧ group (.sincos e gd ga) 1 2
        ∧ group (.vec e gd ga) 2 2 ∧ group (.angadd e gd ga gb) 1 1 ∧ group (.svm7 e gd ga) 2 3
        ∧ group (.svm5 e gd ga) 2 3 ∧ group (.lim2 e gd ga gb) 2 2 ∧ group (.lim2d e gd ga gb) 2 2
        ∧ group (.pidq e gd ga gb ad sh) 2 1 ∧ (32 < gb.val + 4 → Faults (.pidq e gd ga gb ad sh) s e t st cILLOP 0)
        ∧ address (.ld32 e gd ga off) 4 ∧ address (.ldf e gd ga off) 4 ∧ address (.st32 e gd ga off) 4
        ∧ address (.ld16 e gd ga off) 2 ∧ address (.ld16u e gd ga off) 2 ∧ address (.ld8u e gd ga off) 1
        ∧ address (.ldacc e ad ga off) 16 ∧ address (.stacc e ad ga off) 16
        ∧ (inside 4 → ea % 4 = 0 → seg = 2 → Faults (.st32 e gd ga off) s e t st cKIND 0)
        ∧ (inside 16 → ea % 16 = 0 → seg = 2 → Faults (.stacc e ad ga off) s e t st cKIND 0)
        ∧ (seg ≠ 2 → (inside 2 → ea % 2 = 0 →
              Faults (.ld16 e gd ga off) s e t st cKIND 0 ∧ Faults (.ld16u e gd ga off) s e t st cKIND 0)
            ∧ (inside 1 → Faults (.ld8u e gd ga off) s e t st cKIND 0))
  )

/-! Rhaxel: inputs and outputs of a step. -/

/-- R147, R149: SMPGET gives the native value of an entry of the captured frame in both passes; SMPFLG and
SMPSTMP give its flags and stamp.
R129: QLEN and QRDW in pass A: the entries at step start less the step's own moves, and a word of the entry at
QHEAD plus the step's pops; each is logged. Where the log has the entry, it gives the value. A queue the task has not
declared so, and a word beyond the entry or the entries, are faults. -/
def Obligations.FrameAndQueueReads : Prop :=
  (
    ∀ (s : State) (e : Fin 16) (t : Task) (st : Step), Running s e t st →
      ∀ (gd k : Fin 32) (x : FrameVal), st.frame[k.val]? = some x →
        Writes (.smpget e gd k) s e st 1 gd [x.value] false 0
        ∧ Writes (.smpflg e gd k) s e st 1 gd [x.flags] false 0
        ∧ Writes (.smpstmp e gd k) s e st 1 gd [BitVec.ofNat 32 x.stamp] false 0
  )
  ∧ (
    ∀ (s : State) (e : Fin 16) (t : Task) (st : Step), Running s e t st →
      ∀ (gd q k : Fin 32),
        let dir := (t.d.que.find? fun x => x.1 == q.val).map (·.2)
        let level := (assocGet st.levels q.val).getD 0
        let moved := (st.cur.outs.filter fun x => x == .qpop q.val || x == .qpush q.val).length
        let logs := fun (i : Instr) (key : Nat) (v : Word) =>
          st.passB = false → st.cur.logPos = st.log.length → st.log.length < 32 →
            ∃ p, exec i s = .next (s.setStep e { st with cur := p, log := st.log ++ [⟨key, v, none, none⟩] })
              ∧ st.cur.Counted p 0 ∧ st.cur.GoesOn p 1 ∧ st.cur.SetsG p gd [v] false ∧ p.outs = st.cur.outs
        let again := fun (i : Instr) (key : Nat) => ∀ x : LogEntry,
          st.log[st.cur.logPos]? = some x → x.key = key → x.fault = none → st.cur.logPos < 32 →
            ∃ p, exec i s = .next (s.setStep e { st with cur := p })
              ∧ st.cur.Counted p 0 ∧ st.cur.GoesOn p 1 ∧ st.cur.SetsG p gd [x.value] false ∧ p.outs = st.cur.outs
        let entry := s.qAddr q.val ((s.word QUE.QHEAD q.val).toNat + moved) + 4 * k.val
        (dir ≠ none → logs (.qlen e gd q) (keyLen q.val) (BitVec.ofNat 32 level - BitVec.ofNat 32 moved)
          ∧ again (.qlen e gd q) (keyLen q.val))
        ∧ (dir = some false → 4 * k.val < s.qSize q.val → moved < level →
          (s.unstruck entry 4 → logs (.qrdw e gd q k) (keyWord q.val k.val) (wordAt s.sram entry))
          ∧ again (.qrdw e gd q k) (keyWord q.val k.val))
        ∧ (dir = none → Faults (.qlen e gd q) s e t st cQRANGE 0)
        ∧ (¬(dir = some false ∧ 4 * k.val < s.qSize q.val ∧ moved < level) → Faults (.qrdw e gd q k) s e t st cQRANGE 0)
  )

/-- R148, R150 to R153, R186: the outputs of a step, with the native operand values and within their limits: PWM commands
from class F, where 0x8000_0000 sets SAT; trims, where a value outside ±255 sets CLIP; fault demands; raises; telemetry. -/
def Obligations.StepOutputs : Prop :=
  ∀ (s : State) (e : Fin 16) (t : Task) (st : Step), Running s e t st →
    ∀ (ga k j : Fin 32),
      let c := st.cur
      let w := fun (n : Nat) => c.nat (Fin.ofNat 32 (ga.val + n))
      let pwm := t.d.kind = 0 ∧ t.d.cls = 0 ∧ k.val < t.d.out.length ∧ (c.outs.filter OutItem.pwm).length < 16
      let told := (c.outs.filter OutItem.faultEvent).length < 16
      let z := clipOut 255 (c.nat ga).toInt
      (pwm → ga.val + 3 ≤ 32 →
        Outputs (.pwm3 e ga k) s e st (.pwm3 k (w 0) (w 1) (w 2)) (legFlag [w 0, w 1, w 2]))
      ∧ (pwm → j.val < 3 → Outputs (.pwm1 e ga k j) s e st (.pwm1 k j (w 0)) (legFlag [w 0]))
      ∧ (pwm → Outputs (.pwmoff e k) s e st (.pwmoff k) 0)
      ∧ (pwm → s.hasSwitch (t.d.out.getD k.val (0, false)) j = true →
        Outputs (.pwmtrim e ga k j) s e st (.pwmtrim k j (c.nat ga)) z.2)
      ∧ (t.d.kind = 0 → t.d.cls ≤ 1 → k.val < t.d.out.length → j.val ≤ 3 → told →
        Outputs (.fltset e ga k j) s e st (.fltset k j (c.nat ga)) 0)
      ∧ (k.val < t.d.evt.length → told → Outputs (.evraise e ga k) s e st (.evraise k (c.nat ga)) 0)
      ∧ (t.d.kind ≠ 1 → k.val < t.d.tlm.length → (c.outs.filter OutItem.telem).length < 32 →
        Outputs (.tlmput e ga k) s e st (.tlmput k (c.nat ga)) 0)

/-! Event delivery. -/

/-- R320: the earliest raise on its way from an island reaches MEMF: it enters the pending pool if that holds fewer
than 1,024 records, of them fewer than 768 of its kind where its source is not one of the KJ8's own, and is counted as lost
if not: the record EVT_LOST stands on an entry of its own, and further losses only add to its DATA.
R324, R325: when a moderation window closes, the records that wait for its queue become one batch; when a hold-off
ends, its group is held no longer. Nothing else changes. -/
def Obligations.EventIntakeAndTimers : Prop :=
  (
    ∀ (s : State) (i : Fin 26) (r : Raise), s.up = true → s.ev.inFlight.find? (fun r => r.island == i.val) = some r →
      let room := s.ev.pool.length < 1024
        ∧ (0x400 ≤ r.num → (s.ev.pool.filter fun x => decide (0x400 ≤ x.num)).length < 768)
      Ends (.eventRaise i) s fun t =>
        t.ev.inFlight = dropFirst (fun x => x.island == i.val) s.ev.inFlight
        ∧ (room → t.ev.pool = s.ev.pool ++ [{ r with since := s.tbase }] ∧ t.ev.lost = s.ev.lost ∧ OnlyChanges [.ev] s t)
        ∧ (¬room → t.ev.pool = s.ev.pool
            ∧ t.g EVT.STAT_LOST = min (2 ^ EVT.STAT_LOST.w - 1) (s.g EVT.STAT_LOST + 1)
            ∧ t.ev.lost = some (match s.ev.lost with
                | none => (1, s.tbase, false)
                | some (n, b, d) => (min (2 ^ 32 - 1) (n + 1), b, d))
            ∧ OnlyChanges [.ev, .regs] s t ∧ OnlyRegs [EVT.STAT.addr 0] s t)
  )
  ∧ (
    ∀ (s : State) (q : Fin 8) (g : Fin 64),
      (s.ev.window[q].isSome = true →
        Ends (.moderationWindowClose q) s fun t =>
          t.ev.window[q] = none ∧ (∀ j : Fin 8, j ≠ q → t.ev.window[j] = s.ev.window[j])
          ∧ t.ev.pool = s.ev.pool.map (fun r => if s.target r == .queue (8 + q.val) then { r with batch := some (8 + q.val) } else r)
          ∧ t.ev.hold = s.ev.hold ∧ OnlyChanges [.ev] s t)
      ∧ Ends (.holdOffExpiry g) s fun t =>
          t.ev.hold[g] = none ∧ (∀ j : Fin 64, j ≠ g → t.ev.hold[j] = s.ev.hold[j])
          ∧ t.ev.pool = s.ev.pool ∧ t.ev.window = s.ev.window ∧ OnlyChanges [.ev] s t
  )

/-- R319, R321: at a write slot the chosen record whose target queue has room is written at that queue's tail, in the
four words of R319, and leaves the pool; the tail moves by one and no other byte of SRAM changes. The next slot comes 2
ticks later.
R322, R323: a chosen record whose group is masked, or that is bound for a queue no task has, is discarded and
counted. -/
def Obligations.EventWriteSlots : Prop :=
  (
    ∀ (s : State) (r : Raise) (q : Nat), chooseRecord s.candidates = some r → s.target r = .queue q → s.qFull q = false →
      let a := s.qAddr q (s.word QUE.QTAIL q).toNat
      Ends .eventWriteSlot s fun t =>
        t.word QUE.QTAIL q = s.word QUE.QTAIL q + 1
        ∧ bytesAt t.sram a 16 = wordsBytes (recordWords r (s.wakes q r.grp) (s.classS r))
        ∧ (∀ x, (x < a ∨ a + 16 ≤ x) → byteAt t.sram x = byteAt s.sram x)
        ∧ (r.num ≠ 1 → t.ev.pool = dropFirst (fun x => x == r) s.ev.pool)
        ∧ (r.num = 1 → t.ev.lost = none)
        ∧ t.ev.slotAt = s.tbase + 2
        ∧ OnlyChanges [.regs, .sram, .poison, .upsets, .nv, .ev] s t
  )
  ∧ (
    ∀ (s : State) (r : Raise), chooseRecord s.candidates = some r → s.target r = .discard → r.num ≠ 1 →
      Ends .eventWriteSlot s fun t =>
        t.ev = { s.ev with pool := dropFirst (fun x => x == r) s.ev.pool, slotAt := s.tbase + 2 }
        ∧ t.g EVT.STAT_DISC = min (2 ^ EVT.STAT_DISC.w - 1) (s.g EVT.STAT_DISC + 1)
        ∧ OnlyChanges [.regs, .ev] s t ∧ OnlyRegs [EVT.STAT.addr 0] s t
  )

/-! Axes and command inputs. -/

/-- R212, R214: evaluated after a step that reported its speed, an axis in IDLE whose START is accepted goes in RUN to
CATCH, STAND or RAMP by the magnitude of that speed, if no transition of it waits for its boundary (R235). -/
def Obligations.AxisStarts : Prop :=
  ∀ (s : State) (n : Fin 8) (tk : Task) (v : Int),
    s.up = true → s.gb CTL.AXCFG_EN n = true → s.axState n = 1 → s.mode = mRUN → (s.axis n).startReq = true →
    s.axTask n = some tk → tk.evalDue.contains n.val = true → s.axTlm n CTL.AXTLM_SPD = some v →
    (s.gb CTL.AXCFG_SLESS n = true ∨ posFault (s.axPosAt n).2 = false) →
    0 < s.g CTL.AXTIM_CONFN n → (s.axis n).still < s.g CTL.AXTIM_CONFN n → s.axMay n 9 = true →
      Ends (.axisEvaluation n) s fun t =>
        t.axState n =
          (if (s.g CTL.AXSPD_CATCHSPD n : Int) * 65536 ≤ absI v then 2
           else if (s.g CTL.AXSPD_STANDSPD n : Int) * 65536 ≤ absI v then 3 else 4)
        ∧ t.mode = mRUN ∧ OnlyChanges (.tasks :: reacting) s t ∧ OnlyRegsOf [CTL.AXST, DCL.STAT, FBRK.BRST] s t

/-- R214, R234: REACQ_TIMEOUT in CATCH or REACQ, and BRAKE_TIMEOUT in STAND or STOP, take the axis to SAFE, also where the
axis leaves that state at the next boundary, unless a transition of rank 4 or higher waits for it (R235).
R230, R232: at the end of the following-error time, feedback loss takes the first step that applies: the other port
or the observer where the axis has one, else a stop, else the safe state; outside RUN there is neither observer nor stop
(log entry 114). A transition that outranks it (R235) leaves only the flag. -/
def Obligations.AxisErrors : Prop :=
  (
    ∀ (s : State) (n : Fin 8),
      (s.axMay n 4 = true →
        ((s.axIn n 2 = true ∨ (s.axIn n 6 = true ∧ ((s.axis n).reacqAt.isSome = true ∨ s.axState n ≠ 6))) →
          Ends (.reacqTimeout n) s fun t => t.axState n = 8 ∧ Reacts s t)
        ∧ ((s.axIn n 3 = true ∨ s.axIn n 7 = true) →
          Ends (.brakeTimeout n) s fun t => t.axState n = 8 ∧ Reacts s t))
      ∧ (s.axMay n 4 = false →
          exec (.reacqTimeout n) s = .next s ∧ exec (.brakeTimeout n) s = .next s)
  )
  ∧ (
    ∀ (s : State) (n : Fin 8), (s.axis n).feAt.isSome = true → (s.axState n = 4 ∨ s.axState n = 5 ∨ s.axState n = 7) →
      Ends (.feTimerExpiry n) s fun t =>
        Reacts s t ∧ t.gb CTL.AXST_FEEXP n = true ∧ (t.axis n).feAt = none ∧ if s.axMay n 3 = false then t.axState n = s.axState n
        else if s.g CTL.AXCFG_ALT n ≠ 0 ∧ s.gb CTL.AXST_ALTACT n = false then
          t.gb CTL.AXST_ALTACT n = true ∧ t.gb CTL.AXST_FBLOST n = true
          ∧ t.axState n = if s.g CTL.AXCFG_ALT n = 2 ∧ s.mode = mRUN then 6 else s.axState n
        else if s.gb CTL.AXCFG_SS1 n ∧ s.mode = mRUN then
          t.gb CTL.AXST_FBLOST n = true ∧ t.axState n = 7 ∧ (t.axis n).ss1Req = true
        else t.gb CTL.AXST_FBLOST n = true ∧ t.axState n = 8
  )

/-- R236, R237, R238: a sample or period of a command input writes RAW, the clipped linear value of the mean of the last
raw values, and VALID after two good ones: the code of an analogue input, the rate of high time (its quotient rounded
openly, log entry 21) or the frequency of a PWM input. Without an edge for its time, the duty is not valid and the
frequency is 0, which is valid where ZEROOK says so. -/
def Obligations.CommandInputs : Prop :=
  ∀ (s : State) (n : Fin 8) (code : BitVec 16) (high period : Nat), s.up = true →
    let mode := s.g CTL.CMDCFG_MODE n
    let hz := (rndDiv 200000000 (period : Nat)).toNat
    let last := fun (raw : Nat) => (raw :: (s.cin n).raws).take (2 ^ s.g CTL.CMDCFG_FILT n)
    let good := fun (raw : Nat) =>
      decide ((s.g CTL.CMDLIM_LOLIM n : Int) ≤ meanOf (last raw) ∧ meanOf (last raw) ≤ s.g CTL.CMDLIM_HILIM n)
    let frame := fun (t : State) => OnlyChanges [.regs, .ev, .axes, .cmdin, .chans, .edges, .own] s t
      ∧ OnlyRegsOf [CTL.AXST, CTL.CMDST, FBRK.BRST] s t
    let took := fun (t : State) (raw : Nat) =>
      let y := rndDiv ((meanOf (last raw) - sval (s.word CTL.CMDOFF n)) * sval (s.word CTL.CMDGAIN n))
        (2 ^ s.g CTL.CMDCFG_SH n : Nat)
      t.g CTL.CMDST_RAW n = raw ∧ (t.cin n).raws = last raw ∧ (t.cin n).value = sat31 y ∧ (t.cin n).stamp = s.tbase
        ∧ t.gb CTL.CMDST_CLIP n = (sat31 y != y) ∧ frame t
    let sampled := fun (raw : Nat) (inRange : Bool) =>
      Ends (.cmdinSample n code high period) s fun t => took t raw
        ∧ t.gb CTL.CMDST_VALID n = decide (2 ≤ if inRange && good raw then (s.cin n).good + 1 else 0)
    (mode = 1 → sampled code.toNat true)
    ∧ (mode = 2 → 0 < period →
        sampled (min 65535 (s.openDiv (high * 65536) period)) (decide (9800 ≤ period ∧ period ≤ 204000)))
    ∧ (mode = 3 → 0 < period → hz < 65536 → sampled hz (decide (hz ≤ 50000)))
    ∧ (mode = 2 →
      Ends (.cmdinEdgeTimeout n) s fun t =>
        t.gb CTL.CMDST_VALID n = false ∧ (t.cin n).good = 0 ∧ (t.cin n).value = (s.cin n).value ∧ frame t)
    ∧ (mode = 3 →
      Ends (.cmdinEdgeTimeout n) s fun t => took t 0
        ∧ t.gb CTL.CMDST_VALID n = (s.gb CTL.CMDST_VALID n && s.gb CTL.CMDCFG_ZEROOK n && good 0))

/-! Gate channels and safe states. -/

/-- R244, R262: `s` is the state after the samples of protection paths that have come before the update point. At an
update point of its task's source, a unit loads the shadow commands of its legs. If it may follow them its pattern is
NORMAL, or OFF where all are PWMOFF; if STO is forced on it, its pads stay as they are; if it is held off, or may not
follow them and no demand rules it, its switches go off. Elsewhere the point does nothing. -/
def Obligations.UpdatePoint : Prop :=
  ∀ (s0 : State) (k : Fin 8) (peak : Bool) (prot : List (Fin 64 × Int)),
    let s := overL prot (fun x => State.protFeed x.1 x.2) s0
    let m := match s.driver k with
      | some t => t.d.upd
      | none => 0
    let shadow := fun (x : Nat) => (at' s.legs (3 * k.val + x) ⟨.off, .off⟩).shadow
    let low := fun (t : State) => ∀ n ∈ s.unitChans k, n < 48 → s.topo (brOf n) ≠ 3 → t.padCmd n = false
    s.up = true → s.isUnit k = true → s.g FBRK.BRST_PAT k ≠ 6 →
      ((m = 2 ∨ (peak = true ↔ m = 1)) →
        Ends (.carrierUpdatePoint k ⟨peak, prot⟩) s0 fun t =>
          (∀ x : Fin 3, (at' t.legs (3 * k.val + x.val) ⟨.off, .off⟩).loaded = shadow x)
          ∧ (∀ j : Fin 24, t.legs[j].shadow = s.legs[j].shadow)
          ∧ (s.unitNormal k = true →
              t.g FBRK.BRST_PAT k = if [0, 1, 2].all fun x => shadow x == .off then 1 else 0)
          ∧ (s.forcedSto k = true → s.toReady = false → s.dbgHeld k = false →
              (∀ n : Fin 48, t.chans[n].wave = s.chans[n].wave) ∧ t.regs = s.regs)
          ∧ (s.dbgHeld k = true → s.toReady = false → low t)
          ∧ (s.unitNormal k = false → s.demanded k = false → s.forcedSto k = false → s.toReady = false →
              t.g FBRK.BRST_PAT k = 1 ∧ low t)
          ∧ OnlyChanges [.regs, .ev, .legs, .chans, .units, .edges] s t
          ∧ OnlyRegsOf [FBRK.BRST, DCL.STAT, GATE.TRIM] s t)
      ∧ (¬(m = 2 ∨ (peak = true ↔ m = 1)) → exec (.carrierUpdatePoint k ⟨peak, prot⟩) s0 = .next s)

/-- R252: a fault on the gate of a switch in use latches the switch; GFLT_CLASSIFY gives a pending latch its class by
how long the fault stood.
R253, R275, R277: the last of the samples that trip a source. A comparator whose filtered output trips, or leaves its
reset level tripped, and a protection path whose value reaches a threshold, latch the switch of their side in the phase
they are bound to. -/
def Obligations.SwitchFaultsAndTrips : Prop :=
  (
    ∀ (s : State) (n : Fin 48) (held : Nat),
      (s.up = true → s.gb GATE.CH_EN n = true → s.topo (brOf n) ≠ 0 →
        Ends (.gfltFault n) s fun t => t.latched n = true ∧ t.chans[n].gflt = true ∧ OnlyChanges reacting s t
          ∧ OnlyRegsOf [CTL.AXST, DCL.STAT, FBRK.BRST, GATE.SWCLS, GATE.SWFLT0, GATE.SWFLT1] s t)
      ∧ (s.chans[n].gflt = true → s.swClass n = 1 →
        Ends (.gfltClassify n held) s fun t =>
          t.swClass n = (if 800 ≤ held then 2 else if 200 ≤ held ∧ held ≤ 400 then 3 else 4)
          ∧ t.chans[n].gflt = (held == 800) ∧ OnlyChanges [.regs, .chans] s t)
  )
  ∧ (
    (∀ (s0 : State) (n : Fin 32) (high : Bool) (l : List Int) (v : Int),
      let s := overL l (State.compFeed n) s0
      let old := s.compSide n high
      let new := old.feed (s.compNM n) (s.compClass n high v)
      let b := s.g FBRK.OCMAP_BR n
      let x := s.g FBRK.OCMAP_PH n
      s.up = true → s.gb CMP.CFG_EN n = true → s.gb FBRK.OCMAP_EN n = true → s.topo b = 1 → x < 3 → s.g FBRK.BRST_PAT b ≠ 6 →
      new.out = true → new.left = true → (old.out = true → old.left = false) →
        Ends (.protectionTrip (Fin.ofNat 96 n.val) (l ++ [v])) s0 fun t =>
          t.compSide n high = new ∧ t.latched (6 * b + 2 * x + if high then 0 else 1) = true
          ∧ OnlyChanges (.comp :: reacting) s t ∧ OnlyRegsOf tripRegs s t)
    ∧ (∀ (s0 : State) (n : Fin 64) (high : Bool) (l : List Int) (p : Int),
      let s := overL l (State.protFeed n) s0
      let src := 32 + n.val
      let b := s.g FBRK.OCMAP_BR src
      let x := s.g FBRK.OCMAP_PH src
      s.dsmRuns n = true → s.protFilled n = true → s.gb FBRK.OCMAP_EN src = true → s.topo b = 1 → x < 3 →
      s.g FBRK.BRST_PAT b ≠ 6 → (s.srcLeft src high = true → s.srcTripped src high = false) →
      (if high then s.gs DSM.PTH_HI n ≤ p else p ≤ s.gs DSM.PTH_LO n) →
        Ends (.protectionTrip (Fin.ofNat 96 src) (l ++ [p])) s0 fun t =>
          t.srcTripped src high = true ∧ t.srcLeft src high = true ∧ t.dsm[n].prot = protCode p
          ∧ t.latched (6 * b + 2 * x + if high then 0 else 1) = true
          ∧ OnlyChanges (.dsm :: reacting) s t ∧ OnlyRegsOf (DSM.STAT :: tripRegs) s t)
  )

/-- R259, R260: ASCDLY after its choice the switches of the pattern turn on, the outer ones of an NPC pair later; a speed
below the lower threshold takes an unforced ASC to STO, and one above the upper threshold an STO to the first usable ASC,
unless MODE says STO. -/
def Obligations.SafeStateTimes : Prop :=
  ∀ (s : State) (k : Fin 8),
    let frame := fun (t : State) => OnlyChanges [.regs, .ev, .chans, .units, .edges, .links] s t
      ∧ OnlyRegsOf [DCL.STAT, FBRK.BRST] s t
    (∀ a pat, s.units[k].ascAt = some (a, pat) → s.demanded k = true → s.forcedSto k = false → s.dbgHeld k = false →
      (s.mode = mRUN ∨ s.mode = mSAFE) →
        Ends (.ascTurnOn k) s fun t =>
          (∀ n ∈ s.ascOn k pat.toNat, n < 48 → s.chanOk n = true → s.padSupply = true → s.onLag n = 0 → t.padCmd n = true)
          ∧ t.units[k].ascAt = none ∧ OnlyChanges [.units, .chans, .edges] s t)
    ∧ (∀ v : Int, s.isUnit k = true → s.demanded k = true → s.forcedSto k = false → s.gb FBRK.BRST_BRKARM k = false →
      s.g FBRK.BRSS_MODE k ≠ 1 → (s.mode = mRUN ∨ s.mode = mSAFE) → s.choiceSpeed k = some v →
        (3 ≤ s.g FBRK.BRST_PAT k ∧ s.g FBRK.BRST_PAT k ≤ 5 →
          absI v < ((s.g FBRK.BRXO_XOVER k : Int) - s.g FBRK.BRXO_XHYS k) * 65536 →
            Ends (.safeStateRechoose k) s fun t =>
              t.g FBRK.BRST_PAT k = 2 ∧ t.g FBRK.BRST_CAUSE k = 8 ∧ t.units[k].ascAt = none ∧ frame t)
        ∧ (∀ p, s.g FBRK.BRST_PAT k = 2 →
          ((s.g FBRK.BRXO_XOVER k : Int) + s.g FBRK.BRXO_XHYS k) * 65536 ≤ absI v →
          (s.ascOrder k).find? (s.ascUsable k) = some p →
            Ends (.safeStateRechoose k) s fun t =>
              t.g FBRK.BRST_PAT k = p ∧ t.g FBRK.BRST_CAUSE k = 8
              ∧ t.units[k].ascAt = some (s.tbase + s.ascDly k, BitVec.ofNat 3 p) ∧ frame t))

/-! DC links. -/

/-- R265, R266: a valid sample of a link below its overvoltage level is held with its stamp, and drives a hysteretic
chopper that its mode allows, or that is armed; at an overvoltage the trip is latched and told. In CONFIGURE a sample may
also turn off gates that bench mode let go high (R437). -/
def Obligations.DcLinkSamples : Prop :=
  ∀ (s : State) (l : Fin 4) (x : Int),
    let v : Int := sval (ofInt (sat31 x)) / 65536
    (s.up = true → s.gb DCL.CFG_EN l = true → v < s.g DCL.OV_VOV l → s.g DCL.OV_VSAFE l < v → s.g DCL.VTH_VOFF l < s.g DCL.VTH_VON l →
      (s.g DCL.BRK_MODE l = 1 ∨ s.links[l].armed = true) → s.brkAllowed = true →
        Ends (.dcLinkSample l x true) s fun t =>
          t.links[l].vdc = ofInt (sat31 x) ∧ t.links[l].valid = true ∧ t.links[l].stamp = s.tbase
          ∧ t.links[l].chopOn = (if (s.g DCL.VTH_VON l : Int) ≤ v then true
              else if v ≤ s.g DCL.VTH_VOFF l then false else s.links[l].chopOn)
          ∧ (∀ j : Fin 4, j ≠ l → t.links[j] = s.links[j])
          ∧ OnlyChanges (if s.mode = mCONFIGURE then [.regs, .chans, .edges, .links] else [.links]) s t
          ∧ OnlyRegsOf [FBRK.BRST] s t)
    ∧ (s.up = true → s.gb DCL.CFG_EN l = true → s.links[l].ovForced = false →
        Ends (.overvoltageTrip l) s fun t =>
          t.gb DCL.STAT_OVTRIP l = true ∧ t.links[l].ovForced = true
          ∧ (∃ r ∈ t.ev.inFlight.drop s.ev.inFlight.length, r.src.toNat = 0x93 ∧ r.tag.toNat = l.val ∧ r.stamp = s.tbase)
          ∧ OnlyChanges (.comp :: reacting) s t ∧ OnlyRegsOf tripRegs s t)

/-- R265, R289: a PEAK period takes its current code and switches the chopper on by the hysteresis; the current trip and
the period limit switch it off, with no fault; the ramp lowers the code.
R267: the checks of a discharge. At TCHK a link that has fallen too little is slow; 10 ms below VSAFE is done; two
seconds without that is a failure. Each is told once. -/
def Obligations.ChoppersAndDischarges : Prop :=
  (
    ∀ (s : State) (l : Fin 4), s.peakMode l = true → s.brkAllowed = true →
      let ipk := min (s.g DCL.BCUR_IBMAX l : Int)
        (s.g DCL.BCUR_IB0 l + (s.vdc16 l - s.g DCL.VTH_VON l) * s.g DCL.BRK_KB l / 256)
      let on := decide ((s.g DCL.VTH_VON l : Int) ≤ s.vdc16 l)
        || (s.links[l].began && decide ((s.g DCL.VTH_VOFF l : Int) < s.vdc16 l))
      Ends (.chopperPeriodStart l) s (fun t =>
        t.links[l] = { s.links[l] with period := some s.tbase, ipk := ipk, dac := max 0 ipk, began := on, chopOn := on }
        ∧ OnlyChanges [.links] s t)
      ∧ Ends (.chopperCurrentTrip l) s (fun t => t.links[l] = { s.links[l] with chopOn := false } ∧ OnlyChanges [.links] s t)
      ∧ Ends (.chopperPeriodLimit l) s (fun t => t.links[l] = { s.links[l] with chopOn := false } ∧ OnlyChanges [.links] s t)
      ∧ (∀ b, s.links[l].period = some b →
          Ends (.chopperRampUpdate l) s fun t =>
            t.links[l].dac = max 0 (s.links[l].ipk - ((s.g CMP.RAMP_SLOPE l * ((s.tbase - b) / 200) / 64 : Nat) : Int))
            ∧ OnlyChanges [.links] s t)
  )
  ∧ (
    ∀ (s : State) (l : Fin 4) (d : Disch), s.links[l].dsc = some d →
      (d.checked = false → (d.v0 : Int) * s.g DCL.DSC_KCHK l < s.vdc16 l * 256 → s.gb DCL.DSC_WEN l = false →
        Ends (.dischargeSlowCheck l) s fun t =>
          t.gb DCL.STAT_DSCSLOW l = true ∧ t.links[l].dsc = some { d with checked := true } ∧ Raised 0x94 l.val s t
          ∧ OnlyChanges [.regs, .ev, .links] s t ∧ OnlyRegs [DCL.STAT.addr l] s t)
      ∧ (d.done = false → d.belowSince.isSome = true →
        Ends (.dischargeDone l) s fun t =>
          t.gb DCL.STAT_DSCDONE l = true ∧ t.links[l].dsc = some { d with done := true } ∧ Raised 0x95 l.val s t
          ∧ OnlyChanges [.regs, .ev, .links] s t ∧ OnlyRegs [DCL.STAT.addr l] s t)
      ∧ (d.done = false → d.failed = false →
        Ends (.dischargeFail l) s fun t =>
          t.gb DCL.STAT_DSCFAIL l = true ∧ t.links[l].dsc = some { d with failed := true } ∧ Raised 0x96 l.val s t
          ∧ OnlyChanges [.regs, .ev, .links] s t ∧ OnlyRegs [DCL.STAT.addr l] s t)
  )

/-! Sensing. -/

/-- R274, R276, R275: an output of a running delta-sigma channel writes its code and counts toward VALID; a stuck level
is told, clears VALID and reads as full scale on a protection path that has filled; a protection output releases inside its
hysteresis, and a path that has not filled only takes the value: there `s'` is the state after the samples before the last
one.
R280, R281: a free-running output of a converter, and a triggered capture that is taken, write RES of every member
that answers for it. -/
def Obligations.SampleOutputs : Prop :=
  (
    ∀ (s : State) (n : Fin 64) (sum : Nat) (level high : Bool) (l : List Int) (p : Int), s.dsmRuns n = true →
      let s' := overL l (State.protFeed n) s
      let inside := if high then p < s'.gs DSM.PTH_HI n - s'.g DSM.PTH_PHYS n
        else s'.gs DSM.PTH_LO n + s'.g DSM.PTH_PHYS n < p
      let other := if high then p ≤ s'.gs DSM.PTH_LO n else s'.gs DSM.PTH_HI n ≤ p
      let full : Int := (s.dsmN n ^ s.dsmK n : Nat)
      let x := sat31 (rndDiv ((2 * (sum : Int) - full) * 2 ^ 31) full)
      let code := sat31 (rndDiv (sval (s.word DSM.GAIN n) * (x - sval (s.word DSM.OFF n))) (2 ^ 30))
      (sum ≤ s.dsmN n ^ s.dsmK n → s.dsm[n].stuck = false →
        Ends (.dsmOutput n sum) s fun t =>
          t.word DSM.RES n = ofInt code ∧ t.gb DSM.STAT_VALID n = decide (s.dsmK n ≤ s.dsm[n].fill + 1)
          ∧ t.dsm[n].fill = s.dsm[n].fill + 1 ∧ t.dsm[n].stamp = s.tbase
          ∧ OnlyChanges [.regs, .dsm] s t ∧ OnlyRegs [DSM.RES.addr n, DSM.STAT.addr n] s t)
      ∧ (s.dsm[n].stuck = false →
        Ends (.dsmStuck n level) s fun t =>
          t.gb DSM.STAT_STUCK n = true ∧ t.gb DSM.STAT_VALID n = false ∧ t.dsm[n].stuck = true
          ∧ t.dsm[n].prot = protCode (if level then 32 else -32)
          ∧ (s.protFilled n = true → (if level then s.gs DSM.PTH_HI n ≤ 32 else -32 ≤ s.gs DSM.PTH_LO n) →
              t.srcTripped (32 + n.val) level = true)
          ∧ (s.protFilled n = false → Raised 0xA0 n.val s t ∧ OnlyChanges [.regs, .ev, .dsm] s t)
          ∧ (∃ r ∈ t.ev.inFlight.drop s.ev.inFlight.length, r.src.toNat = 0xA0 ∧ r.tag.toNat = n.val)
          ∧ OnlyChanges (.dsm :: reacting) s t ∧ OnlyRegsOf (DSM.STAT :: tripRegs) s t)
      ∧ (s'.dsmRuns n = true → s'.protFilled n = true → inside →
        Ends (.dsmProtectionRelease n l p) s fun t =>
          t.gb (if high then DSM.STAT_PHI else DSM.STAT_PLO) n = false ∧ t.dsm[n].prot = protCode p
          ∧ (if high then t.dsm[n].relHi else t.dsm[n].relLo) = true
          ∧ OnlyChanges (.dsm :: reacting) s' t ∧ OnlyRegsOf (DSM.STAT :: tripRegs) s' t
          ∧ (¬other → OnlyChanges [.regs, .dsm] s' t ∧ OnlyRegs [DSM.STAT.addr n] s' t))
      ∧ (s'.dsmRuns n = true → s'.protFilled n = false →
        Ends (.dsmProtectionRelease n l p) s fun t => t.dsm[n].prot = protCode p ∧ OnlyChanges [.dsm] s' t)
  )
  ∧ (
    ∀ (s : State) (c : Fin 24) (x : Int), s.up = true → s.convMode c ≠ 0 →
      Ends (.adcOutput c x) s (fun t =>
        (∀ m ∈ s.convSet c, t.word ADC.RES m = ofInt (convCode x)) ∧ OnlyChanges [.regs, .conv] s t
        ∧ OnlyRegsOf [ADC.RES, ADC.RST] s t)
      ∧ (∀ m, s.g ADC.TRG_SRC c ≠ 0 → (State.capture c s).2 = some m →
        Ends (.adcTrigger c x) s fun t =>
          (∀ m' ∈ s.convSet m, t.word ADC.RES m' = ofInt (convCode x)) ∧ OnlyChanges [.regs, .conv] s t
          ∧ OnlyRegsOf [ADC.RES, ADC.RST] s t)
  )

/-- R280, R284, R285: a plausibility group captures its members in turn: a delta-sigma channel or a converter gives the code
of what it delivers where it is valid and in no skip window. A sum or difference within the tolerance clears the count of
misses, the third miss in a row fails the group, and a member without a value leaves the count.
R286, R287, R290: each sample of a comparator goes through the band and the filter of both sides; an output that
changes and trips nothing is told where its events are on. Once a side has left its reset level, m raw samples of one kind
give its output. A readback that ends gives its code. -/
def Obligations.PlausibilityAndComparators : Prop :=
  (
    (∀ (s : State) (m : Nat) (raw : Int), s.memberSkipped m = false → s.captureAt (memberEntry m) s.tbase = none →
      (m < 64 → s.gb DSM.STAT_VALID m = true → (State.memberCapture m (some raw) s).2 = some (s.dsmCode m raw.toNat))
      ∧ (64 ≤ m → (State.capture (m - 64) s).2.isSome = true → s.convValid (m - 64) = true →
          (State.memberCapture m (some raw) s).2 = some (convCode raw)))
    ∧ (∀ (s : State) (g : Fin 32) (a b c : Option Int), s.up = true → s.gb DSM.RGRP_EN g = true →
      let three := s.gb DSM.RGRP_TYPE g
      let x := State.memberCapture (s.g DSM.RGRP_A g) a s
      let y := State.memberCapture (s.g DSM.RGRP_B g) b x.1
      let z := State.memberCapture (s.g DSM.RGRP_C g) c y.1
      (∀ u v w : Int, x.2 = some u → y.2 = some v → (three = true → z.2 = some w) →
        let d := if three then u + v + w else u - v
        let holds := decide (absI d ≤ (s.g DSM.RTOL_TOL g : Int) * 65536)
        let k := s.plaus[g].misses + 1
        Ends (.plausibilityEvaluation g a b c) s fun t =>
          t.plaus[g] = (if holds then ⟨0, true⟩ else ⟨k, false⟩)
          ∧ (holds = false → k = 3 → t.gbit DSM.RSTAT_FAIL 0 g = true ∧ Raised 0xA1 g.val s t)
          ∧ ((holds = true ∨ k ≠ 3) → OnlyChanges [.conv, .dsm, .plaus] s t))
      ∧ ((x.2 = none ∨ y.2 = none ∨ (three = true ∧ z.2 = none)) →
        Ends (.plausibilityEvaluation g a b c) s fun t =>
          t.plaus[g] = ⟨s.plaus[g].misses, false⟩ ∧ OnlyChanges [.conv, .dsm, .plaus] s t))
  )
  ∧ (
    (∀ (c : CompSide) (n m : Nat) (b : Bool), c.left = true → 1 ≤ n → n ≤ m → m ≤ c.hist.length + 1 →
      (c.hist.take (m - 1)).all (· == b) = true → (c.feed (n, m) (some b)).out = b)
    ∧ (∀ (s0 : State) (n : Fin 32) (l : List Int) (v : Int),
      let s := overL l (State.compFeed n) s0
      let new := fun (high : Bool) => (s.compSide n high).feed (s.compNM n) (s.compClass n high v)
      let changed := fun (high : Bool) => (new high).out != (s.compSide n high).out
      s.up = true → s.gb CMP.CFG_EN n = true →
      (∀ high, (new high).left = true → (new high).out = true → (s.compSide n high).left = true ∧ (s.compSide n high).out = true) →
        Ends (.comparatorChange n l v) s0 fun t =>
          t.comp[n] = ⟨new true, new false⟩ ∧ (∀ j : Fin 32, j ≠ n → t.comp[j] = s.comp[j])
          ∧ (s.gb CMP.CFG_EVEN n = true → changed true = !changed false → Raised 0xA2 n.val s t)
          ∧ ((s.gb CMP.CFG_EVEN n = false ∨ (changed true || changed false) = false) → t.ev = s.ev)
          ∧ OnlyChanges [.comp, .ev] s t)
    ∧ (∀ (s : State) (x : Int), s.up = true → s.gb CMP.RDBK_EN = true → s.rdbkSlice = false →
        Ends (.rdbkDone x) s fun t =>
          t.word CMP.RDVAL = ofInt (convCode x) ∧ t.gb CMP.RDBK_DONE = true ∧ Raised 0xA3 (s.g CMP.RDBK_CMP) s t
          ∧ OnlyChanges [.regs, .ev, .conv] s t ∧ OnlyRegs [CMP.RDVAL.addr 0, CMP.RDBK.addr 0] s t)
  )

/-! Position. -/

/-- R294, R296: a quadrature step, or a step to a neighbouring Hall sector, counts one up or down; a step of two, or an
illegal Hall state, counts nothing and is a sequence error.
R295, R305, R307: a wire disagreement on a checked pair sets its sticky bit and its held flag; a held flag ends by
itself and leaves the sticky bits; without an edge for its time a port stands still at speed 0. -/
def Obligations.PositionCountsAndErrors : Prop :=
  (
    ∀ (s : State) (p : Fin 8) (a b z : Bool) (h : Fin 8),
      let step := (quadPos a b + 4 - quadPos (s.port p).a (s.port p).b) % 4
      let turn := fun (down : Bool) => s.word POS.CNT p + (if down then -1 else 1)
      (s.posMode p = 1 → s.g POS.CFG_IDX p = 0 →
        Ends (.encoderEdge p a b z) s fun t =>
          Counts s t ∧ (t.port p).a = a ∧ (t.port p).b = b
          ∧ (step = 0 → t.word POS.CNT p = s.word POS.CNT p)
          ∧ (step % 2 = 1 → t.word POS.CNT p = turn ((step == 3) != s.gb POS.CFG_DIR p))
          ∧ (step = 2 → t.word POS.CNT p = s.word POS.CNT p ∧ t.gb POS.STAT_SEQERR p = true))
      ∧ (s.posMode p = 2 →
        Ends (.hallTransition p h) s fun t =>
          Counts s t ∧ (hallSector h = none → t.gb POS.STAT_SEQERR p = true ∧ t.word POS.CNT p = s.word POS.CNT p)
          ∧ (∀ x, hallSector h = some x → (t.port p).sector = some x
            ∧ ∀ y, (s.port p).sector = some y →
              ((x + 6 - y) % 6 = 1 → t.word POS.CNT p = turn (s.gb POS.CFG_DIR p))
              ∧ ((x + 6 - y) % 6 = 5 → t.word POS.CNT p = turn (!s.gb POS.CFG_DIR p))))
  )
  ∧ (
    ∀ (s : State) (p : Fin 8) (pair : Fin 3) (k : Fin 4),
      (s.wireChecked p pair = true →
        Ends (.wireDisagreement p pair) s fun t =>
          t.gb POS.STAT_WIREERR p = true ∧ (t.port p).heldFlags.getLsbD 2 = true ∧ t.word POS.CNT p = s.word POS.CNT p
          ∧ OnlyChanges [.regs, .ev, .pos, .emu] s t ∧ OnlyRegsOf [POS.EMUST, POS.STAT] s t)
      ∧ Ends (.heldFlagExpiry p k) s (fun t =>
          (t.port p).heldFlags.getLsbD k = false ∧ t.word POS.STAT p = s.word POS.STAT p
          ∧ t.word POS.CNT p = s.word POS.CNT p ∧ OnlyChanges [.regs, .pos] s t ∧ OnlyRegsOf [POS.EMUST] s t)
      ∧ (s.posMode p ≠ 0 → s.posMode p ≠ 5 →
        Ends (.speedTimeout p) s fun t =>
          t.word POS.SPEED p = 0 ∧ t.gb POS.STAT_SPD_VALID p = false ∧ t.gb POS.STAT_STILL p = true
          ∧ (t.port p).edges = [] ∧ OnlyChanges [.regs, .pos] s t ∧ OnlyRegs [POS.SPEED.addr p, POS.STAT.addr p] s t)
  )

/-- R299, R300, R301: a serial frame begins when none is in flight; the first good frame sets the count, a later one
moves it by the signed difference; a frame is not good if it does not end in time or meets a condition of R301, and each
condition sets its flag.
R302, R314: the resolver loop moves its rate and angle by the error of the capture, its quotients rounded openly (log
entry 23); an emulator gives one edge of its backlog and moves its count by it. -/
def Obligations.SerialFramesAndLoops : Prop :=
  (
    ∀ (s : State) (p : Fin 8) (f : SerialFrame),
      ((s.posMode p = 3 ∨ s.posMode p = 4) → (s.port p).inFrame = none → s.bgs.slices.contains (.port p) = false →
        Ends (.serialFrameStart p) s fun t =>
          (t.port p) = { s.port p with inFrame := some s.tbase } ∧ OnlyChanges [.pos] s t)
      ∧ (∀ b, s.posMode p = 3 → (s.port p).inFrame = some b → s.gb POS.SER_PAR p = false → s.gb POS.SER_GRAY p = false →
        let n := s.g POS.SER_NBITS p
        let v := f.data % 2 ^ n
        ((s.port p).lastData = none →
          Ends (.serialFrameReceived p f) s fun t =>
            t.word POS.CNT p = BitVec.ofNat 32 v ∧ (t.port p).lastData = some v ∧ (t.port p).inFrame = none
            ∧ (t.port p).lastStamp = b ∧ Counts s t)
        ∧ (∀ w, (s.port p).lastData = some w →
          let d := sext n (v + 2 ^ n - w % 2 ^ n)
          4 * d.natAbs ≤ s.g POS.REV_CPR p + 1 →
            Ends (.serialFrameReceived p f) s fun t =>
              t.word POS.CNT p = s.word POS.CNT p + ofInt (if s.gb POS.CFG_DIR p then -d else d)
              ∧ (t.port p).lastData = some v ∧ (t.port p).inFrame = none ∧ Counts s t))
      ∧ ((s.posMode p = 3 ∨ s.posMode p = 4) → (s.port p).inFrame.isSome = true →
        let errs := s.frameErrs p f
        let bad := fun (seq : Bool) (t : State) =>
          (t.port p).inFrame = none ∧ t.gb POS.STAT_SPD_VALID p = false ∧ t.word POS.CNT p = s.word POS.CNT p
          ∧ (seq = true → t.gb POS.STAT_SEQERR p = true) ∧ (errs.2.1 = true → t.gb POS.STAT_CRCERR p = true)
          ∧ (errs.2.2 = true → t.gb POS.STAT_ENCERR p = true)
          ∧ OnlyChanges [.regs, .ev, .pos, .emu] s t ∧ OnlyRegsOf [POS.EMUST, POS.STAT] s t
        Ends (.serialFrameTimeout ⟨p, f⟩) s (bad true)
        ∧ ((errs.1 || errs.2.1 || errs.2.2) = true → Ends (.serialFrameReceived p f) s (bad errs.1)))
  )
  ∧ (
    ∀ (s : State) (p : Fin 8) (y x : Int) (e : Fin 4),
      (s.posMode p = 5 → s.bgs.slices.contains (.port p) = false →
        let r := s.port p
        let code := BitVec.ofNat 32 (r.phi / 2 ^ 40).toNat
        let err := y * cosCode code - x * sinCode code
        let w := r.omega + s.openShift err (s.g POS.RSLV_KIS p)
        Ends (.resolverUpdate p y x) s fun t =>
          (t.port p).omega = w
          ∧ (t.port p).phi = (r.phi + w * s.g POS.EXC_PER (s.g POS.RSLV_EXC p) + s.openShift err (s.g POS.RSLV_KPS p)) % 2 ^ 72
          ∧ OnlyChanges [.regs, .ev, .pos, .emu, .own] s t)
      ∧ (s.up = true → s.gb POS.EMUCFG_EN e = true → s.gb POS.EMUST_HOLD e = false → s.emu[e].backlog ≠ 0 →
        s.emu[e].lastEdge + s.g POS.EMUCFG_MINGAP e ≤ s.tbase →
          let d := sgnI s.emu[e].backlog
          Ends (.emulatorEdge e) s fun t =>
            t.emu[e].count = s.emu[e].count + ofInt d ∧ t.emu[e].backlog = s.emu[e].backlog - d
            ∧ t.emu[e].lastEdge = s.tbase ∧ (∀ j : Fin 4, j ≠ e → t.emu[j] = s.emu[j]) ∧ OnlyChanges [.emu] s t)
  )

/-! Period boundaries, steps and verdicts. -/

/-- R87, R154, R164: at a period boundary the mailbox requests of a task that is not to retire are done and its
boundary is noted; where no step of it is in flight, its engine is not halted and no step timed out there, its samples
are taken and it waits for its frame. What waits at the ports is served after it. -/
def Obligations.PeriodBoundaries : Prop :=
  ∀ (s : State) (t : Fin 256) (x : Task), s.up = true → s.task? t = some x → x.retire = none →
    Ends (.periodBoundary t) s (fun u => ∃ w y, u = State.serveAll w ∧ w.task? t = some y
      ∧ y.lastBoundary = some s.tbase ∧ y.reqs = [] ∧ y.stepn = x.stepn)
    ∧ (s.axesOfTask t = [] → x.reqs = [] → (s.eng x.eng).halted = false → s.stepOf x = none → x.timedOut ≠ some s.tbase →
      Ends (.periodBoundary t) s fun u => ∃ w y b, u = State.serveAll w ∧ w.task? t = some y ∧ y.wait = some b
        ∧ b.tick = s.tbase ∧ b.frame.length = x.d.smp.length ∧ OnlyChanges [.tasks, .conv] s w)

/-- R103, R105, R149, R154: a step whose frame is complete starts in pass A at its entry point, with fresh registers,
its frame and its boundary; half a period late, entries that have not come stand in with STALE. Where an entry is still
missing nothing changes. -/
def Obligations.StepsStart : Prop :=
  ∀ (s : State) (t : Fin 256) (x : Task) (b : Boundary) (arr : List (Option Int)),
    s.up = true → s.task? t = some x → x.wait = some b →
      let frame := fun (late : Bool) => (List.range x.d.smp.length).map (s.frameEntry x b arr late)
      let starts := fun (i : Instr) (late : Bool) =>
        (frame late).all Option.isSome = true →
          Ends i s fun u => ∃ st y, st ∈ (u.eng x.eng).steps ∧ st.task = t.val ∧ st.frame = (frame late).filterMap id
            ∧ st.tick = b.tick ∧ st.passB = false ∧ st.cur = x.pass ∧ st.resA = none ∧ st.log = []
            ∧ u.task? t = some y ∧ y.wait = none ∧ y.prevFrame = st.frame
            ∧ (∀ e : Fin 16, e ≠ x.eng → u.engines[e] = s.engines[e])
            ∧ OnlyChanges [.tasks, .engines, .dsm, .conv, .own] s u
      starts (.stepRelease t arr) false ∧ starts (.sampleStaleTimeout t arr) true
      ∧ ((frame false).all Option.isSome = false → exec (.stepRelease t arr) s = .next s)

/-- R177, R178, R180: the end of pre-copy is noted, no step of class S being in progress; a move whose copies match is
committed, and its task is then of the destination. The engines settle after it (R181 to R185). -/
def Obligations.Moves : Prop :=
  ∀ (s : State) (t : Fin 256) (x : Task) (m : Move), s.up = true → s.task? t = some x → x.move = some m →
    ((x.d.cls ≠ 2 ∨ (s.stepOf x).all Step.judged = true) →
      Ends (.precopyComplete t) s fun u =>
        u.task? t = some { x with move := some { m with copied := true } } ∧ OnlyChanges [.tasks] s u)
    ∧ (m.copied = true → s.stepOf x = none → s.copiesMatch x = true →
      Ends (.moveCommit t) s fun u => ∃ w, u = State.serveAll w.plc
        ∧ w.task? t = some { x with eng := m.dest, move := none }
        ∧ w.g PLC.TLOC_ENG t = m.dest.val ∧ w.gb PLC.TLOC_MOVING t = false
        ∧ w.g PLC.TLOC_MOVES t = min 255 (s.g PLC.TLOC_MOVES t + 1)
        ∧ Raised 0x68 t.val s w ∧ OnlyChanges [.regs, .tasks, .ev] s w)

/-- R151, R190, R192, R198, R200: a step whose passes agree in everything is accepted when it is its engine's turn:
STEPN counts, STW is pass A's, the step leaves its engine, the canary goes on; and its PWM commands reach their shadow
registers in RUN, unless a winding discharge runs. While a step of another engine is to be judged first, nothing
happens. -/
def Obligations.StepsAccepted : Prop :=
  ∀ (s : State) (e : Fin 16) (st : Step) (x : Task) (lines : List BufLine),
    s.up = true → s.nextJudged e = some st → s.task? st.task = some x → lines.any badLine = false →
    st.mismatch = none → (st.resA.getD st.cur).wsig = st.cur.wsig → x.d.kind = 0 → s.missed x st = false →
      let rc := st.resA.getD st.cur
      let turn := s.firstToJudge e st.endStamp = true
      (¬turn → exec (.pyryaVerdict e lines true) s = .next s)
      ∧ (turn → rc.outs = [] →
        Ends (.pyryaVerdict e lines true) s fun u => ∃ y, u.task? st.task = some y ∧ y.stepn = x.stepn + 1 ∧ y.stw = rc.stw
          ∧ y.astat = 0 ∧ y.lastAccept = some s.tbase ∧ (∀ z ∈ (u.eng e).steps, z.task ≠ st.task)
          ∧ u.g PYR.CANARY_POS = (s.g PYR.CANARY_POS + 1) % 128
          ∧ u.g PYR.BUFSTAT_CORR = min 65535 (s.g PYR.BUFSTAT_CORR + (lines.filter fun l => l.fbrkOk != l.memfOk).length)
          ∧ OnlyChanges [.regs, .tasks, .engines, .pyr] s u)
      ∧ (∀ k a b c, turn → rc.outs = [.pwm3 k a b c] → st.late = false → s.mode = mRUN → x.groupBr k < 8 →
        s.g FBRK.BRST_PAT (s.unitOf (x.groupBr k)) ≠ 6 →
        Ends (.pyryaVerdict e lines true) s fun u =>
          let leg := fun (j : Nat) => (at' u.legs (3 * x.groupBr k + j) ⟨.off, .off⟩).shadow
          leg 0 = .drive (legWord a) ∧ leg 1 = .drive (legWord b) ∧ leg 2 = .drive (legWord c)
          ∧ (∀ j : Fin 24, u.legs[j].loaded = s.legs[j].loaded))

/-- R135, R189 to R193, R197: a step whose passes differ is class O, with the cause and the item in PYR.LAST; one whose
buffer lines cannot be trusted is class P; a step without its pass-B STEPEND in time is class O with cause 6. Each is
rolled back and leaves its engine before REACT and the charges follow.
R194, R200, R202: a canary pair that answers rightly only moves the canary on; one that does not sets CANFAIL and
brings the KJ8 from RUN into SAFE; a second after its verdict an engine is suspect no longer. -/
def Obligations.StepsRejected : Prop :=
  (
    ∀ (s : State) (e : Fin 16) (st : Step) (lines : List BufLine) (ok : Bool),
      let last := fun (cause item : Nat) =>
        BitVec.ofNat 32 (cause * 2 ^ 28 + e.val * 2 ^ 24 + st.task * 2 ^ 16 + item)
      let gone := fun (w : State) => ∀ z ∈ (w.eng e).steps, z.task ≠ st.task
      (s.up = true → s.nextJudged e = some st → s.firstToJudge e st.endStamp = true →
        (lines.any badLine = false → ∀ c i, st.mismatch = some (c, i) → st.cur.fault = none →
          Ends (.pyryaVerdict e lines ok) s fun u => ∃ w,
            u = State.chargeO e st.task (s.task? st.task) (State.rejected st.task st.late w) ∧ gone w ∧ w.word PYR.LAST = last c i
            ∧ w.word PYR.LASTTS_LO = BitVec.ofNat 32 s.tbase ∧ w.g PYR.STAT_OCNT = min 255 (s.g PYR.STAT_OCNT + 1))
        ∧ (lines.any badLine = true →
          Ends (.pyryaVerdict e lines ok) s fun u => ∃ w, u = State.secondP (State.rejected st.task st.late w) ∧ gone w
            ∧ w.word PYR.LAST = last 7 0 ∧ w.g PYR.STAT_PCNT = min 255 (s.g PYR.STAT_PCNT + 1)))
      ∧ (∀ t : Fin 256, (s.eng e).halted = false → ((s.eng e).steps.find? fun z => z.task == t.val && !z.judged && !z.debug) = some st →
        let x := (s.modTask t fun x => { x with timedOut := some s.tbase }).task? st.task
        Ends (.verdictTimeout e t) s fun u => ∃ w, u = State.chargeO e st.task x (State.rejected st.task st.late w) ∧ gone w
          ∧ w.word PYR.LAST = last 6 0 ∧ w.g PYR.STAT_OCNT = min 255 (s.g PYR.STAT_OCNT + 1))
  )
  ∧ (
    ∀ (s : State) (e : Fin 16),
      (s.up = true →
        Ends (.canaryPair true) s (fun u => u.g PYR.CANARY_POS = (s.g PYR.CANARY_POS + 1) % 128 ∧ OnlyChanges [.regs] s u
          ∧ OnlyRegs [PYR.CANARY.addr 0] s u)
        ∧ (s.mode = mRUN → Ends (.canaryPair false) s fun u => u.gb PYR.STAT_CANFAIL = true ∧ u.mode = mSAFE
          ∧ OnlyChanges (.pyr :: enteringSafe) s u))
      ∧ Ends (.suspectExpiry e) s fun u =>
          u.gbit PYR.ESUSP_SUSP 0 e = false ∧ u.engines[e].suspAt = none
          ∧ (∀ j : Fin 16, j ≠ e → u.gbit PYR.ESUSP_SUSP 0 j = s.gbit PYR.ESUSP_SUSP 0 j ∧ u.engines[j] = s.engines[j])
          ∧ OnlyChanges [.regs, .engines] s u ∧ OnlyRegs [PYR.ESUSP.addr 0] s u
  )

/-! The host ports. -/

/-- R83, R84, R85, R88, R94: the commands of a port that read and write at once, from a port that is ready: STATUS, a READ
of words it may read, OP_STATUS, an accepted or refused WRITE, and DOORBELL. -/
def Obligations.HostReadsAndWrites : Prop :=
  ∀ (s : State) (n : Fin 4) (tag : BitVec 8) (a : Word), s.Ready n → s.mode ≠ mBOOT →
    Ends (.status n tag 0 []) s (fun t => t.answered n 1 tag eOK ((s.taken n 1 tag 0 []).statusWords n) ∧ Serves n [] s t)
    ∧ (∀ c : Word, 1 ≤ c.toNat → c.toNat ≤ 1024 → a.toNat % 4 = 0 → a.toNat + 4 * c.toNat ≤ hostArea →
        (∀ i < c.toNat, (s.taken n 2 tag a [c]).readCode n (a.toNat + 4 * i) = eOK) →
        (∀ i < c.toNat, freeArea (a.toNat + 4 * i) = false) → s.unstruck a.toNat (4 * c.toNat) →
          Ends (.read n tag a [c]) s fun t =>
            t.answered n 2 tag eOK ((List.range c.toNat).map fun i => wordAt s.sram (a.toNat + 4 * i))
            ∧ Serves n [.own] s t)
    ∧ (∀ o, s.pendingOp a = some o → s.scrapped = false → bits a.toNat 24 6 = 0 →
        Ends (.opStatus n tag a []) s fun t =>
          t.answered n 0x70 tag eOK [0, BitVec.ofNat 32 o.done, BitVec.ofNat 32 o.total]
            ∧ Serves n [] s t)
    ∧ (∀ x, s.pendingOp a = none → s.finishedOp a = some x → s.scrapped = false → bits a.toNat 24 6 = 0 →
        Ends (.opStatus n tag a []) s fun t =>
          t.answered n 0x70 tag eOK [BitVec.ofNat 32 (x.code.toNat * 65536 + x.state), BitVec.ofNat 32 x.done,
            BitVec.ofNat 32 x.total] ∧ Serves n [] s t)
    ∧ (∀ pl, pl ≠ [] → pl.length ≤ 1024 → s.noStep → (s.taken n 3 tag a pl).writeCode n a.toNat pl = eOK →
        a.toNat + 4 * pl.length ≤ sramEnd →
          Ends (.write n tag a pl) s fun t => t.answered n 3 tag eOK []
            ∧ bytesAt t.sram a.toNat (4 * pl.length) = pl.flatMap (fun w => leBytes 4 w.toNat)
            ∧ (∀ x, (x < a.toNat ∨ a.toNat + 4 * pl.length ≤ x) → byteAt t.sram x = byteAt s.sram x) ∧ Serves n [.sram, .poison, .upsets] s t)
    ∧ (∀ pl c, pl ≠ [] → pl.length ≤ 1024 → (s.taken n 3 tag a pl).writeCode n a.toNat pl = c → c ≠ eOK →
        Ends (.write n tag a pl) s fun t => t.answered n 3 tag c [] ∧ Serves n [] s t)
    ∧ (doorbellCode n a = eOK → s.scrapped = false → bits a.toNat 28 4 = 0 →
        Ends (.doorbell n tag a []) s fun t => t.answered n 4 tag eOK [] ∧ Serves n [] s t
          ∧ ∃ r ∈ t.ev.inFlight, r.num = bits a.toNat 0 20 ∧ r.tag.toNat = bits a.toNat 20 8 ∧ r.aux = BitVec.ofNat 16 n.val
            ∧ r.data = 0 ∧ r.stamp = s.tbase)

/-- R86, R89, R400: a first IMG_LOAD reserves the staging buffer that its header asks for and stores its words in it;
a subscription puts its signal and its decimation into the stream, the port owning it; the last UNSUB frees it. -/
def Obligations.HostStagingAndStreams : Prop :=
  ∀ (s : State) (n : Fin 4) (tag : BitVec 8) (a : Word) (pl : List Word), s.Ready n → pl.length ≤ 1024 →
    (s.gb HOST.RIGHTS_IMAGE n = true → s.barred true = false → s.staging = none → s.committing = false →
      4 ≤ pl.length → (pl.getD 3 0).toNat ≤ 0x7FFC00 → (pl.getD 3 0).toNat % 32 = 0 →
      4 * pl.length ≤ 0x400 + (pl.getD 3 0).toNat →
      ∀ b, (s.taken n 0x10 tag 0 pl).stageFit (0x400 + (pl.getD 3 0).toNat) = some b →
        Ends (.imgLoad n tag 0 pl) s fun t => t.answered n 0x10 tag eOK []
          ∧ t.staging = some ⟨n, b, 0x400 + (pl.getD 3 0).toNat⟩
          ∧ bytesAt t.sram b (4 * pl.length) = wordBytes pl
          ∧ (∀ x, (x < b ∨ b + 4 * pl.length ≤ x) → byteAt t.sram x = byteAt s.sram x)
          ∧ Serves n [.sram, .poison, .upsets, .staging] s t)
    ∧ (let k := bits a.toNat 20 2
       let sig := BitVec.ofNat 20 a.toNat
       let mine := (s.stream k).owner = none ∨ (s.stream k).owner = some n
       let has := fun (t : State) (d : Nat) => ∃ y ∈ (t.stream k).signals, y.sig = sig ∧ y.dec = d
       s.gb HOST.RIGHTS_TELEM n = true → s.barred false = false → bits a.toNat 22 10 = 0 → mine →
        (∀ d : Word, s.sigDefined sig.toNat = true → 1 ≤ d.toNat → d.toNat ≤ 65535 → (s.stream k).signals.length < 256 →
          Ends (.telemSub n tag a [d]) s fun t => t.answered n 0x60 tag eOK [] ∧ (t.stream k).owner = some n ∧ has t d.toNat
            ∧ (∀ j : Fin 4, j.val ≠ k → t.streams[j] = s.streams[j]) ∧ Serves n [.streams] s t)
        ∧ ((∃ d, has s d) →
          Ends (.telemUnsub n tag a []) s fun t => t.answered n 0x61 tag eOK [] ∧ (∀ d, ¬has t d)
            ∧ ((t.stream k).owner = none ↔ (t.stream k).signals = []) ∧ Serves n [.streams] s t))

/-- R87, R163, R173, R182: an admitted task gets the lowest free ID, which answers; a retirement is due at the task's next
boundary, answers then, and cancels a pending move; mailbox requests wait in their order for that boundary, a read with its
port, and a write not on the axis words. -/
def Obligations.HostTasks : Prop :=
  ∀ (s : State) (n : Fin 4) (tag : BitVec 8) (a : Word) (pl : List Word), s.Ready n → pl.length ≤ 1024 →
    let id := bits a.toNat 0 8
    (∀ l k u, s.barred true = false → bits a.toNat 16 16 = 0 →
      let w := s.taken n 0x20 tag a pl
      w.findDescr (bits a.toNat 0 16) = .ok l → w.admitCode n l a pl.length = eOK → w.admitTask n (descrOf l) pl = .ok (k, u) →
        Ends (.taskAdmit n tag a pl) s (fun t => t.tasks = u.tasks
          ∧ (∃ f : Frame, f.opc = 0x20 ∧ f.tag = tag ∧ t = State.reply n f eOK [BitVec.ofNat 32 k] u))
        ∧ s.task? k = none ∧ ∀ j < k, s.task? j ≠ none)
    ∧ (∀ x, s.barred false = false → bits a.toNat 8 24 = 0 → s.task? id = some x → (∀ b ∈ x.d.commands, s.owns n b = true) →
      s.retireUnsafe x = false → x.retire = none →
        Ends (.taskRetire n tag a []) s fun t => t.waitsFor n 0x21 tag (.retire id)
          ∧ t.task? id = some { x with retire := some (some (n, tag), 0), move := none } ∧ t.ports[n].resps = s.ports[n].resps
          ∧ t.gb PLC.TLOC_MOVING id = false ∧ OnlyChanges [.regs, .ports, .tasks, .ev] s t
          ∧ OnlyRegs [QUE.QTAIL.addr (2 * n.val), QUE.QHEAD.addr (2 * n.val), PLC.TLOC.addr id] s t)
    ∧ (∀ x, s.barred false = false → (∀ b ∈ x.d.commands, s.owns n b = true) → bits a.toNat 9 7 = 0 → s.task? id = some x →
      let off := bits a.toNat 16 16
      let c := (pl.getD 0 0).toNat
      (pl ≠ [] → s.axisWords id off pl.length = false → mailboxFits x off pl.length = true →
        Ends (.taskMailboxWrite n tag a pl) s fun t => t.answered n 0x22 tag eOK []
          ∧ t.task? id = some { x with reqs := x.reqs ++ [⟨n, tag, true, off, pl, pl.length⟩] } ∧ Serves n [.tasks] s t)
      ∧ (pl.length = 1 → 1 ≤ c → c ≤ 1024 → mailboxFits x off c = true →
        Ends (.taskMailboxRead n tag a pl) s fun t => t.waitsFor n 0x22 tag (.mailbox id)
          ∧ t.task? id = some { x with reqs := x.reqs ++ [⟨n, tag, false, off, pl, c⟩] } ∧ Serves n [.tasks] s t))

/-- R57, R91, R92, R359, R388, R395, R403: the commands that begin a long operation, from their port, with the rights and
within the limits: it is pending with a fresh token, which answers with E_PENDING. -/
def Obligations.LongOperationsBegin : Prop :=
  ∀ (s : State) (n : Fin 4) (tag : BitVec 8) (a : Word), s.Ready n → s.mode = mCONFIGURE → s.scrapped = false → s.nvFailed = false →
    s.gb HOST.RIGHTS_SAFEOWN n = true → s.gb NVS.KEYSTAT_CLOSED = false →
      (∀ x, s.gb HOST.RIGHTS_IMAGE n = true → s.staging = some x → x.port = n → s.limits n .imgCommit = eOK →
        let len := (hdrOf (s.staged 0 0x400)).len
        Ends (.imgCommit n tag 0 []) s fun t => s.begun t n 0x11 tag .imgCommit (verifySteps len + 2 + (len + 4095) / 4096))
      ∧ (a.toNat ≤ 1 →
        let cal := a.toNat % 2 == 1
        let len := if cal then (4 * s.bgs.trims.length + 31) / 32 * 32 else safetyLen + (s.word NVS.ULEN).toNat
        s.limits n (.nvCommit cal) = eOK → (cal = true ∨ s.userOk = true) → s.nextSeq cal < 2 ^ 32 →
          Ends (.nvCommit n tag a []) s fun t => s.begun t n 0x40 tag (.nvCommit cal) (3 + (len + 4095) / 4096))
      ∧ (let isl := bits a.toNat 0 5
         let k := OpKind.bist (Fin.ofNat 26 isl) (a.toNat.testBit 8) (a.toNat.testBit 9)
         isl ≤ 25 → (isl < 2 ∨ 17 < isl) → a &&& 0xFFFFFCE0 = 0 → (a.toNat.testBit 9 = true → isl = 18) →
         s.limits n k = eOK → (a.toNat.testBit 9 = true → s.fuses.burned.length + (s.unburned isl).length ≤ 512) →
          Ends (.bistRun n tag a []) s fun t => s.begun t n 0x41 tag k (bistSlices isl))
      ∧ (a.toNat ≤ 2 → s.limits n (.cal (BitVec.ofNat 2 a.toNat)) = eOK →
          Ends (.calRun n tag a []) s fun t =>
            s.begun t n 0x42 tag (.cal (BitVec.ofNat 2 a.toNat)) ([24, 32, 56].getD a.toNat 0))
      ∧ (∀ x, s.safe.sess = some x → a.toNat = x.sid.toNat → (s.taken n 0x52 tag a []).commitCode n x = (eOK, false) →
          Ends (.safeCommit n tag a []) s fun t =>
            s.begun t n 0x52 tag (.safeCommit x.unlock) (if x.unlock then 1 else 3 + (s.safeLen + 4095) / 4096))

/-- R93, R94, R95, R395: the end of a step of a calibration counts and keeps its trims; the last one ends the operation,
which is told and can still be asked for; an abort waits for the end of the step. -/
def Obligations.LongOperationsRun : Prop :=
  ∀ (s : State) (tok : Word) (o : LongOp) (r : OpStepResult) (tg : BitVec 2),
    s.pendingOp tok = some o → o.kind = .cal tg → o.err = eOK →
      (o.done + 1 < o.total → o.stop = false → o.abort = none →
        Ends (.longOpStep tok r) s fun t => ∃ w o', t = State.serveAll w ∧ w.pendingOp tok = some o' ∧ o'.done = o.done + 1
          ∧ o'.trims = o.trims ++ r.trims ∧ o'.total = o.total ∧ OnlyChanges [.ops, .own] s w)
      ∧ (o.total ≤ o.done + 1 → o.abort = none →
        Ends (.longOpStep tok r) s fun t => ∃ w, t = State.serveAll w ∧ w.pendingOp tok = none
          ∧ w.ports[o.port].finished.head? = some ⟨tok, 1, eOK, o.done + 1, o.total⟩
          ∧ (tg ≠ 1 → w.gb BGS.CALSTAT_CONV = true) ∧ (tg ≠ 0 → w.gb BGS.CALSTAT_CMP = true)
          ∧ Raised 0x40 0 s w)
      ∧ (∀ (n : Fin 4) (tag : BitVec 8), s.Ready n → s.barred false = false → bits tok.toNat 24 6 = 0 → o.port = n →
        Ends (.opAbort n tag tok []) s fun t => t.waitsFor n 0x71 tag (.abort tok)
          ∧ ∃ o', t.pendingOp tok = some o' ∧ o'.abort = some (n, tag) ∧ o'.done = o.done ∧ Serves n [.ops] s t)

/-- R41 to R43, R65: a MODE_REQ that passes its checks: SAFE is entered from any mode but SLEEP, BOOT and SAFE itself;
the transitions by request take place with PREV, CAUSE and RQPORT; RUN to READY waits for the bridges, and takes place
once every switch is off; an entry to SLEEP is accepted, and answered later. -/
def Obligations.ModeRequests : Prop :=
  ∀ (s : State) (n : Fin 4) (tag : BitVec 8) (a : Word), s.Ready n →
    let w := s.taken n 0x30 tag a []
    let tgt := bits a.toNat 0 3
    let went := fun (t : State) =>
      t.answered n 0x30 tag eOK [] ∧ t.mode = tgt ∧ t.g SYS.MODE_PREV = s.mode ∧ t.g SYS.MODE_CAUSE = 2
        ∧ t.g SYS.MODE_RQPORT = n.val ∧ OnlyChanges enteringSafe s t
    let i : Instr := .modeReq n tag a []
    s.toReady = false → s.pwr.entering = .idle → w.modeCode n (hostFrame 0x30 tag a []) = eOK →
      (tgt = mSAFE → (s.mode = mCONFIGURE ∨ s.mode = mREADY ∨ s.mode = mRUN) → Ends i s went)
      ∧ (s.mode = mCONFIGURE → tgt = mREADY → s.bootedBank.isSome = true → (∀ x ∈ s.tasks, x.d.kind ≠ 1) →
          s.gb SAFE.STAT_LOCKED = true → s.gb PYR.STAT_DBGDIV = false → Ends i s went)
      ∧ (s.mode = mREADY → tgt = mRUN → s.stoDemand = false → s.gb SAFE.STAT_STOFLT = false → s.gb SAFE.STAT_RSTOK = true →
          w.protReady = true → Ends i s went)
      ∧ (s.mode = mREADY → tgt = mCONFIGURE → Ends i s went)
      ∧ (s.mode = mSAFE → tgt = mCONFIGURE → w.causePresent = false → w.allSto = true → Ends i s went)
      ∧ (s.mode = mSAFE → tgt = mREADY → w.causePresent = false → w.allSto = true → s.bootedBank.isSome = true →
          s.gb SAFE.STAT_RSTOK = true → s.gb SAFE.STAT_LOCKED = true → s.gb PYR.STAT_DBGDIV = false → Ends i s went)
      ∧ (s.mode = mRUN → tgt = mREADY → w.slowEnough = true →
          Ends i s fun t => t.waitsFor n 0x30 tag .runToReady ∧ Serves n [] s t)
      ∧ ((s.mode = mCONFIGURE ∨ s.mode = mREADY ∨ s.mode = mSAFE) → tgt = mSLEEP → w.sleepBarred = false →
          w.watchTpo = false → w.watchActive = false →
            Ends i s fun t => t.waitsFor n 0x30 tag .sleep ∧ t.pwr = { s.pwr with entering := .accepted } ∧ Serves n [.pwr] s t)
      ∧ (∀ u : State, u.toReady = true → (∀ k ∈ u.allUnits, (at' u.units k UnitSt.none).stopped = true) →
          (∀ m : Fin 48, u.padCmd m = false) →
          Ends .runToReadyComplete u fun t => ∃ x : State, t = State.serveAll x ∧ x.mode = mREADY ∧ x.g SYS.MODE_PREV = u.mode)

/-- R357, R358: sessions. OPEN and UNLOCK begin one with the digest of the configuration, CLOSE, its time limit and
SETSEED do as named; the right confirmation confirms it, a wrong one counts and the third ends it for 10 s. -/
def Obligations.SafetySessions : Prop :=
  ∀ (s : State) (n : Fin 4) (tag : BitVec 8) (pl : List Word), s.Ready n → s.mode = mCONFIGURE → s.scrapped = false →
    (let frame := fun (t : State) => OnlyChanges [.regs, .ports, .ev, .safe, .own] s t
       ∧ OnlyRegsOf [QUE.QTAIL, QUE.QHEAD, SAFE.SESS, SAFE.STAT] s t
     let opens := fun (i : Instr) (unlock : Bool) (arg : Word) =>
      Ends i s fun t => ∃ x, t.safe.sess = some x ∧ x.port = n ∧ x.unlock = unlock ∧ x.conf = false ∧ x.fails = 0
        ∧ x.digest = bytesWords (s.taken n 0x50 tag arg []).digest ∧ x.opened = s.tbase
        ∧ t.answered n 0x50 tag eOK (BitVec.ofNat 32 x.sid.toNat :: x.nonce :: x.digest) ∧ frame t
     s.gb HOST.RIGHTS_SAFEOWN n = true → s.safe.sess = none → s.safe.sessBar ≤ s.tbase →
      (s.gb SAFE.STAT_LOCKED = false → opens (.safeOpen n tag 0 []) false 0)
      ∧ (s.gb SAFE.STAT_LOCKED = true → opens (.safeUnlock n tag 0 []) true 1)
      ∧ (s.gb SAFE.STAT_LOCKED = false → s.gb NVS.KEYSTAT_ZERO = false → pl.length = 8 → pl.any (· != 0) = true →
        Ends (.safeSetseed n tag 0 pl) s fun t => t.answered n 0x50 tag eOK [] ∧ t.safe.seeds[n] = some pl
          ∧ (∀ m : Fin 4, m ≠ n → t.safe.seeds[m] = s.safe.seeds[m]) ∧ frame t))
    ∧ (∀ x, s.safe.sess = some x →
      Ends .sessionTimeout s (fun t => t.safe.sess = none ∧ t.gb SAFE.STAT_SESS = false
        ∧ OnlyChanges [.regs, .ev, .safe] s t ∧ OnlyRegsOf [SAFE.SESS, SAFE.STAT] s t)
      ∧ (∀ hi : BitVec 29, s.gb HOST.RIGHTS_SAFEOWN n = true → hi.toNat = x.sid.toNat * 2 ^ 13 →
        Ends (.safeClose n tag hi []) s fun t => t.answered n 0x50 tag eOK [] ∧ t.safe.sess = none)
      ∧ (x.conf = false → pl.length = (if s.gb HOST.RIGHTS_SAFEOWN n then 14 else 12) →
        let i : Instr := .safeConfirm n tag (BitVec.ofNat 32 x.sid.toNat) pl
        (s.confirms n x pl = true →
          Ends i s fun t => t.answered n 0x51 tag eOK [] ∧ t.safe.sess = some { x with conf := true })
        ∧ (s.confirms n x pl = false → x.fails ≠ 2 →
          Ends i s fun t => t.answered n 0x51 tag eCONFIRM [] ∧ t.safe.sess = some { x with fails := x.fails + 1 })
        ∧ (s.confirms n x pl = false → x.fails = 2 →
          Ends i s fun t => t.answered n 0x51 tag eCONFIRM [] ∧ t.safe.sess = none
            ∧ t.safe.sessBar = s.tbase + 2000000000)))

/-- R71 to R78, R377, R378: the ports' transport. A transaction with an undefined code only sets BADTX; a frame that
fails its checks is answered with their code; a response or a record leaves its queue once it has been clocked out, or
with the Ethernet frame that carried it, which counts FSEQ, in the words of its layout with their CRC; a frame of a type
of no other use enters the receive ring. -/
def Obligations.HostTransport : Prop :=
  ∀ (s : State) (n : Fin 4),
    (∀ code, s.spiUp = true → code ∉ ([0x5A, 0x5B, 0xA5, 0xA6, 0xE5, 0xE6] : List (BitVec 8)) →
      Ends (.spiBadTransaction n code) s fun t =>
        t.gb HOST.PSTAT_BADTX n = true ∧ OnlyChanges [.regs] s t ∧ OnlyRegs [HOST.PSTAT.addr n] s t)
    ∧ (∀ words pw, s.Ready n → frameCode words pw ≠ eOK →
      let w0 := (words.getD 0 0).toNat
      Ends (.frameIntegrityFailure n words pw) s fun t =>
        t.answered n (bits w0 24 8) (BitVec.ofNat 8 (bits w0 16 8)) (frameCode words pw) [] ∧ Serves n [] s t)
    ∧ (∀ r l words, s.spiReads = true → s.gb ETH.HBIND_EN n = false → s.ports[n].ovf = none → s.ports[n].resps = r :: l → r.payload.length + 3 ≤ words →
      Ends (.responseRead n words) s fun t => t.ports[n].resps = l
        ∧ t.ports[n].out = respWords r ++ List.replicate (words - (r.payload.length + 3)) 0
        ∧ t.word QUE.QHEAD (2 * n.val + 1) = s.word QUE.QHEAD (2 * n.val + 1) + 1
        ∧ OnlyChanges [.regs, .ports] s t ∧ OnlyRegs [QUE.QHEAD.addr (2 * n.val + 1)] s t)
    ∧ (∀ words, s.spiReads = true → s.gb ETH.HBIND_EN n = false → 5 ≤ words → s.qLevel (8 + n.val) ≠ 0 →
      let w := s.qEntry (8 + n.val) (s.word QUE.QHEAD (8 + n.val)).toNat
      Ends (.eventRead n words) s fun t => t.qLevel (8 + n.val) = s.qLevel (8 + n.val) - 1
        ∧ (w.length = 4 → t.ports[n].out = w ++ crc32c (wordBytes w) :: List.replicate (words - 5) 0)
        ∧ OnlyChanges [.regs, .ports] s t ∧ OnlyRegs [QUE.QHEAD.addr (8 + n.val)] s t)
    ∧ (∀ r l cnt, s.gb ETH.HBIND_EN n = true → s.ethOn (s.g ETH.HBIND_MAC n) = true → s.ports[n].ovf = none →
      s.ports[n].resps = r :: l → r.payload.length ≤ 1024 →
        Ends (.hostTransportFrameSent n false cnt) s fun t =>
          t.ports[n].fseq = s.ports[n].fseq + 1 ∧ t.ports[n].resps = l
          ∧ t.ports[n].out = transportWords n.val 2 s.ports[n].fseq (respWords r) ∧ OnlyChanges [.regs, .ports] s t)
    ∧ (∀ (m : Fin 2) (f : EthFrame), s.ethOn m = true → f.cmpErr = false → f.fcsOk = true → f.bytes.length ≤ 1518 →
      s.ethTakes m f.bytes = true →
        let et := be16 f.bytes (etAt f.bytes)
        let q := 17 + 2 * m.val
        et ≠ 0x8808 → et ≠ s.g ETH.ETYPE_SAFEET → et ≠ s.g ETH.ETYPE_HOSTET → s.gb QUE.QCFG_EN q = true → s.qFull q = false →
          Ends (.ethFrameReceived m f) s fun t =>
            t.word QUE.QTAIL q = s.word QUE.QTAIL q + 1
            ∧ bytesAt t.sram (s.qAddr q (s.word QUE.QTAIL q).toNat) 32 = wordBytes (ethEntry f)
            ∧ OnlyChanges [.regs, .sram, .poison, .upsets] s t ∧ OnlyRegs [QUE.QTAIL.addr q] s t)

/-! Register writes. -/

/-- R8, R9, R31, R40: a register write that R9 refuses answers with its code and changes nothing else; in BOOT and SLEEP
every one is refused, one with the rights with E_MODE; an accepted one stores its word in SRAM, or merged by the access
types of R8 in a register whose write starts nothing. -/
def Obligations.RegisterWrites : Prop :=
  ∀ (s : State) (w : Who) (a v : Word), s.up = true → s.islandUp 18 = true → s.noStep →
    let i : Instr := .registerWrite w a v
    ∀ n, s.writerPort w = some n →
      ((s.mode = mBOOT ∨ s.mode = mSLEEP) →
        Ends i s fun t => t.wrCode ≠ eOK ∧ OnlyChanges [.own] s t
          ∧ ((∀ k < 4, (s.wordStages n a.toNat v).getD k eOK = eOK) → rightsWrite a.toNat = false → t.wrCode = eMODE))
    ∧ (
      (s.writeCode n a.toNat [v] ≠ eOK →
        Ends i s fun t => t.wrCode = s.writeCode n a.toNat [v] ∧ OnlyChanges [.own] s t)
      ∧ (s.writeCode n a.toNat [v] = eOK →
        (a.toNat + 4 ≤ sramEnd → Ends i s fun t => t.wrCode = eOK ∧ wordAt t.sram a.toNat = v
          ∧ (∀ x, (x < a.toNat ∨ a.toNat + 4 ≤ x) → byteAt t.sram x = byteAt s.sram x) ∧ OnlyChanges [.sram, .poison, .upsets, .own] s t)
        ∧ (∀ r k, sramEnd ≤ a.toNat → regAt a.toNat = some (r, k) → r.addr k = a.toNat → plainReg r = true →
          Ends i s fun t => t.wrCode = (if s.nvDeferred a.toNat then eDEFERRED else eOK) ∧ t.word r k = s.merged r k v
            ∧ OnlyChanges [.regs, .own] s t ∧ OnlyRegs [a.toNat] s t)))

/-- R85, R99, R100, R327, R328, R367, R377, R378, R380, R400: accepted writes of the queue, event and network registers.
QCFG going enabled clears both indices, and going disabled empties the queue; EVT.DOORBELL raises its event with its tag;
PSLEEP, QBIND and HBIND store their word; a push or pop register moves its queue's index by its count; MDIO begins a
transaction; enabling a CAN port clears its counters; PTPOFS_LO is held until PTPOFS_HI takes it into the offset. -/
def Obligations.QueueAndNetworkWrites : Prop :=
  ∀ (s : State) (w : Who) (v : Word) (n : Fin 4),
    let x := v.toNat
    let stores := fun (i : Instr) (r : Reg) (k : Nat) => Accepted s w r k v n →
      Ends i s fun t => t.wrCode = eOK ∧ t.word r k = s.merged r k v ∧ OnlyChanges [.regs, .own] s t ∧ OnlyRegs [r.addr k] s t
    let moves := fun (i : Instr) (r : Reg) (k : Nat) (ix : Reg) (q c : Nat) => Accepted s w r k v n →
      Ends i s fun t => t.wrCode = eOK ∧ t.word ix q = s.word ix q + BitVec.ofNat 32 c ∧ OnlyChanges [.regs, .own] s t
        ∧ OnlyRegs [r.addr k, ix.addr q] s t
    (∀ q : Fin 16, Accepted s w QUE.QCFG (16 + q.val) v n →
      Ends (.queueEnable w q v) s fun t =>
        let k := 16 + q.val
        t.wrCode = eOK ∧ t.word QUE.QCFG k = s.merged QUE.QCFG k v
        ∧ (s.gb QUE.QCFG_EN k = false → x.testBit 31 = true → t.word QUE.QHEAD k = 0 ∧ t.word QUE.QTAIL k = 0)
        ∧ (s.gb QUE.QCFG_EN k = true → x.testBit 31 = false → t.word QUE.QHEAD k = s.word QUE.QTAIL k)
        ∧ OnlyChanges [.regs, .own] s t ∧ OnlyRegs [QUE.QCFG.addr k, QUE.QHEAD.addr k, QUE.QTAIL.addr k] s t)
    ∧ (Accepted s w EVT.DOORBELL 0 v n →
      Ends (.evtDoorbellWrite w v) s fun t => t.wrCode = eOK ∧ Raised (bits x 0 20) (bits x 20 8) s t
        ∧ OnlyChanges [.regs, .ev, .own] s t ∧ OnlyRegs [EVT.DOORBELL.addr 0] s t)
    ∧ (∀ p : Fin 4, stores (.portSleepWrite w p v) EVT.PSLEEP p ∧ stores (.evtQbindWrite w p v) EVT.QBIND p
        ∧ stores (.hostTransportBind w p v) ETH.HBIND p
        ∧ moves (.canTxPush w p v) CAN.TXPUSH p QUE.QTAIL (20 + 2 * p.val) (bits x 0 8)
        ∧ moves (.canRxPop w p v) CAN.RXPOP p QUE.QHEAD (21 + 2 * p.val) (bits x 0 8)
        ∧ moves (.telemetryPop w p v) BGS.TPOP p QUE.QHEAD (28 + p.val) (bits x 0 16))
    ∧ (∀ m : Fin 2, moves (.ethTxPush w m v) ETH.TXPUSH m QUE.QTAIL (16 + 2 * m.val) (bits x 0 8)
        ∧ moves (.ethRxPop w m v) ETH.RXPOP m QUE.QHEAD (17 + 2 * m.val) (bits x 0 8)
        ∧ (Accepted s w ETH.MDIO m v n →
          Ends (.mdioTransaction w m v) s fun t => t.wrCode = eOK ∧ t.gb ETH.MDIO_BUSY m = true
            ∧ t.eth[m].mdioWrite = x.testBit 30 ∧ OnlyChanges [.regs, .eth, .own] s t ∧ OnlyRegs [ETH.MDIO.addr m] s t))
    ∧ (∀ c : Fin 4, Accepted s w CAN.CFG c v n → s.gb CAN.CFG_EN c = false → x.testBit 31 = true →
      Ends (.canEnable w c v) s fun t => t.wrCode = eOK ∧ t.gb CAN.CFG_EN c = true ∧ t.g CAN.STAT_TEC c = 0
        ∧ t.g CAN.STAT_REC c = 0 ∧ t.g CAN.STAT_FCS c = 0 ∧ OnlyChanges [.regs, .own] s t
        ∧ OnlyRegs [CAN.CFG.addr c, CAN.STAT.addr c] s t)
    ∧ (Accepted s w ETH.PTPOFS_LO 0 v n →
      Ends (.ptpOffsetLoWrite w v) s fun t => t.wrCode = eOK ∧ t.ptpHeld = v ∧ t.ptpOfs = s.ptpOfs
        ∧ OnlyChanges [.regs, .ptp, .own] s t)
    ∧ (Accepted s w ETH.PTPOFS_HI 0 v n →
      Ends (.ptpOffsetHiWrite w v) s fun t => t.wrCode = eOK ∧ t.ptpOfs = v ++ s.ptpHeld ∧ t.ptpHeld = s.ptpHeld
        ∧ OnlyChanges [.regs, .ptp, .own] s t)

/-- R205 to R208, R210, R215: accepted writes of the debug and axis registers. EN makes the steps of the engine run
without comparison, and sets DBGDIV; HALT holds the engine, and STEP of a halted one executes one instruction of it;
clearing EN retires the tasks that ran so. EN and the commands of an axis move its state. -/
def Obligations.DebugAndAxisWrites : Prop :=
  ∀ (s : State) (w : Who) (v : Word) (n : Fin 4),
    let x := v.toNat
    let e := bits x 8 4
    let on := s.gb PYR.DBGCTL_EN
    (Accepted s w PYR.DBGCTL 0 v n →
      (on = false → x.testBit 16 = true → s.noDebug → (∀ st ∈ (s.eng e).steps, st.passB = false ∧ st.cur.ended = false) →
        Ends (.debugEnable w v) s fun t => t.wrCode = eOK ∧ t.gb PYR.STAT_DBGDIV = true ∧ t.gb PYR.DBGCTL_EN = true
          ∧ (t.eng e).halted = x.testBit 0
          ∧ ((∀ st ∈ (s.eng e).steps, st.cur.fault = none) →
              (t.eng e).steps = (s.eng e).steps.map (fun st => { st with debug := true }))
          ∧ (∀ j : Fin 16, j.val ≠ e → t.engines[j] = s.engines[j])
          ∧ OnlyChanges [.regs, .engines, .tasks, .ev, .chans, .edges, .links, .own] s t)
      ∧ (on = true → x.testBit 16 = true → s.g PYR.DBGCTL_ENG = e → s.noStep →
        (x.testBit 0 = true → x.testBit 1 = false →
          Ends (.debugHalt w v) s fun t => t.wrCode = eOK ∧ (t.eng e).halted = true ∧ (t.eng e).steps = (s.eng e).steps
            ∧ OnlyChanges [.regs, .engines, .own] s t ∧ OnlyRegs [PYR.DBGCTL.addr 0] s t)
        ∧ (x.testBit 0 = false →
          Ends (.debugResume w v) s fun t => t.wrCode = eOK ∧ (t.eng e).halted = false ∧ (t.eng e).steps = (s.eng e).steps
            ∧ OnlyChanges [.regs, .engines, .own] s t ∧ OnlyRegs [PYR.DBGCTL.addr 0] s t)
        ∧ (∀ t0 pc len f, x.testBit 0 = true → x.testBit 1 = true → (s.eng e).halted = true → s.atFetch e = some (t0, pc) →
          t0.fetch pc = .ok (len, f) →
            Ends (.debugStep w v) s fun t => ∃ u, u.wrCode = eOK ∧ (u.eng e).halted = true ∧ (u.eng e).stepReq = false
              ∧ (u.eng e).steps = (s.eng e).steps ∧ OnlyChanges [.regs, .engines, .own] s u
              ∧ t = { State.instr e len f u with
                  engines := (State.instr e len f u).engines.map fun y => { y with stepReq := false } }))
      ∧ (on = true → x.testBit 16 = false → s.noStep →
        Ends (.debugDisable w v) s fun t => t.gb PYR.DBGCTL_EN = false ∧ (t.eng (s.g PYR.DBGCTL_ENG)).halted = false
          ∧ ∀ y ∈ s.tasks, y.dbgRan = true → t.task? y.id = none))
    ∧ (Accepted s w PYR.STAT 0 v n →
      Ends (.dbgdivClear w v) s fun t => t.wrCode = eOK
        ∧ t.gb PYR.STAT_DBGDIV = (s.gb PYR.STAT_DBGDIV && (on || !x.testBit 31))
        ∧ OnlyChanges [.regs, .own] s t ∧ OnlyRegs [PYR.STAT.addr 0] s t)
    ∧ (∀ a : Fin 8,
      (Accepted s w CTL.AXCFG a v n →
        (s.gb CTL.AXCFG_EN a = false → x.testBit 31 = true →
          Ends (.axisEnable w a v) s fun t => t.wrCode = eOK ∧ t.word CTL.AXCFG a = s.merged CTL.AXCFG a v ∧ t.axState a = 1
            ∧ OnlyChanges (.own :: reacting) s t)
        ∧ (s.gb CTL.AXCFG_EN a = true → x.testBit 31 = false →
          Ends (.axisDisable w a v) s fun t => t.wrCode = eOK ∧ t.word CTL.AXCFG a = s.merged CTL.AXCFG a v ∧ t.axState a = 0
            ∧ OnlyChanges (.own :: reacting) s t))
      ∧ (Accepted s w CTL.AXCMD a v n →
        (x = 1 → s.axState a = 1 →
          Ends (.axisStart w a v) s fun t => t.wrCode = eOK ∧ (t.axis a).startReq = true ∧ t.axState a = 1
            ∧ (∀ j : Fin 8, j ≠ a → t.axes[j] = s.axes[j]) ∧ OnlyChanges [.regs, .axes, .own] s t
            ∧ OnlyRegs [CTL.AXCMD.addr a] s t)
        ∧ (x = 2 → 2 ≤ s.axState a → s.axState a ≤ 6 →
          Ends (.axisStop w a v) s fun t => t.wrCode = eOK ∧ OnlyChanges (.own :: reacting) s t
            ∧ if s.axMay a 7 then t.axState a = 7 else t.axState a = s.axState a ∧ (t.axis a).stopReq = true)))

/-- R255, R263, R266, R267, R285, R290, R293, R297, R312, R392, R394: accepted writes of the gate, link, sensing,
position and store registers. SWFLT clears the latches written one; BRREL ends the demands it names; DCL.STAT clears
OVTRIP; DSCCMD starts a discharge at the link's voltage or ends it; RSTAT clears FAIL; RDBK starts a readback; enabling
a position port brings its count and speed to 0, and disabling it its compares; CMD = 1 arms the index; a compare takes
its value, and fires at once or is armed as its control says, unless its port is off; ZEROIZE clears the seeds, closes
the store and ends the session; FUSECMD raises the SVN floor by one, revokes a slot, or sets LIFE. -/
def Obligations.BlockWrites : Prop :=
  ∀ (s : State) (w : Who) (v : Word) (n : Fin 4),
    let x := v.toNat
    let nvAnswer := if s.sliceOn (.island 24) then eDEFERRED else eOK
    (∀ upper : Bool, Accepted s w (if upper then GATE.SWFLT1 else GATE.SWFLT0) 0 v n →
      Ends (.switchFaultClear w upper v) s fun t => t.wrCode = eOK ∧ OnlyChanges (.own :: reacting) s t
        ∧ ∀ i : Fin 48, t.latched i =
            (s.latched i && !(if upper then decide (32 ≤ i.val) && x.testBit (i.val - 32) else decide (i.val < 32) && x.testBit i)))
    ∧ (Accepted s w FBRK.BRREL 0 v n →
      Ends (.demandRelease w v) s fun t => t.wrCode = eOK ∧ OnlyChanges (.own :: reacting) s t
        ∧ ∀ k : Fin 8, x.testBit k = true → t.demanded k = false)
    ∧ (∀ l : Fin 4, Accepted s w DCL.STAT l v n → x.testBit 0 = true →
      Ends (.ovtripClear w l v) s fun t => t.wrCode = eOK ∧ t.gb DCL.STAT_OVTRIP l = false ∧ OnlyChanges [.regs, .own] s t
        ∧ OnlyRegs [DCL.STAT.addr l] s t)
    ∧ (Accepted s w DCL.DSCCMD 0 v n → s.dscAllowed = true → ∀ l : Fin 4,
      (x.testBit l = true → x.testBit (l.val + 4) = false → s.links[l].dsc = none →
        Ends (.dischargeGo w v) s fun t => t.wrCode = eOK ∧ OnlyChanges (.own :: reacting) s t
          ∧ ∃ d, t.links[l].dsc = some d ∧ d.since = s.tbase
          ∧ d.v0 = (s.vdc16 l).toNat)
      ∧ (x.testBit (l.val + 4) = true →
        Ends (.dischargeStop w v) s fun t => t.wrCode = eOK ∧ t.links[l].dsc = none ∧ OnlyChanges (.own :: reacting) s t))
    ∧ (Accepted s w DSM.RSTAT 0 v n →
      Ends (.plausibilityFailClear w v) s fun t => t.wrCode = eOK
        ∧ (∀ g : Fin 32, t.gbit DSM.RSTAT_FAIL 0 g = (s.gbit DSM.RSTAT_FAIL 0 g && !x.testBit g))
        ∧ OnlyChanges [.regs, .own] s t ∧ OnlyRegs [DSM.RSTAT.addr 0] s t)
    ∧ (Accepted s w CMP.RDBK 0 v n → s.gb CMP.RDBK_EN = false → x.testBit 31 = true → bits x 16 5 < 24 →
      Ends (.readbackStart w v) s fun t => t.wrCode = eOK ∧ t.gb CMP.RDBK_EN = true ∧ t.gb CMP.RDBK_DONE = false
        ∧ (t.cnv (bits x 16 5)).readback = true ∧ OnlyChanges [.regs, .conv, .own] s t ∧ OnlyRegs [CMP.RDBK.addr 0] s t)
    ∧ (∀ p : Fin 8,
      (Accepted s w POS.CFG p v n →
        (s.gb POS.CFG_EN p = false → x.testBit 31 = true →
          Ends (.portEnable w p v) s fun t => t.wrCode = eOK ∧ t.word POS.CFG p = s.merged POS.CFG p v ∧ t.word POS.CNT p = 0
            ∧ t.word POS.SPEED p = 0 ∧ t.gb POS.STAT_STILL p = true ∧ (t.port p).edges = []
            ∧ (t.port p).cntSet = (t.g POS.CFG_MODE p == 1 || t.g POS.CFG_MODE p == 2)
            ∧ OnlyChanges [.regs, .ev, .pos, .emu, .own] s t)
        ∧ (s.gb POS.CFG_EN p = true → x.testBit 31 = false →
          Ends (.portEnable w p v) s fun t => t.wrCode = eOK ∧ (t.port p).cntSet = false
            ∧ (∀ j : Fin 4, t.gb POS.CMPC_EN (4 * p.val + j.val) = false) ∧ OnlyChanges [.regs, .ev, .pos, .emu, .own] s t))
      ∧ (Accepted s w POS.CMD p v n → x = 1 →
        Ends (.indexArm w p v) s fun t => t.wrCode = eOK ∧ t.gb POS.STAT_ARMED p = true ∧ OnlyChanges [.regs, .own] s t
          ∧ OnlyRegs [POS.CMD.addr p, POS.STAT.addr p] s t)
      ∧ (∀ j : Fin 4,
        let k := 4 * p.val + j.val
        (Accepted s w POS.CMPV k v n →
          Ends (.compareWrite w p j false v) s fun t => t.wrCode = eOK ∧ t.word POS.CMPV k = v
            ∧ OnlyChanges [.regs, .ev, .own] s t)
        ∧ (Accepted s w POS.CMPC k v n → s.posMode p = 0 →
          Ends (.compareWrite w p j true v) s fun t => t.wrCode = eOK ∧ t.gb POS.CMPC_EN k = false ∧ t.word POS.CMPV k = s.word POS.CMPV k
            ∧ OnlyChanges [.regs, .own] s t)
        ∧ (Accepted s w POS.CMPC k v n → s.posMode p ≠ 0 → s.gb POS.CMPC_EN k = false → x.testBit 31 = true →
          Ends (.compareWrite w p j true v) s fun t => t.wrCode = eOK
            ∧ (if s.cmpBehind p j = true ∧ x.testBit 28 = true then
                 t.gb POS.CMPC_EN k = false ∧ t.gbit POS.STAT_CMPFIRED p j = true ∧ t.word POS.CMPTS k = BitVec.ofNat 32 s.tbase
               else t.gb POS.CMPC_EN k = true ∧ t.gbit POS.STAT_CMPBEHIND p j = s.cmpBehind p j)
            ∧ OnlyChanges [.regs, .ev, .own] s t)))
    ∧ (Accepted s w NVS.ZEROIZE 0 v n → x = 1 →
      Ends (.zeroize w v) s fun t => t.wrCode = nvAnswer ∧ t.gb NVS.KEYSTAT_ZERO = true ∧ t.gb NVS.KEYSTAT_CLOSED = true
        ∧ (∀ m : Fin 4, t.safe.seeds[m] = none) ∧ t.safe.sess = none ∧ OnlyChanges [.regs, .ev, .safe, .own] s t
        ∧ OnlyRegsOf [NVS.ZEROIZE, NVS.KEYSTAT, SAFE.SESS, SAFE.STAT] s t)
    ∧ (Accepted s w NVS.FUSECMD 0 v n →
      let fuses := fun (i : Instr) (f : Fuses) => Ends i s fun t => t.wrCode = nvAnswer ∧ t.fuses = f
        ∧ OnlyChanges [.regs, .fuses, .ev, .safe, .own] s t
      (bits x 30 2 = 1 → fuses (.fuseSvnup w v) { s.fuses with svnFloor := s.fuses.svnFloor + 1 })
      ∧ (bits x 30 2 = 2 → fuses (.fuseRevoke w v) { s.fuses with revoked := s.fuses.revoked ||| (1 <<< bits x 16 2) })
      ∧ (bits x 30 2 = 3 → fuses (.fuseLife w v) { s.fuses with life := BitVec.ofNat 3 x }))

/-! Safety functions. -/

/-- R334 to R338, R261: a demand of an STO input forces STO on every unit, and from RUN the KJ8 enters SAFE; its end clears
the status bit alone; a discrepancy latches STOFLT. A channel of a safe input takes its level outside a test window, and
its pair, if enabled, demands while one does or it is at fault; a window that saw no pulse, and a discrepancy, latch the
fault. -/
def Obligations.SafetyInputs : Prop :=
  ∀ (s : State) (b : Bool) (ch : Fin 16) (level : Bool) (k : Fin 8), s.up = true →
    let i := ch.val / 2
    let pairs := fun (t : State) => OnlyChanges [.regs, .ev, .links, .safe] s t ∧ OnlyRegsOf [FBRK.STAT, SAFE.SINST] s t
    let demands := fun (t : State) (i : Nat) =>
      t.gb SAFE.SINST_DEMAND i = (s.gb SAFE.SIN_EN i
        && (t.sinDemands (2 * i) || t.sinDemands (2 * i + 1) || t.gb SAFE.SINST_PAIRFLT i))
    (s.gb (stoBit b) = false →
      Ends (.stoInputDemand b) s fun t => t.gb (stoBit b) = true
        ∧ (∀ u : Fin 8, s.isUnit u = true → t.forcedSto u = true ∧ t.g FBRK.BRST_PAT u = 2)
        ∧ t.mode = (if s.mode = mRUN then mSAFE else s.mode) ∧ OnlyChanges enteringSafe s t)
    ∧ Ends (.stoInputRelease b) s (fun t => t.gb (stoBit b) = false ∧ OnlyChanges [.regs, .safe] s t
        ∧ OnlyRegs [SAFE.STAT.addr 0] s t)
    ∧ (s.gb (stoBit b) = true → s.gb (stoBit !b) = false →
      Ends (.stoDiscrepancy b) s fun t => t.gb SAFE.STAT_STOFLT = true ∧ t.safe.fltArm = 0 ∧ Raised 0xC1 2 s t
        ∧ OnlyChanges [.regs, .safe, .ev] s t ∧ OnlyRegs [SAFE.STAT.addr 0] s t)
    ∧ ((s.sinCh ch).window = false →
      Ends (.safeInputLevel ch level) s fun t => (t.sinCh ch).level = level ∧ demands t i
        ∧ t.gb (if ch.val % 2 = 0 then SAFE.SINST_LEVA else SAFE.SINST_LEVB) i = level
        ∧ (∀ j : Fin 16, j ≠ ch → t.safe.sin[j] = s.safe.sin[j]) ∧ pairs t)
    ∧ (s.tpoRuns k = true →
      Ends (.testPulseStart k) s fun t =>
        (∀ j : Fin 16, (t.sinCh j).window = ((s.sinCh j).window || (s.gb SAFE.SIN_EN (j.val / 2) && s.sinTpo j == k.val))
          ∧ (t.sinCh j).level = (s.sinCh j).level) ∧ OnlyChanges [.safe] s t)
    ∧ ((s.sinCh ch).window = true →
      Ends (.testPulseWindowEnd ch true) s (fun t => (t.sinCh ch).window = false ∧ (t.sinCh ch).level = (s.sinCh ch).level
        ∧ OnlyChanges [.safe] s t)
      ∧ (s.gb SAFE.SIN_EN i = true → s.gb SAFE.SINST_PAIRFLT i = false →
        Ends (.testPulseWindowEnd ch false) s fun t => t.gb SAFE.SINST_PAIRFLT i = true
          ∧ t.g SAFE.SINST_FCAUSE i = 2 + ch.val % 2 ∧ t.gb SAFE.SINST_DEMAND i = true ∧ pairs t))
    ∧ (s.gb SAFE.SIN_EN k = true → s.sinDemands (2 * k.val) ≠ s.sinDemands (2 * k.val + 1) → s.gb SAFE.SINST_PAIRFLT k = false →
      Ends (.safeInputDiscrepancy k) s fun t => t.gb SAFE.SINST_PAIRFLT k = true ∧ t.g SAFE.SINST_FCAUSE k = 1
        ∧ t.gb SAFE.SINST_DEMAND k = true ∧ pairs t)

/-- R339 to R343: a test of a safe output begins in its present state and ends with its readback: a fault latches its cause
and brings the axis into STO. A press of SRST of 0.1 s to 3 s is a safety reset, a longer one is not; a stuck button is
told. -/
def Obligations.SafetyOutputsAndReset : Prop :=
  ∀ (s : State) (j : Fin 4) (held : Nat), s.up = true →
    (s.safe.sout[j].test = none →
      Ends (.safeOutputTest j) s fun t => t.safe.sout[j].test = some (s.soutOn j)
        ∧ (∀ m : Fin 4, m ≠ j → t.safe.sout[m] = s.safe.sout[m]) ∧ OnlyChanges [.safe] s t)
    ∧ (∀ on, s.safe.sout[j].test = some on →
      Ends (.safeOutputTestEnd j .good) s (fun t => t.safe.sout[j].test = none
        ∧ (on = false → t.safe.sout[j].needDark = false) ∧ OnlyChanges [.safe] s t)
      ∧ ((on = true → s.soutDemand j = true) → s.gb SAFE.SOUTST_FLT j = false → ∀ r c,
          [(SoutReadback.cannotOpen, 1), (.pinLow, 2), (.darkFailed, 3)].contains (r, c) = true →
            Ends (.safeOutputTestEnd j r) s fun t => t.safe.sout[j].test = none ∧ t.gb SAFE.SOUTST_FLT j = true
              ∧ t.g SAFE.SOUTST_FCAUSE j = c ∧ t.gb SAFE.FST_STO (s.g SAFE.SOUT_AX j) = true
              ∧ OnlyChanges (.safe :: reacting) s t))
    ∧ Ends (.brakeDrop j) s (fun t => t.safe.sout[j].hold = false
        ∧ (∀ m : Fin 4, m ≠ j → t.safe.sout[m] = s.safe.sout[m]) ∧ OnlyChanges [.safe] s t)
    ∧ (s.gb SAFE.STAT_RSTSTUCK = false →
      (20000000 ≤ held → held ≤ 600000000 →
        Ends (.srstRelease held) s fun t => t.gb SAFE.STAT_RSTOK = true ∧ (∀ m : Fin 4, t.gb SAFE.SOUTST_FLT m = false)
          ∧ OnlyChanges (.safe :: reacting) s t)
      ∧ (600000000 < held → held < 2000000000 →
        Ends (.srstRelease held) s fun t => t.gb SAFE.STAT_RSTHELD = true ∧ Raised 0xC6 1 s t
          ∧ OnlyChanges [.regs, .ev] s t ∧ OnlyRegs [SAFE.STAT.addr 0] s t)
      ∧ Ends .srstStuck s fun t => t.gb SAFE.STAT_RSTSTUCK = true ∧ Raised 0xC6 2 s t ∧ OnlyChanges [.regs, .ev] s t
          ∧ OnlyRegs [SAFE.STAT.addr 0] s t)
    ∧ Ends .srstUnstuck s (fun t => t.gb SAFE.STAT_RSTSTUCK = false ∧ OnlyChanges [.regs] s t
        ∧ OnlyRegs [SAFE.STAT.addr 0] s t)

/-- R332, R344, R346, R416, R417: a monitor cycle brings the guarantee up to date, and an axis with its functions on
follows a demand of STO and counts the cycles without a plausible speed; the conditions of the guarantee follow what is
judged of supplies and die, and a die above 145 °C brings the KJ8 from RUN into SAFE. -/
def Obligations.SafetyMonitor : Prop :=
  ∀ (s : State) (a : Fin 8) (k : Fin 8) (out : Bool), s.up = true →
    let current := fun (t : State) => t.gb SAFE.STAT_GUAR = (t.gwhyNow == 0) ∧ t.g SAFE.STAT_GWHY = t.gwhyNow
    Ends .monitorCycle s (fun t => current t ∧ OnlyChanges enteringSafe s t
      ∧ (s.gb SAFE.FN_EN a = true →
          (t.safeAx a).bad = (if s.speedPlausible a then 0 else min 3 ((s.safeAx a).bad + 1))
          ∧ (s.stoDemand = true → t.gb SAFE.FST_STO a = true)))
    ∧ Ends (.supplyRangeChange k out) s (fun t => t.safe.condSupply.getLsbD k = out ∧ current t
        ∧ OnlyChanges [.regs, .ev, .safe] s t ∧ OnlyRegs [SAFE.STAT.addr 0] s t)
    ∧ Ends (.dieTemperature .above130) s (fun t => t.safe.condTemp = true ∧ current t
        ∧ OnlyChanges [.regs, .ev, .safe] s t ∧ OnlyRegs [SAFE.STAT.addr 0] s t)
    ∧ Ends (.dieTemperature .below128) s (fun t => t.safe.condTemp = false ∧ current t
        ∧ OnlyChanges [.regs, .ev, .safe] s t ∧ OnlyRegs [SAFE.STAT.addr 0] s t)
    ∧ (s.mode = mRUN → Ends (.dieTemperature .high145) s fun t => t.safe.hot = true ∧ t.mode = mSAFE ∧ OnlyChanges enteringSafe s t)
    ∧ (s.mode = mRUN → Ends (.dieTemperature .spread25) s fun t => t.safe.hot = s.safe.hot ∧ t.mode = mSAFE
        ∧ OnlyChanges enteringSafe s t)
    ∧ Ends (.dieTemperature .below125) s (fun t => t.safe.hot = false ∧ OnlyChanges [.safe] s t)

/-- R351 to R354: a good first copy of a PDU opens the window of its connection, and what it newly demands acts at once; an
equal second copy on the other network makes the PDU accepted, a different one is a fault; a window that ends alone is
accepted degraded; the degraded and the watchdog time end in a fault. A TX connection counts SEQ with every PDU, and its
copies leave on the networks that carry them (R379). All while NETW answers (R13). -/
def Obligations.SafetyPdus : Prop :=
  ∀ (s : State) (c : Fin 16) (second : Bool) (p : List Byte), s.netUp = true → s.gb SAFE.CONN_EN c = true →
    let x := s.conn c
    let seq := byteNat p 2 4
    let pay := fun (p : List Byte) => (p.drop 14).take 14
    let frame := fun (t : State) => OnlyChanges [.regs, .ev, .links, .safe] s t ∧ OnlyRegsOf [FBRK.STAT, SAFE.CST] s t
    let fault := fun (i : Instr) (cause : Nat) =>
      Ends i s fun t => t.gb SAFE.CST_FAULT c = true ∧ t.g SAFE.CST_FCAUSE c = cause ∧ (t.conn c).window = none ∧ frame t
    (s.gb SAFE.CONN_DIR c = false →
      (s.pduWellFormed c p = true →
        (x.window = none → x.newer seq = true →
          Ends (.pduCopyReceived c second p) s fun t => (t.conn c).window = some (seq, p.take 28, second, s.tbase)
            ∧ (t.conn c).early = earlyOf x.payload (pay p) ∧ (t.conn c).payload = x.payload ∧ frame t)
        ∧ (∀ first net tm, x.window = some (seq, first, net, tm) → net ≠ second →
          (p.take 28 = first →
            Ends (.pduCopyReceived c second p) s fun t => (t.conn c).payload = pay p ∧ (t.conn c).lastSeq = some seq
              ∧ (t.conn c).window = none ∧ (t.conn c).lastAcc = s.tbase ∧ (t.conn c).agree = x.agree + 1
              ∧ t.gb SAFE.CST_DEGR c = false ∧ t.gb SAFE.CST_OK c = true ∧ frame t)
          ∧ (p.take 28 ≠ first → fault (.pduCopyReceived c second p) 1)))
      ∧ (s.pduWellFormed c p = false →
        Ends (.pduCopyReceived c second p) s fun t => t.safe = s.safe
          ∧ t.g SAFE.CST_BADCNT c = min (2 ^ SAFE.CST_BADCNT.w - 1) (s.g SAFE.CST_BADCNT c + 1)
          ∧ OnlyChanges [.regs] s t ∧ OnlyRegs [SAFE.CST.addr c] s t)
      ∧ (∀ q first net tm, x.window = some (q, first, net, tm) →
        Ends (.pduWindowEnd c) s fun t => (t.conn c).payload = pay first ∧ (t.conn c).lastSeq = some q
          ∧ (t.conn c).window = none ∧ (t.conn c).agree = 0 ∧ t.gb SAFE.CST_DEGR c = true ∧ frame t)
      ∧ (s.gb SAFE.CST_DEGR c = true → fault (.pduDegradedTimeout c) 3)
      ∧ fault (.pduWatchdogTimeout c) 2)
    ∧ (s.gb SAFE.CONN_DIR c = true →
      Ends (.pduTransmit c) s fun t => (t.conn c).txSeq = x.txSeq + 1 ∧ (t.conn c).txLast = s.pduBytes c (x.txSeq + 1)
        ∧ (t.conn c).txCopies = s.pduCopies c (s.pduBytes c (x.txSeq + 1))
        ∧ (∀ j : Fin 16, j ≠ c → t.safe.conn[j] = s.safe.conn[j]) ∧ OnlyChanges [.safe] s t)

/-! Networks. -/

/-- R366, R367, R369 to R372, R375, R382: a frame that the first matching filter element of a CAN controller sends to
the receive ring or to the high-priority buffer goes there, and one that no element matches nowhere; one that the copies
disagree on only sets CMPERR; a sent entry is marked, stamped and leaves the transmit ring, and a failed one with
ONESHOT; errors set the counters, and bus-off ends with both at 0; a time master counts its cycle.
R376, R377, R382: a transmitted Ethernet frame is marked and stamped in its entry, which leaves the ring, and one that
the copies disagree on is marked as failed; a change of the link
is told; an MDIO transaction ends with the data of a read. -/
def Obligations.NetworkTraffic : Prop :=
  (
    ∀ (s : State) (c : Fin 4) (f : CanFrame), s.canOn c = true → s.g CAN.STAT_FCS c ≠ 2 →
      let qr := 21 + 2 * c.val
      let qt := 20 + 2 * c.val
      let hit := (List.range 64).find? fun k => s.canMatch c k f
      let act := fun (k : Nat) => s.g CAN.FLTCFG_ACT (64 * c.val + k)
      ((f.fdf = true → s.gb CAN.CFG_FDOE c = true) → f.cmpErr = false → s.canSafety c f = none → s.g CAN.TREF_ROLE c ≠ 2 →
        (∀ k, hit = some k → act k = 2 → s.gb QUE.QCFG_EN qr = true → s.qFull qr = false →
          Ends (.canFrameReceived c f) s fun t => t.word QUE.QTAIL qr = s.word QUE.QTAIL qr + 1
            ∧ bytesAt t.sram (s.qAddr qr (s.word QUE.QTAIL qr).toNat) 32 = wordBytes (canEntry f k false)
            ∧ OnlyChanges [.regs, .sram, .poison, .upsets] s t ∧ OnlyRegs [QUE.QTAIL.addr qr] s t)
        ∧ (∀ k, hit = some k → act k = 3 →
          Ends (.canFrameReceived c f) s fun t => t.gb CAN.STAT_HPNEW c = true
            ∧ t.word CAN.HPB (20 * c.val) = (canEntry f k false).getD 0 0
            ∧ t.g CAN.STAT_HPSEQ c = (s.g CAN.STAT_HPSEQ c + 1) % 64 ∧ Raised (0xD0 + c.val) k s t ∧ OnlyChanges [.regs, .ev] s t)
        ∧ (hit = none → s.gb CAN.CFG_NOMATCH c = false → Ends (.canFrameReceived c f) s fun t => t = s))
      ∧ ((f.fdf = true → s.gb CAN.CFG_FDOE c = true) → f.cmpErr = true →
        Ends (.canFrameReceived c f) s fun t => t.gb CAN.STAT_CMPERR c = true ∧ OnlyChanges [.regs] s t
          ∧ OnlyRegs [CAN.STAT.addr c] s t)
      ∧ (∀ i e stamp, s.netHead qt = some (i, e) → s.g CAN.CFG_MODE c ≠ 1 → s.g CAN.CFG_MODE c ≠ 3 → s.txBad c (s.txEntry c i e stamp) = false →
          let a := s.qAddr qt i
          Ends (.canTransmitComplete c (.sent stamp)) s fun t =>
            t.word QUE.QHEAD qt = s.word QUE.QHEAD qt + 1
            ∧ bits (wordAt t.sram (a + 4)).toNat 30 2 = 1 ∧ bytesAt t.sram (a + 8) 6 = leBytes 6 stamp
            ∧ (∀ z, (z < a + 4 ∨ a + 16 ≤ z) → byteAt t.sram z = byteAt s.sram z)
            ∧ t.can[c].txLast = some (s.txEntry c i e stamp).frame ∧ (∀ j : Fin 4, j ≠ c → t.can[j] = s.can[j])
            ∧ OnlyChanges [.regs, .sram, .poison, .upsets, .can] s t ∧ OnlyRegs [QUE.QHEAD.addr qt] s t)
      ∧ (∀ i e, s.netHead qt = some (i, e) → s.g CAN.CFG_MODE c ≠ 1 → s.txBad c (s.txEntry c i e 0) = false →
          let a := s.qAddr qt i
          (s.gb CAN.CFG_ONESHOT c = false → Ends (.canTransmitComplete c .failed) s fun t => t = s)
          ∧ (s.gb CAN.CFG_ONESHOT c = true →
            Ends (.canTransmitComplete c .failed) s fun t => t.word QUE.QHEAD qt = s.word QUE.QHEAD qt + 1
              ∧ bits (wordAt t.sram (a + 4)).toNat 30 2 = 2
              ∧ (∀ z, (z < a + 4 ∨ a + 8 ≤ z) → byteAt t.sram z = byteAt s.sram z)
              ∧ OnlyChanges [.regs, .sram, .poison, .upsets] s t ∧ OnlyRegs [QUE.QHEAD.addr qt] s t))
      ∧ (∀ k : CanError, s.g CAN.CFG_MODE c ≠ 2 → k.exception = false →
        Ends (.canBusError c k) s fun t => t.g CAN.STAT_TEC c = min 255 k.newTec ∧ t.g CAN.STAT_REC c = min 127 k.newRec
          ∧ t.g CAN.STAT_FCS c = (if 256 ≤ k.newTec then 2 else if 128 ≤ k.newTec ∨ 128 ≤ k.newRec then 1 else 0)
          ∧ t.g CAN.STAT_LEC c = k.lec.toNat ∧ OnlyChanges [.regs, .ev] s t ∧ OnlyRegs [CAN.STAT.addr c] s t)
      ∧ (∀ u : State, u.canOn c = true → u.g CAN.STAT_FCS c = 2 → u.gb CAN.CFG_AUTOREC c = true →
        Ends (.canBusOffRecovery c) u fun t => t.g CAN.STAT_FCS c = 0 ∧ t.g CAN.STAT_TEC c = 0 ∧ t.g CAN.STAT_REC c = 0
          ∧ OnlyChanges [.regs, .ev] u t ∧ OnlyRegs [CAN.STAT.addr c] u t)
      ∧ (∀ sent, s.g CAN.TREF_ROLE c = 1 →
        Ends (.timeReferenceSend c sent) s fun t => t.can[c].cycle = (s.can[c].cycle + 1) % 64
          ∧ t.can[c].refLast = [BitVec.ofNat 8 s.can[c].cycle, 0] ++ leBytes 6 (s.can[c].refSent.getD 0)
          ∧ (∀ j : Fin 4, j ≠ c → t.can[j] = s.can[j]) ∧ OnlyChanges [.can] s t)
  )
  ∧ (
    ∀ (s : State) (m : Fin 2) (stamp : Nat) (up : Bool) (spd : BitVec 2) (data : BitVec 16),
      let q := 16 + 2 * m.val
      (∀ i e, s.ethOn m = true → s.netHead q = some (i, e) → 14 ≤ bits (e.getD 0 0).toNat 0 11 →
        bits (e.getD 0 0).toNat 0 11 ≤ 1518 →
          let a := s.qAddr q i
          let len := bits (e.getD 0 0).toNat 0 11
          Ends (.ethTransmitComplete m (.sent stamp)) s (fun t => t.word QUE.QHEAD q = s.word QUE.QHEAD q + 1
            ∧ bits (wordAt t.sram a).toNat 28 2 = 1 ∧ bytesAt t.sram (a + 8) 6 = leBytes 6 stamp
            ∧ (∀ z, (z < a ∨ a + 16 ≤ z) → byteAt t.sram z = byteAt s.sram z)
            ∧ t.eth[m].txLast = bytesAt s.sram (s.netBuf q i) len ++ List.replicate (60 - len) 0
            ∧ OnlyChanges [.regs, .sram, .poison, .upsets, .eth] s t ∧ OnlyRegs [QUE.QHEAD.addr q] s t)
          ∧ Ends (.ethTransmitComplete m .cmpErr) s fun t => t.word QUE.QHEAD q = s.word QUE.QHEAD q + 1
            ∧ bits (wordAt t.sram a).toNat 28 2 = 2 ∧ t.gb ETH.STAT_CMPERR m = true
            ∧ (∀ z, (z < a ∨ a + 4 ≤ z) → byteAt t.sram z = byteAt s.sram z)
            ∧ OnlyChanges [.regs, .sram, .poison, .upsets] s t ∧ OnlyRegs [QUE.QHEAD.addr q, ETH.STAT.addr m] s t)
      ∧ (s.netUp = true →
        Ends (.ethLink m up spd) s fun t => t.gb ETH.STAT_LINK m = up ∧ t.g ETH.STAT_SPD m = spd.toNat
          ∧ (if s.gb ETH.STAT_LINK m = up then t.ev = s.ev else Raised 0xD8 (m.val + if up then 2 else 0) s t)
          ∧ OnlyChanges [.regs, .ev] s t ∧ OnlyRegs [ETH.STAT.addr m] s t)
      ∧ (s.gb ETH.MDIO_BUSY m = true →
        Ends (.mdioDone m data) s fun t => t.gb ETH.MDIO_BUSY m = false
          ∧ t.g ETH.MDIO_DATA m = (if s.eth[m].mdioWrite then s.g ETH.MDIO_DATA m else data.toNat)
          ∧ OnlyChanges [.regs] s t ∧ OnlyRegs [ETH.MDIO.addr m] s t)
  )

/-! Background. -/

/-- R32, R33, R37, R384 to R391, R393: a slice of a block that is no engine starts within the cap when its turn has
come, and one that ends well leaves the list and counts toward its block's slices, the last of all of them ending the
coverage cycle; scrubbing counts what it corrects, repairs what it corrects twice running, and poisons what it cannot,
or retires the engine of a local memory; a READ that meets a struck codeword corrects and counts it, or poisons it and
answers E_MEMCHK; a scan request is granted to a zeroized and closed part alone.
R397, R398, R400, R405: a wear estimate leaves the junction temperature of R397 in WTJ; the wear records are written one
page after the other; a subscribed signal passes its decimation into its stream; entries of the event log fill its
pages. -/
def Obligations.Background : Prop :=
  (
    ∀ (s : State) (b : SliceBlock) (r : SliceResult) (cw : Nat) (bit : BitVec 9) (struck : List (MemLoc × Nat)), s.up = true →
      (blockIsEngine b = false → s.percolates = true → chargeOf (b :: s.bgs.slices) ≤ s.g BGS.PWRCAP_CAP →
        s.bgs.slices.contains b = false → (blockIsOther b = true → s.bgs.slices.any blockIsOther = false) →
        s.sliceLeft (sliceIdx b) = true → s.sliceTurn b = true →
          ∃ t, exec (.sliceStart b) s = .next t ∧ t.bgs.slices = s.bgs.slices ++ [b] ∧ OnlyChanges [.regs, .bgs] s t)
      ∧ (s.bgs.slices.contains b = true → r.failed = false → blockIsEngine b = false → (∀ c, b ≠ .conv c) →
          let x := { s.bgs with slices := s.bgs.slices.filter (· != b), had := upd s.bgs.had (sliceIdx b) (· + 1) }
          ∃ t, exec (.sliceEnd b r) s = .next t ∧ OnlyChanges [.regs, .bgs] s t
            ∧ if (List.range 42).all (fun i => !State.sliceLeft { s with bgs := x } i) then
                t.bgs = { x with cycleStart := s.tbase, had := fillV 42 0, moved := [] }
                ∧ t.g BGS.STAT_CYCMS = min 4095 ((s.tbase - s.bgs.cycleStart) / 200000)
              else t.bgs = x)
      ∧ (s.mode ≠ mBOOT → s.scrubbed (.sram cw) = true →
        let loc := MemLoc.sram cw
        let m := memOf 18 0 (locPlace loc).2.2
        let left := fun (t : State) => t.upsets = (s.upsets ++ struck).filter fun x => x.1 != loc
        let counted := fun (t : State) => t.g SYS.MEMERR_CORR = min (2 ^ SYS.MEMERR_CORR.w - 1) (s.g SYS.MEMERR_CORR + 1)
          ∧ t.bgs.lastCorr.contains (loc, bit.toNat) = true
        (∃ t, exec (.scrubRead loc ⟨.clean, struck⟩) s = .next t ∧ left t ∧ (∀ x ∈ t.bgs.lastCorr, x.1 ≠ loc)
          ∧ OnlyChanges [.bgs, .upsets] s t)
        ∧ (s.bgs.lastCorr.contains (loc, bit.toNat) = false →
          ∃ t, exec (.scrubRead loc ⟨.corrected bit, struck⟩) s = .next t ∧ left t ∧ counted t
            ∧ OnlyChanges [.regs, .bgs, .upsets] s t ∧ OnlyRegs [SYS.MEMERR.addr 0] s t)
        ∧ (s.bgs.lastCorr.contains (loc, bit.toNat) = true → s.mapped m < 23 →
          ∃ t, exec (.scrubRead loc ⟨.corrected bit, struck⟩) s = .next t ∧ left t ∧ counted t ∧ Raised 0xE1 18 s t
            ∧ t.bgs.softRepairs = s.bgs.softRepairs ++ [m]
            ∧ t.g BGS.FAILCNT_CNT = min (2 ^ BGS.FAILCNT_CNT.w - 1) (s.g BGS.FAILCNT_CNT + 1)
            ∧ OnlyChanges [.regs, .bgs, .upsets, .ev, .nv] s t
            ∧ OnlyRegs [SYS.MEMERR.addr 0, BGS.FAILREC0.addr 0, BGS.FAILREC1.addr 0, BGS.FAILCNT.addr 0] s t)
        ∧ (s.poison.contains cw = false →
          ∃ t, exec (.scrubRead loc ⟨.uncorrectable, struck⟩) s = .next t ∧ left t ∧ t.poison = cw :: s.poison
            ∧ t.gb SYS.MEMERR_UNC = true ∧ Raised 0x0D (cw / 65536) s t
            ∧ OnlyChanges [.regs, .poison, .upsets, .ev] s t ∧ OnlyRegs [SYS.MEMERR.addr 0] s t))
      ∧ (∀ (e : Fin 16) (data : Bool) (c : Fin 8192), s.mode ≠ mBOOT → s.scrubbed (.localMem e data c) = true →
        s.dbgEngine ≠ some e.val →
          ∃ t, exec (.scrubRead (.localMem e data c) ⟨.uncorrectable, struck⟩) s = .next t ∧ t.gb SYS.MEMERR_UNC = true
            ∧ (s.gb SYS.MEMERR_UNC = false → t.gb SYS.MEMERR_ULOCAL = true ∧ t.g SYS.MEMERR_UBANK = e.val)
            ∧ (t.est e = eRETIRED ∨ t.est e = eDRAIN))
      ∧ (∀ (n : Fin 4) (tag : BitVec 8) (a : Word) (k : Nat), s.Ready n → s.mode ≠ mBOOT → s.upsets = [(.sram cw, k)] →
        a.toNat % 4 = 0 → a.toNat / 32 = cw → a.toNat < hostArea → freeArea a.toNat = false →
        (s.taken n 2 tag a [1]).readCode n a.toNat = eOK →
          (k ≤ 5 → ∃ t, exec (.read n tag a [1]) s = .next t ∧ t.answered n 2 tag eOK [wordAt s.sram a.toNat]
            ∧ t.upsets = [] ∧ t.g SYS.MEMERR_CORR = min (2 ^ SYS.MEMERR_CORR.w - 1) (s.g SYS.MEMERR_CORR + 1)
            ∧ OnlyChanges [.regs, .upsets, .ports, .ev, .own] s t)
          ∧ (5 < k → ∃ t, exec (.read n tag a [1]) s = .next t ∧ t.answered n 2 tag eMEMCHK [] ∧ t.upsets = []
            ∧ t.poison = cw :: s.poison ∧ t.gb SYS.MEMERR_UNC = true
            ∧ OnlyChanges [.regs, .upsets, .poison, .ports, .ev, .own] s t))
      ∧ (if s.gb NVS.KEYSTAT_ZERO = true ∧ s.gb NVS.KEYSTAT_CLOSED = true then
          ∃ t, exec (.scanRequest) s = .next t ∧ t.gb NVS.KEYSTAT_SCAN = true ∧ (s.mode = mRUN → t.mode = mSAFE) ∧ OnlyChanges enteringSafe s t
            ∧ ∀ u : Fin 8, s.isUnit u = true → t.forcedSto u = true
        else ∃ t, exec (.scanRequest) s = .next t ∧ t.gb NVS.KEYSTAT_SCANREF = true ∧ OnlyChanges [.regs] s t
            ∧ OnlyRegs [NVS.KEYSTAT.addr 0] s t)
  )
  ∧ (
    ∀ (s : State) (k : Fin 8) (x y : Word),
      (s.percolates = true → s.gb BGS.WCFG_EN k = true →
        ∃ t, exec (.wearEstimate k x y) s = .next t ∧ t.word BGS.WTJ k = s.wearTj k x y
          ∧ (∀ j : Fin 8, j ≠ k → t.bgs.wear[j] = s.bgs.wear[j] ∧ t.word BGS.WTJ j = s.word BGS.WTJ j)
          ∧ OnlyChanges [.regs, .ev, .bgs, .own] s t)
      ∧ (s.up = true → s.islandUp 24 = true →
        (∃ t, exec (.wearRecordSave) s = .next t ∧ t.nv.wearSeq = s.nv.wearSeq + 1 ∧ t.nv.wearPage = (s.nv.wearPage % 256 + 1) % 256
          ∧ t.nv.wearSaved = (List.range 8).map (fun k => (s.word BGS.WDMG k, at' s.bgs.wear k Wear.none))
          ∧ OnlyChanges [.nv, .own] s t)
        ∧ (s.nv.logPend ≠ [] →
          let a := nvBase 6 + 4096 * (s.nv.logPage % 1024)
          let body := (s.nv.logPend.take 128).flatten
          body.length ≤ 4096 →
            ∃ t, exec (.logPageWrite) s = .next t ∧ t.nv.logPend = s.nv.logPend.drop 128 ∧ t.nv.logSeq = s.nv.logSeq + 1
              ∧ bytesAt t.nv.bytes a body.length = body
              ∧ (∀ z, (z < a ∨ a + 4096 ≤ z) → byteAt t.nv.bytes z = byteAt s.nv.bytes z) ∧ OnlyChanges [.nv] s t))
      ∧ (∀ (st : Fin 4) (sig : BitVec 20) (v : Word) (g : Signal) (ty : Nat) (val : Word), s.percolates = true →
        s.streams[st].signals.find? (fun z => z.sig.toNat == sig.toNat) = some g → s.sigValue sig.toNat v = some (ty, val) →
          let q := 28 + st.val
          (g.seen + 1 < g.dec →
            ∃ t, exec (.telemetrySample st sig v) s = .next t ∧ OnlyChanges [.streams] s t
              ∧ ∃ z, z ∈ t.streams[st].signals ∧ z.sig.toNat = sig.toNat ∧ z.seen = g.seen + 1 ∧ z.count = g.count)
          ∧ (g.dec ≤ g.seen + 1 → s.gb QUE.QCFG_EN q = true → s.qFull q = false →
            ∃ t, exec (.telemetrySample st sig v) s = .next t ∧
              t.word QUE.QTAIL q = s.word QUE.QTAIL q + 1
              ∧ bytesAt t.sram (s.qAddr q (s.word QUE.QTAIL q).toNat) 16
                  = wordBytes [BitVec.ofNat 32 (ty * 2 ^ 30 + sig.toNat), val, BitVec.ofNat 32 s.tbase,
                      BitVec.ofNat 32 (g.count.toNat * 65536 + s.tbase / 2 ^ 32 % 65536)]
              ∧ (∃ z, z ∈ t.streams[st].signals ∧ z.sig.toNat = sig.toNat ∧ z.seen = 0 ∧ z.count = g.count + 1)
              ∧ OnlyChanges [.regs, .sram, .poison, .upsets, .streams] s t ∧ OnlyRegs [QUE.QTAIL.addr q] s t))
  )

/-! Supplies, resets, SLEEP, boot and islands. -/

/-- R2, R12, R46, R48, R64, R66, R374, R408: a power-on reset leaves the registers, the supplies, SRAM and the tasks as they
are at reset, in BOOT, and keeps the fuses, the NV store and the seeds; with all supplies good and REFIN in order BOOT
begins, else Canopy waits and tries again; VDDK failing is a power-on reset, VDDF failing takes the KJ8 back to the supply
ramp with its tasks gone and Canopy's clock and the fuses kept, any other supply failing leads from RUN to SAFE; a watched
source whose condition begins wakes the KJ8 from SLEEP with its index, and is latched while SLEEP is being entered. -/
def Obligations.PowerAndSleep : Prop :=
  ∀ (s : State) (refinOk xtal : Bool) (k : Fin 8) (i : Fin 23) (x : WakeInput),
    let reset := fun (t : State) => t.regs = [] ∧ t.pwr = State.reset.pwr ∧ t.mode = mBOOT ∧ t.tasks = [] ∧ t.sram = []
      ∧ t.fuses = s.fuses ∧ t.nv.bytes = s.nv.bytes ∧ t.nv.lines = s.nv.lines ∧ t.safe.seeds = s.safe.seeds
      ∧ t.pending = s.pending
    let latched := (s.wakeMeets i x).1 = true ∧ s.gbit CNPY.WATCH_EN 0 i = true
    (∃ t, exec .powerOnReset s = .next t ∧ reset t)
    ∧ (s.pwr.phase = .ramp →
      ∃ t, exec (.suppliesGood refinOk xtal) s = .next t ∧ t.pwr.good = 0xFF ∧ t.gb CNPY.STAT_XTAL = xtal
        ∧ (refinOk = true → t.pwr.phase = .running ∧ t.boot.step = 1 ∧ t.mode = s.mode)
        ∧ (refinOk = false → t.pwr.phase = .refinWait ∧ t.boot = s.boot))
    ∧ (s.pwr.phase = .refinWait →
      (∃ t, exec (.refinRetry true) s = .next t ∧ t.pwr.phase = .running ∧ t.boot.step = 1 ∧ t.boot.bistFail = s.boot.bistFail
        ∧ t.gb PYR.STAT_CANFAIL = false)
      ∧ ∃ t, exec (.refinRetry false) s = .next t ∧ t.pwr.phase = .refinWait ∧ t.pwr.refinOk = false ∧ OnlyChanges [.pwr] s t)
    ∧ (∃ t, exec (.supplyFail 0) s = .next t ∧ reset t)
    ∧ (s.pwr.phase ≠ .sleep → s.pwr.good.getLsbD 1 = true →
      ∃ t, exec (.supplyFail 1) s = .next t ∧ t.pwr.phase = .ramp ∧ t.pwr.good.getLsbD 1 = false
        ∧ t.gbit SYS.SUPPLY_UV 0 1 = true ∧ t.tasks = [] ∧ t.rtc = s.rtc ∧ t.fuses = s.fuses)
    ∧ (s.up = true → 2 ≤ k.val → s.pwr.good.getLsbD k = true →
      ∃ t, exec (.supplyFail k) s = .next t ∧ t.pwr.good.getLsbD k = false ∧ t.gbit SYS.SUPPLY_UV 0 k = true
        ∧ (s.mode = mRUN → t.mode = mSAFE) ∧ OnlyChanges enteringSafe s t)
    ∧ (s.pwr.phase = .sleep → latched →
      ∃ t, exec (.wakeSource ⟨i, x⟩) s = .next t ∧ t.pwr.waking = true ∧ t.boot.wakeRaise = some i ∧ t.g CNPY.WAKE_IDX = i.val
        ∧ t.gb CNPY.WAKE_VALID = true ∧ t.gb TIME.STAT_SLEPT = true ∧ t.mode = mBOOT ∧ t.g SYS.MODE_CAUSE = 1
        ∧ t.tbase = s.wakeTbase % 2 ^ 64)
    ∧ (s.up = true → latched → s.pwr.entering ≠ .idle → s.pwr.wakeLatch = none →
      ∃ t, exec (.wakeSource ⟨i, x⟩) s = .next t ∧ t.pwr.wakeLatch = some i ∧ OnlyChanges [.pwr] s t)
    ∧ (¬latched →
      ∃ t, exec (.wakeSource ⟨i, x⟩) s = .next t ∧ t.pwr.wakeActive.getLsbD i = (s.wakeMeets i x).2
        ∧ t.pwr.wakeLatch = s.pwr.wakeLatch ∧ OnlyChanges [.pwr] s t)

/-- R2, R49 to R52, R165: the boot steps: the fuses give the registers, and SCRAP ends boot there; the key store; memories
and engines out of service; logic BIST, whose failure outside the engines leads to SAFE; no image while NVST is closed; and
at the end, with no frame waiting, CONFIGURE, with the engines in service SPARE. -/
def Obligations.BootSteps : Prop :=
  ∀ (s : State) (r : BootResult), s.up = true →
    let i : Instr := .bootStepComplete r
    (s.boot.step = 1 → s.fuses.svnFloor < 64 → s.fuses.burned.length < 1024 →
      ∃ t, exec i s = .next t ∧ t.g SYS.BOOT_LIFE = s.fuses.life.toNat ∧ t.g SYS.BOOT_SVNFLOOR = s.fuses.svnFloor
        ∧ t.g NVS.FUSESTAT_REVOKED = s.fuses.revoked.toNat ∧ t.g NVS.FUSESTAT_REPUSED = s.fuses.burned.length
        ∧ t.boot.step = (if s.fuses.life = 0b111 then 7 else 2)
        ∧ (s.fuses.life = 0b111 → t.gb NVS.KEYSTAT_ZERO = true ∧ t.gb NVS.KEYSTAT_CLOSED = true))
    ∧ (s.boot.step = 2 →
      ∃ t, exec i s = .next t ∧ t.boot.step = 3 ∧ t.boot.zeroRaise = (s.fuses.life == 0b011)
        ∧ (s.fuses.life = 0b011 → t.gb NVS.KEYSTAT_ZERO = true ∧ ∀ n : Fin 4, t.safe.seeds[n] = none))
    ∧ (s.boot.step = 3 →
      ∃ t, exec i s = .next t ∧ t.boot.step = 4 ∧ t.g SYS.BOOTMEM_BANKOFF = (s.banksBad r).toNat
        ∧ (∀ e : Fin 16, t.gbit SYS.BOOTMEM_ENGOFF 0 e = (s.gbit SYS.BOOTMEM_ENGOFF 0 e || (s.enginesBad r).getLsbD e))
        ∧ t.bgs.softRepairs = s.bgs.softRepairs ++ r.defects.filter (fun m => !s.overDefect r m)
        ∧ OnlyChanges [.regs, .bgs, .ev, .boot] s t)
    ∧ (s.boot.step = 4 → r.logicBad = none →
      ∃ t, exec i s = .next t ∧ t.boot.step = 5
        ∧ (∀ e : Fin 16, t.gbit SYS.BOOTMEM_ENGOFF 0 e = (s.gbit SYS.BOOTMEM_ENGOFF 0 e || r.enginesBad.getLsbD e))
        ∧ OnlyChanges [.regs, .boot] s t ∧ OnlyRegs [SYS.BOOTMEM.addr 0] s t)
    ∧ (∀ b : Fin 26, s.boot.step = 4 → r.logicBad = some b → (b.val < 2 ∨ 17 < b.val) → s.mode = mBOOT →
      s.scrapped = false →
        ∃ t, exec i s = .next t ∧ t.boot.bistFail = true ∧ t.gb SYS.BOOT_BISTFAIL = true ∧ t.g SYS.BOOT_BISTISL = b.val
          ∧ t.mode = mSAFE ∧ t.g SYS.MODE_CAUSE = 5)
    ∧ (s.boot.step = 5 → s.gb NVS.KEYSTAT_CLOSED = true →
      ∃ t, exec i s = .next t ∧ t.boot.step = 6 ∧ t.g SYS.BOOT_IMG = 0 ∧ OnlyChanges [.regs, .boot] s t)
    ∧ (s.boot.step = 6 → s.mode = mBOOT → r.srstClosed = false → s.gb NVS.KEYSTAT_CLOSED = true →
      (∀ n : Fin 4, s.ports[n].cmds = []) →
        ∃ t, exec i s = .next t ∧ t.boot.step = 7 ∧ t.mode = mCONFIGURE ∧ t.g SYS.MODE_PREV = mBOOT
          ∧ t.gb SAFE.STAT_RSTOK = false
          ∧ ∀ e : Fin 16, t.est e = if s.gbit SYS.BOOTMEM_ENGOFF 0 e then eOFF else eSPARE)

/-- R11 to R14, R17 to R19, R24: a failed clock is told and its island's reaction follows: for Canopy RTCBAD alone, for the
controls the safe state and SAFE; a transfer that passes its checks goes on with its payload and its cause's stamp, one
that passes them when it is resent is counted as well, and one that fails twice fails the crossing, which is told with its
islands and is both their failure; the loss of REFIN and a broken TBASE lead from RUN to SAFE; a pad without its toggle
latches low at once. -/
def Obligations.Failures : Prop :=
  ∀ (s : State) (i j : Fin 26) (first resent : Transfer) (pad : Fin 60),
    (s.up = true →
      (∃ t, exec (.clockFailure i) s = .next t ∧ t.gbit SYS.ISLCLK_FAIL 0 i = true ∧ t.pwr.failed.getLsbD i = true
        ∧ (i.val = 0 → t.gb CNPY.STAT_RTCBAD = true ∧ OnlyChanges [.regs, .ev, .pwr] s t)
        ∧ OnlyChanges ([.sram, .poison, .upsets, .engines, .legs, .bgs] ++ enteringSafe) s t
        ∧ (i.val ∈ [1, 18, 19, 20, 21, 25] → s.mode = mRUN → t.mode = mSAFE ∧ t.pwr.fltCause = true))
      ∧ (s.xingLive i j = true →
        let key := xingKey i j
        let retries := fun (t : State) => t.g SYS.XSTAT_RETRIES = min (2 ^ SYS.XSTAT_RETRIES.w - 1) (s.g SYS.XSTAT_RETRIES + 1)
        let passed := fun (t : State) (x : Transfer) =>
          (xferKind x = 0 → assocGet t.xings key = some ⟨xferSeq x, xferData x, fullStamp (xferStamp16 x) s.tbase⟩)
          ∧ (xferKind x ≠ 0 → (assocGet t.xings key).map (·.seq) = some (xferSeq x))
          ∧ ∀ m, m ≠ key → assocGet t.xings m = assocGet s.xings m
        let failed := fun (t : State) => t.gb SYS.XSTAT_FAIL = true ∧ t.pwr.failed.getLsbD i = true
          ∧ t.pwr.failed.getLsbD j = true
          ∧ (s.gb SYS.XSTAT_FAIL = false → t.g SYS.XSTAT_SRC = i.val ∧ t.g SYS.XSTAT_DST = j.val)
        (∃ t, exec (.heartbeatTimeout i j) s = .next t ∧ failed t)
        ∧ (s.xferOk i j first = true →
          ∃ t, exec (.crossingFailure ⟨i, j⟩ ⟨first, resent⟩) s = .next t ∧ passed t first ∧ OnlyChanges [.xings] s t)
        ∧ (s.xferOk i j first = false → s.xferOk i j resent = true →
          ∃ t, exec (.crossingFailure ⟨i, j⟩ ⟨first, resent⟩) s = .next t ∧ passed t resent ∧ retries t
            ∧ OnlyChanges [.regs, .xings] s t ∧ OnlyRegs [SYS.XSTAT.addr 0] s t)
        ∧ (s.xferOk i j first = false → s.xferOk i j resent = false →
          ∃ t, exec (.crossingFailure ⟨i, j⟩ ⟨first, resent⟩) s = .next t ∧ failed t ∧ retries t ∧ t.xings = s.xings))
      ∧ (∃ t, exec (.tbaseErr i) s = .next t ∧ t.gb TIME.STAT_GRAYERR = true ∧ t.pwr.tbaseFault = true
          ∧ OnlyChanges enteringSafe s t ∧ (s.mode = mRUN → t.mode = mSAFE))
      ∧ ∃ t, exec .refLoss s = .next t ∧ t.pwr.refinOk = false ∧ t.gb TIME.STAT_REFLOSS = true
        ∧ (s.mode = mRUN → t.mode = mSAFE) ∧ OnlyChanges enteringSafe s t)
    ∧ (s.toggleRuns = true →
      ∃ t, exec (.padToggleLoss pad) s = .next t ∧ t.pwr.padLow.getLsbD pad = true
        ∧ (pad.val < 48 → t.padCmd pad = false)
        ∧ (∀ n : Fin 60, n ≠ pad → t.pwr.padLow.getLsbD n = s.pwr.padLow.getLsbD n) ∧ OnlyChanges [.pwr, .chans, .edges] s t)

/-! The whole machine. -/

/-- The command at the front of the queue runs on the rest of it; with none waiting, a tick passes (log entry 2). -/
def Obligations.StepRunsFront : Prop :=
  ∀ (s : State), (∀ c, step { s with pending := c :: s.pending } = exec c s) ∧ (s.pending = [] → step s = .next (tick s))

/-- R2, R40, R46: right after reset the machine is in BOOT and not up, in FIELD with SVN floor 0, no command waits, every
register word is its reset word, and the data are in canonical form (the contents of SRAM and the reset values no rule
gives are the model's choice: log entries 13, 93, 95 and 96). -/
def Obligations.ResetState : Prop :=
  State.reset.Wf ∧ State.reset.mode = mBOOT ∧ State.reset.up = false ∧ State.reset.fuses.life = 0b001
    ∧ State.reset.fuses.svnFloor = 0 ∧ State.reset.pending = []
    ∧ ∀ (r : Reg) (k : Nat), State.reset.word r k = BitVec.ofNat 32 (r.resetOf k)

/-- Every step keeps the canonical forms: SRAM and the NV store list no byte that reads 0 and list rising addresses, and
the register file lists rising addresses. -/
def Obligations.StepKeepsForm : Prop :=
  ∀ s t : State, s.Wf → step s = .next t → t.Wf

/-- Every command completes, and none touches the queue: a step takes exactly the command at its front. -/
def Obligations.StepKeepsQueue : Prop :=
  ∀ (c : Instr) (s : State), ∃ t, exec c s = .next t ∧ t.pending = s.pending

/-- R54, R394: fuses are never unburned: over every step the SVN floor does not fall, a revoked key slot stays revoked, the
repair entries burned do not become fewer, and the key hashes stay. -/
def Obligations.FusesOnlyBurn : Prop :=
  ∀ s t : State, step s = .next t →
    s.fuses.svnFloor ≤ t.fuses.svnFloor ∧ s.fuses.burned.length ≤ t.fuses.burned.length
    ∧ (∀ k : Fin 4, s.fuses.revoked.getLsbD k = true → t.fuses.revoked.getLsbD k = true)
    ∧ t.fuses.keyHash = s.fuses.keyHash
end

