-- ==== Sys2Proof/Laws/State.lean ====
section
/-! SUPPORT. What each shared update of the state leaves alone: one lemma per update and field. -/

namespace Sys2Proof.Machine

/-! `setWord`. -/
@[simp] theorem State.setWord_tbase (s : State) (r : Reg) (i : Nat) (v : Word) : (s.setWord r i v).tbase = s.tbase := rfl
@[simp] theorem State.setWord_rtc (s : State) (r : Reg) (i : Nat) (v : Word) : (s.setWord r i v).rtc = s.rtc := rfl
@[simp] theorem State.setWord_pwr (s : State) (r : Reg) (i : Nat) (v : Word) : (s.setWord r i v).pwr = s.pwr := rfl
@[simp] theorem State.setWord_boot (s : State) (r : Reg) (i : Nat) (v : Word) : (s.setWord r i v).boot = s.boot := rfl
@[simp] theorem State.setWord_fuses (s : State) (r : Reg) (i : Nat) (v : Word) : (s.setWord r i v).fuses = s.fuses := rfl
@[simp] theorem State.setWord_sram (s : State) (r : Reg) (i : Nat) (v : Word) : (s.setWord r i v).sram = s.sram := rfl
@[simp] theorem State.setWord_poison (s : State) (r : Reg) (i : Nat) (v : Word) : (s.setWord r i v).poison = s.poison := rfl
@[simp] theorem State.setWord_upsets (s : State) (r : Reg) (i : Nat) (v : Word) : (s.setWord r i v).upsets = s.upsets := rfl
@[simp] theorem State.setWord_xings (s : State) (r : Reg) (i : Nat) (v : Word) : (s.setWord r i v).xings = s.xings := rfl
@[simp] theorem State.setWord_localVer (s : State) (r : Reg) (i : Nat) (v : Word) : (s.setWord r i v).localVer = s.localVer := rfl
@[simp] theorem State.setWord_nv (s : State) (r : Reg) (i : Nat) (v : Word) : (s.setWord r i v).nv = s.nv := rfl
@[simp] theorem State.setWord_ports (s : State) (r : Reg) (i : Nat) (v : Word) : (s.setWord r i v).ports = s.ports := rfl
@[simp] theorem State.setWord_ops (s : State) (r : Reg) (i : Nat) (v : Word) : (s.setWord r i v).ops = s.ops := rfl
@[simp] theorem State.setWord_staging (s : State) (r : Reg) (i : Nat) (v : Word) : (s.setWord r i v).staging = s.staging := rfl
@[simp] theorem State.setWord_streams (s : State) (r : Reg) (i : Nat) (v : Word) : (s.setWord r i v).streams = s.streams := rfl
@[simp] theorem State.setWord_ev (s : State) (r : Reg) (i : Nat) (v : Word) : (s.setWord r i v).ev = s.ev := rfl
@[simp] theorem State.setWord_tasks (s : State) (r : Reg) (i : Nat) (v : Word) : (s.setWord r i v).tasks = s.tasks := rfl
@[simp] theorem State.setWord_engines (s : State) (r : Reg) (i : Nat) (v : Word) : (s.setWord r i v).engines = s.engines := rfl
@[simp] theorem State.setWord_pyr (s : State) (r : Reg) (i : Nat) (v : Word) : (s.setWord r i v).pyr = s.pyr := rfl
@[simp] theorem State.setWord_axes (s : State) (r : Reg) (i : Nat) (v : Word) : (s.setWord r i v).axes = s.axes := rfl
@[simp] theorem State.setWord_cmdin (s : State) (r : Reg) (i : Nat) (v : Word) : (s.setWord r i v).cmdin = s.cmdin := rfl
@[simp] theorem State.setWord_legs (s : State) (r : Reg) (i : Nat) (v : Word) : (s.setWord r i v).legs = s.legs := rfl
@[simp] theorem State.setWord_chans (s : State) (r : Reg) (i : Nat) (v : Word) : (s.setWord r i v).chans = s.chans := rfl
@[simp] theorem State.setWord_units (s : State) (r : Reg) (i : Nat) (v : Word) : (s.setWord r i v).units = s.units := rfl
@[simp] theorem State.setWord_edges (s : State) (r : Reg) (i : Nat) (v : Word) : (s.setWord r i v).edges = s.edges := rfl
@[simp] theorem State.setWord_links (s : State) (r : Reg) (i : Nat) (v : Word) : (s.setWord r i v).links = s.links := rfl
@[simp] theorem State.setWord_dsm (s : State) (r : Reg) (i : Nat) (v : Word) : (s.setWord r i v).dsm = s.dsm := rfl
@[simp] theorem State.setWord_conv (s : State) (r : Reg) (i : Nat) (v : Word) : (s.setWord r i v).conv = s.conv := rfl
@[simp] theorem State.setWord_comp (s : State) (r : Reg) (i : Nat) (v : Word) : (s.setWord r i v).comp = s.comp := rfl
@[simp] theorem State.setWord_plaus (s : State) (r : Reg) (i : Nat) (v : Word) : (s.setWord r i v).plaus = s.plaus := rfl
@[simp] theorem State.setWord_pos (s : State) (r : Reg) (i : Nat) (v : Word) : (s.setWord r i v).pos = s.pos := rfl
@[simp] theorem State.setWord_emu (s : State) (r : Reg) (i : Nat) (v : Word) : (s.setWord r i v).emu = s.emu := rfl
@[simp] theorem State.setWord_safe (s : State) (r : Reg) (i : Nat) (v : Word) : (s.setWord r i v).safe = s.safe := rfl
@[simp] theorem State.setWord_can (s : State) (r : Reg) (i : Nat) (v : Word) : (s.setWord r i v).can = s.can := rfl
@[simp] theorem State.setWord_eth (s : State) (r : Reg) (i : Nat) (v : Word) : (s.setWord r i v).eth = s.eth := rfl
@[simp] theorem State.setWord_bgs (s : State) (r : Reg) (i : Nat) (v : Word) : (s.setWord r i v).bgs = s.bgs := rfl
@[simp] theorem State.setWord_ptpHeld (s : State) (r : Reg) (i : Nat) (v : Word) : (s.setWord r i v).ptpHeld = s.ptpHeld := rfl
@[simp] theorem State.setWord_ptpOfs (s : State) (r : Reg) (i : Nat) (v : Word) : (s.setWord r i v).ptpOfs = s.ptpOfs := rfl
@[simp] theorem State.setWord_wrCode (s : State) (r : Reg) (i : Nat) (v : Word) : (s.setWord r i v).wrCode = s.wrCode := rfl
@[simp] theorem State.setWord_freeCtr (s : State) (r : Reg) (i : Nat) (v : Word) : (s.setWord r i v).freeCtr = s.freeCtr := rfl
@[simp] theorem State.setWord_pending (s : State) (r : Reg) (i : Nat) (v : Word) : (s.setWord r i v).pending = s.pending := rfl

/-! `p`. -/
@[simp] theorem State.p_tbase (s : State) (f : FRef) (i x : Nat) : (s.p f i x).tbase = s.tbase := rfl
@[simp] theorem State.p_rtc (s : State) (f : FRef) (i x : Nat) : (s.p f i x).rtc = s.rtc := rfl
@[simp] theorem State.p_pwr (s : State) (f : FRef) (i x : Nat) : (s.p f i x).pwr = s.pwr := rfl
@[simp] theorem State.p_boot (s : State) (f : FRef) (i x : Nat) : (s.p f i x).boot = s.boot := rfl
@[simp] theorem State.p_fuses (s : State) (f : FRef) (i x : Nat) : (s.p f i x).fuses = s.fuses := rfl
@[simp] theorem State.p_sram (s : State) (f : FRef) (i x : Nat) : (s.p f i x).sram = s.sram := rfl
@[simp] theorem State.p_poison (s : State) (f : FRef) (i x : Nat) : (s.p f i x).poison = s.poison := rfl
@[simp] theorem State.p_upsets (s : State) (f : FRef) (i x : Nat) : (s.p f i x).upsets = s.upsets := rfl
@[simp] theorem State.p_xings (s : State) (f : FRef) (i x : Nat) : (s.p f i x).xings = s.xings := rfl
@[simp] theorem State.p_localVer (s : State) (f : FRef) (i x : Nat) : (s.p f i x).localVer = s.localVer := rfl
@[simp] theorem State.p_nv (s : State) (f : FRef) (i x : Nat) : (s.p f i x).nv = s.nv := rfl
@[simp] theorem State.p_ports (s : State) (f : FRef) (i x : Nat) : (s.p f i x).ports = s.ports := rfl
@[simp] theorem State.p_ops (s : State) (f : FRef) (i x : Nat) : (s.p f i x).ops = s.ops := rfl
@[simp] theorem State.p_staging (s : State) (f : FRef) (i x : Nat) : (s.p f i x).staging = s.staging := rfl
@[simp] theorem State.p_streams (s : State) (f : FRef) (i x : Nat) : (s.p f i x).streams = s.streams := rfl
@[simp] theorem State.p_ev (s : State) (f : FRef) (i x : Nat) : (s.p f i x).ev = s.ev := rfl
@[simp] theorem State.p_tasks (s : State) (f : FRef) (i x : Nat) : (s.p f i x).tasks = s.tasks := rfl
@[simp] theorem State.p_engines (s : State) (f : FRef) (i x : Nat) : (s.p f i x).engines = s.engines := rfl
@[simp] theorem State.p_pyr (s : State) (f : FRef) (i x : Nat) : (s.p f i x).pyr = s.pyr := rfl
@[simp] theorem State.p_axes (s : State) (f : FRef) (i x : Nat) : (s.p f i x).axes = s.axes := rfl
@[simp] theorem State.p_cmdin (s : State) (f : FRef) (i x : Nat) : (s.p f i x).cmdin = s.cmdin := rfl
@[simp] theorem State.p_legs (s : State) (f : FRef) (i x : Nat) : (s.p f i x).legs = s.legs := rfl
@[simp] theorem State.p_chans (s : State) (f : FRef) (i x : Nat) : (s.p f i x).chans = s.chans := rfl
@[simp] theorem State.p_units (s : State) (f : FRef) (i x : Nat) : (s.p f i x).units = s.units := rfl
@[simp] theorem State.p_edges (s : State) (f : FRef) (i x : Nat) : (s.p f i x).edges = s.edges := rfl
@[simp] theorem State.p_links (s : State) (f : FRef) (i x : Nat) : (s.p f i x).links = s.links := rfl
@[simp] theorem State.p_dsm (s : State) (f : FRef) (i x : Nat) : (s.p f i x).dsm = s.dsm := rfl
@[simp] theorem State.p_conv (s : State) (f : FRef) (i x : Nat) : (s.p f i x).conv = s.conv := rfl
@[simp] theorem State.p_comp (s : State) (f : FRef) (i x : Nat) : (s.p f i x).comp = s.comp := rfl
@[simp] theorem State.p_plaus (s : State) (f : FRef) (i x : Nat) : (s.p f i x).plaus = s.plaus := rfl
@[simp] theorem State.p_pos (s : State) (f : FRef) (i x : Nat) : (s.p f i x).pos = s.pos := rfl
@[simp] theorem State.p_emu (s : State) (f : FRef) (i x : Nat) : (s.p f i x).emu = s.emu := rfl
@[simp] theorem State.p_safe (s : State) (f : FRef) (i x : Nat) : (s.p f i x).safe = s.safe := rfl
@[simp] theorem State.p_can (s : State) (f : FRef) (i x : Nat) : (s.p f i x).can = s.can := rfl
@[simp] theorem State.p_eth (s : State) (f : FRef) (i x : Nat) : (s.p f i x).eth = s.eth := rfl
@[simp] theorem State.p_bgs (s : State) (f : FRef) (i x : Nat) : (s.p f i x).bgs = s.bgs := rfl
@[simp] theorem State.p_ptpHeld (s : State) (f : FRef) (i x : Nat) : (s.p f i x).ptpHeld = s.ptpHeld := rfl
@[simp] theorem State.p_ptpOfs (s : State) (f : FRef) (i x : Nat) : (s.p f i x).ptpOfs = s.ptpOfs := rfl
@[simp] theorem State.p_wrCode (s : State) (f : FRef) (i x : Nat) : (s.p f i x).wrCode = s.wrCode := rfl
@[simp] theorem State.p_freeCtr (s : State) (f : FRef) (i x : Nat) : (s.p f i x).freeCtr = s.freeCtr := rfl
@[simp] theorem State.p_pending (s : State) (f : FRef) (i x : Nat) : (s.p f i x).pending = s.pending := rfl

/-! `pb`. -/
@[simp] theorem State.pb_tbase (s : State) (f : FRef) (i : Nat) (b : Bool) : (s.pb f i b).tbase = s.tbase := rfl
@[simp] theorem State.pb_rtc (s : State) (f : FRef) (i : Nat) (b : Bool) : (s.pb f i b).rtc = s.rtc := rfl
@[simp] theorem State.pb_pwr (s : State) (f : FRef) (i : Nat) (b : Bool) : (s.pb f i b).pwr = s.pwr := rfl
@[simp] theorem State.pb_boot (s : State) (f : FRef) (i : Nat) (b : Bool) : (s.pb f i b).boot = s.boot := rfl
@[simp] theorem State.pb_fuses (s : State) (f : FRef) (i : Nat) (b : Bool) : (s.pb f i b).fuses = s.fuses := rfl
@[simp] theorem State.pb_sram (s : State) (f : FRef) (i : Nat) (b : Bool) : (s.pb f i b).sram = s.sram := rfl
@[simp] theorem State.pb_poison (s : State) (f : FRef) (i : Nat) (b : Bool) : (s.pb f i b).poison = s.poison := rfl
@[simp] theorem State.pb_upsets (s : State) (f : FRef) (i : Nat) (b : Bool) : (s.pb f i b).upsets = s.upsets := rfl
@[simp] theorem State.pb_xings (s : State) (f : FRef) (i : Nat) (b : Bool) : (s.pb f i b).xings = s.xings := rfl
@[simp] theorem State.pb_localVer (s : State) (f : FRef) (i : Nat) (b : Bool) : (s.pb f i b).localVer = s.localVer := rfl
@[simp] theorem State.pb_nv (s : State) (f : FRef) (i : Nat) (b : Bool) : (s.pb f i b).nv = s.nv := rfl
@[simp] theorem State.pb_ports (s : State) (f : FRef) (i : Nat) (b : Bool) : (s.pb f i b).ports = s.ports := rfl
@[simp] theorem State.pb_ops (s : State) (f : FRef) (i : Nat) (b : Bool) : (s.pb f i b).ops = s.ops := rfl
@[simp] theorem State.pb_staging (s : State) (f : FRef) (i : Nat) (b : Bool) : (s.pb f i b).staging = s.staging := rfl
@[simp] theorem State.pb_streams (s : State) (f : FRef) (i : Nat) (b : Bool) : (s.pb f i b).streams = s.streams := rfl
@[simp] theorem State.pb_ev (s : State) (f : FRef) (i : Nat) (b : Bool) : (s.pb f i b).ev = s.ev := rfl
@[simp] theorem State.pb_tasks (s : State) (f : FRef) (i : Nat) (b : Bool) : (s.pb f i b).tasks = s.tasks := rfl
@[simp] theorem State.pb_engines (s : State) (f : FRef) (i : Nat) (b : Bool) : (s.pb f i b).engines = s.engines := rfl
@[simp] theorem State.pb_pyr (s : State) (f : FRef) (i : Nat) (b : Bool) : (s.pb f i b).pyr = s.pyr := rfl
@[simp] theorem State.pb_axes (s : State) (f : FRef) (i : Nat) (b : Bool) : (s.pb f i b).axes = s.axes := rfl
@[simp] theorem State.pb_cmdin (s : State) (f : FRef) (i : Nat) (b : Bool) : (s.pb f i b).cmdin = s.cmdin := rfl
@[simp] theorem State.pb_legs (s : State) (f : FRef) (i : Nat) (b : Bool) : (s.pb f i b).legs = s.legs := rfl
@[simp] theorem State.pb_chans (s : State) (f : FRef) (i : Nat) (b : Bool) : (s.pb f i b).chans = s.chans := rfl
@[simp] theorem State.pb_units (s : State) (f : FRef) (i : Nat) (b : Bool) : (s.pb f i b).units = s.units := rfl
@[simp] theorem State.pb_edges (s : State) (f : FRef) (i : Nat) (b : Bool) : (s.pb f i b).edges = s.edges := rfl
@[simp] theorem State.pb_links (s : State) (f : FRef) (i : Nat) (b : Bool) : (s.pb f i b).links = s.links := rfl
@[simp] theorem State.pb_dsm (s : State) (f : FRef) (i : Nat) (b : Bool) : (s.pb f i b).dsm = s.dsm := rfl
@[simp] theorem State.pb_conv (s : State) (f : FRef) (i : Nat) (b : Bool) : (s.pb f i b).conv = s.conv := rfl
@[simp] theorem State.pb_comp (s : State) (f : FRef) (i : Nat) (b : Bool) : (s.pb f i b).comp = s.comp := rfl
@[simp] theorem State.pb_plaus (s : State) (f : FRef) (i : Nat) (b : Bool) : (s.pb f i b).plaus = s.plaus := rfl
@[simp] theorem State.pb_pos (s : State) (f : FRef) (i : Nat) (b : Bool) : (s.pb f i b).pos = s.pos := rfl
@[simp] theorem State.pb_emu (s : State) (f : FRef) (i : Nat) (b : Bool) : (s.pb f i b).emu = s.emu := rfl
@[simp] theorem State.pb_safe (s : State) (f : FRef) (i : Nat) (b : Bool) : (s.pb f i b).safe = s.safe := rfl
@[simp] theorem State.pb_can (s : State) (f : FRef) (i : Nat) (b : Bool) : (s.pb f i b).can = s.can := rfl
@[simp] theorem State.pb_eth (s : State) (f : FRef) (i : Nat) (b : Bool) : (s.pb f i b).eth = s.eth := rfl
@[simp] theorem State.pb_bgs (s : State) (f : FRef) (i : Nat) (b : Bool) : (s.pb f i b).bgs = s.bgs := rfl
@[simp] theorem State.pb_ptpHeld (s : State) (f : FRef) (i : Nat) (b : Bool) : (s.pb f i b).ptpHeld = s.ptpHeld := rfl
@[simp] theorem State.pb_ptpOfs (s : State) (f : FRef) (i : Nat) (b : Bool) : (s.pb f i b).ptpOfs = s.ptpOfs := rfl
@[simp] theorem State.pb_wrCode (s : State) (f : FRef) (i : Nat) (b : Bool) : (s.pb f i b).wrCode = s.wrCode := rfl
@[simp] theorem State.pb_freeCtr (s : State) (f : FRef) (i : Nat) (b : Bool) : (s.pb f i b).freeCtr = s.freeCtr := rfl
@[simp] theorem State.pb_pending (s : State) (f : FRef) (i : Nat) (b : Bool) : (s.pb f i b).pending = s.pending := rfl

/-! `inc`. -/
@[simp] theorem State.inc_tbase (s : State) (f : FRef) (i n : Nat) : (s.inc f i n).tbase = s.tbase := rfl
@[simp] theorem State.inc_rtc (s : State) (f : FRef) (i n : Nat) : (s.inc f i n).rtc = s.rtc := rfl
@[simp] theorem State.inc_pwr (s : State) (f : FRef) (i n : Nat) : (s.inc f i n).pwr = s.pwr := rfl
@[simp] theorem State.inc_boot (s : State) (f : FRef) (i n : Nat) : (s.inc f i n).boot = s.boot := rfl
@[simp] theorem State.inc_fuses (s : State) (f : FRef) (i n : Nat) : (s.inc f i n).fuses = s.fuses := rfl
@[simp] theorem State.inc_sram (s : State) (f : FRef) (i n : Nat) : (s.inc f i n).sram = s.sram := rfl
@[simp] theorem State.inc_poison (s : State) (f : FRef) (i n : Nat) : (s.inc f i n).poison = s.poison := rfl
@[simp] theorem State.inc_upsets (s : State) (f : FRef) (i n : Nat) : (s.inc f i n).upsets = s.upsets := rfl
@[simp] theorem State.inc_xings (s : State) (f : FRef) (i n : Nat) : (s.inc f i n).xings = s.xings := rfl
@[simp] theorem State.inc_localVer (s : State) (f : FRef) (i n : Nat) : (s.inc f i n).localVer = s.localVer := rfl
@[simp] theorem State.inc_nv (s : State) (f : FRef) (i n : Nat) : (s.inc f i n).nv = s.nv := rfl
@[simp] theorem State.inc_ports (s : State) (f : FRef) (i n : Nat) : (s.inc f i n).ports = s.ports := rfl
@[simp] theorem State.inc_ops (s : State) (f : FRef) (i n : Nat) : (s.inc f i n).ops = s.ops := rfl
@[simp] theorem State.inc_staging (s : State) (f : FRef) (i n : Nat) : (s.inc f i n).staging = s.staging := rfl
@[simp] theorem State.inc_streams (s : State) (f : FRef) (i n : Nat) : (s.inc f i n).streams = s.streams := rfl
@[simp] theorem State.inc_ev (s : State) (f : FRef) (i n : Nat) : (s.inc f i n).ev = s.ev := rfl
@[simp] theorem State.inc_tasks (s : State) (f : FRef) (i n : Nat) : (s.inc f i n).tasks = s.tasks := rfl
@[simp] theorem State.inc_engines (s : State) (f : FRef) (i n : Nat) : (s.inc f i n).engines = s.engines := rfl
@[simp] theorem State.inc_pyr (s : State) (f : FRef) (i n : Nat) : (s.inc f i n).pyr = s.pyr := rfl
@[simp] theorem State.inc_axes (s : State) (f : FRef) (i n : Nat) : (s.inc f i n).axes = s.axes := rfl
@[simp] theorem State.inc_cmdin (s : State) (f : FRef) (i n : Nat) : (s.inc f i n).cmdin = s.cmdin := rfl
@[simp] theorem State.inc_legs (s : State) (f : FRef) (i n : Nat) : (s.inc f i n).legs = s.legs := rfl
@[simp] theorem State.inc_chans (s : State) (f : FRef) (i n : Nat) : (s.inc f i n).chans = s.chans := rfl
@[simp] theorem State.inc_units (s : State) (f : FRef) (i n : Nat) : (s.inc f i n).units = s.units := rfl
@[simp] theorem State.inc_edges (s : State) (f : FRef) (i n : Nat) : (s.inc f i n).edges = s.edges := rfl
@[simp] theorem State.inc_links (s : State) (f : FRef) (i n : Nat) : (s.inc f i n).links = s.links := rfl
@[simp] theorem State.inc_dsm (s : State) (f : FRef) (i n : Nat) : (s.inc f i n).dsm = s.dsm := rfl
@[simp] theorem State.inc_conv (s : State) (f : FRef) (i n : Nat) : (s.inc f i n).conv = s.conv := rfl
@[simp] theorem State.inc_comp (s : State) (f : FRef) (i n : Nat) : (s.inc f i n).comp = s.comp := rfl
@[simp] theorem State.inc_plaus (s : State) (f : FRef) (i n : Nat) : (s.inc f i n).plaus = s.plaus := rfl
@[simp] theorem State.inc_pos (s : State) (f : FRef) (i n : Nat) : (s.inc f i n).pos = s.pos := rfl
@[simp] theorem State.inc_emu (s : State) (f : FRef) (i n : Nat) : (s.inc f i n).emu = s.emu := rfl
@[simp] theorem State.inc_safe (s : State) (f : FRef) (i n : Nat) : (s.inc f i n).safe = s.safe := rfl
@[simp] theorem State.inc_can (s : State) (f : FRef) (i n : Nat) : (s.inc f i n).can = s.can := rfl
@[simp] theorem State.inc_eth (s : State) (f : FRef) (i n : Nat) : (s.inc f i n).eth = s.eth := rfl
@[simp] theorem State.inc_bgs (s : State) (f : FRef) (i n : Nat) : (s.inc f i n).bgs = s.bgs := rfl
@[simp] theorem State.inc_ptpHeld (s : State) (f : FRef) (i n : Nat) : (s.inc f i n).ptpHeld = s.ptpHeld := rfl
@[simp] theorem State.inc_ptpOfs (s : State) (f : FRef) (i n : Nat) : (s.inc f i n).ptpOfs = s.ptpOfs := rfl
@[simp] theorem State.inc_wrCode (s : State) (f : FRef) (i n : Nat) : (s.inc f i n).wrCode = s.wrCode := rfl
@[simp] theorem State.inc_freeCtr (s : State) (f : FRef) (i n : Nat) : (s.inc f i n).freeCtr = s.freeCtr := rfl
@[simp] theorem State.inc_pending (s : State) (f : FRef) (i n : Nat) : (s.inc f i n).pending = s.pending := rfl

/-! `pbit`. -/
@[simp] theorem State.pbit_tbase (s : State) (f : FRef) (i j : Nat) (b : Bool) : (s.pbit f i j b).tbase = s.tbase := rfl
@[simp] theorem State.pbit_rtc (s : State) (f : FRef) (i j : Nat) (b : Bool) : (s.pbit f i j b).rtc = s.rtc := rfl
@[simp] theorem State.pbit_pwr (s : State) (f : FRef) (i j : Nat) (b : Bool) : (s.pbit f i j b).pwr = s.pwr := rfl
@[simp] theorem State.pbit_boot (s : State) (f : FRef) (i j : Nat) (b : Bool) : (s.pbit f i j b).boot = s.boot := rfl
@[simp] theorem State.pbit_fuses (s : State) (f : FRef) (i j : Nat) (b : Bool) : (s.pbit f i j b).fuses = s.fuses := rfl
@[simp] theorem State.pbit_sram (s : State) (f : FRef) (i j : Nat) (b : Bool) : (s.pbit f i j b).sram = s.sram := rfl
@[simp] theorem State.pbit_poison (s : State) (f : FRef) (i j : Nat) (b : Bool) : (s.pbit f i j b).poison = s.poison := rfl
@[simp] theorem State.pbit_upsets (s : State) (f : FRef) (i j : Nat) (b : Bool) : (s.pbit f i j b).upsets = s.upsets := rfl
@[simp] theorem State.pbit_xings (s : State) (f : FRef) (i j : Nat) (b : Bool) : (s.pbit f i j b).xings = s.xings := rfl
@[simp] theorem State.pbit_localVer (s : State) (f : FRef) (i j : Nat) (b : Bool) : (s.pbit f i j b).localVer = s.localVer := rfl
@[simp] theorem State.pbit_nv (s : State) (f : FRef) (i j : Nat) (b : Bool) : (s.pbit f i j b).nv = s.nv := rfl
@[simp] theorem State.pbit_ports (s : State) (f : FRef) (i j : Nat) (b : Bool) : (s.pbit f i j b).ports = s.ports := rfl
@[simp] theorem State.pbit_ops (s : State) (f : FRef) (i j : Nat) (b : Bool) : (s.pbit f i j b).ops = s.ops := rfl
@[simp] theorem State.pbit_staging (s : State) (f : FRef) (i j : Nat) (b : Bool) : (s.pbit f i j b).staging = s.staging := rfl
@[simp] theorem State.pbit_streams (s : State) (f : FRef) (i j : Nat) (b : Bool) : (s.pbit f i j b).streams = s.streams := rfl
@[simp] theorem State.pbit_ev (s : State) (f : FRef) (i j : Nat) (b : Bool) : (s.pbit f i j b).ev = s.ev := rfl
@[simp] theorem State.pbit_tasks (s : State) (f : FRef) (i j : Nat) (b : Bool) : (s.pbit f i j b).tasks = s.tasks := rfl
@[simp] theorem State.pbit_engines (s : State) (f : FRef) (i j : Nat) (b : Bool) : (s.pbit f i j b).engines = s.engines := rfl
@[simp] theorem State.pbit_pyr (s : State) (f : FRef) (i j : Nat) (b : Bool) : (s.pbit f i j b).pyr = s.pyr := rfl
@[simp] theorem State.pbit_axes (s : State) (f : FRef) (i j : Nat) (b : Bool) : (s.pbit f i j b).axes = s.axes := rfl
@[simp] theorem State.pbit_cmdin (s : State) (f : FRef) (i j : Nat) (b : Bool) : (s.pbit f i j b).cmdin = s.cmdin := rfl
@[simp] theorem State.pbit_legs (s : State) (f : FRef) (i j : Nat) (b : Bool) : (s.pbit f i j b).legs = s.legs := rfl
@[simp] theorem State.pbit_chans (s : State) (f : FRef) (i j : Nat) (b : Bool) : (s.pbit f i j b).chans = s.chans := rfl
@[simp] theorem State.pbit_units (s : State) (f : FRef) (i j : Nat) (b : Bool) : (s.pbit f i j b).units = s.units := rfl
@[simp] theorem State.pbit_edges (s : State) (f : FRef) (i j : Nat) (b : Bool) : (s.pbit f i j b).edges = s.edges := rfl
@[simp] theorem State.pbit_links (s : State) (f : FRef) (i j : Nat) (b : Bool) : (s.pbit f i j b).links = s.links := rfl
@[simp] theorem State.pbit_dsm (s : State) (f : FRef) (i j : Nat) (b : Bool) : (s.pbit f i j b).dsm = s.dsm := rfl
@[simp] theorem State.pbit_conv (s : State) (f : FRef) (i j : Nat) (b : Bool) : (s.pbit f i j b).conv = s.conv := rfl
@[simp] theorem State.pbit_comp (s : State) (f : FRef) (i j : Nat) (b : Bool) : (s.pbit f i j b).comp = s.comp := rfl
@[simp] theorem State.pbit_plaus (s : State) (f : FRef) (i j : Nat) (b : Bool) : (s.pbit f i j b).plaus = s.plaus := rfl
@[simp] theorem State.pbit_pos (s : State) (f : FRef) (i j : Nat) (b : Bool) : (s.pbit f i j b).pos = s.pos := rfl
@[simp] theorem State.pbit_emu (s : State) (f : FRef) (i j : Nat) (b : Bool) : (s.pbit f i j b).emu = s.emu := rfl
@[simp] theorem State.pbit_safe (s : State) (f : FRef) (i j : Nat) (b : Bool) : (s.pbit f i j b).safe = s.safe := rfl
@[simp] theorem State.pbit_can (s : State) (f : FRef) (i j : Nat) (b : Bool) : (s.pbit f i j b).can = s.can := rfl
@[simp] theorem State.pbit_eth (s : State) (f : FRef) (i j : Nat) (b : Bool) : (s.pbit f i j b).eth = s.eth := rfl
@[simp] theorem State.pbit_bgs (s : State) (f : FRef) (i j : Nat) (b : Bool) : (s.pbit f i j b).bgs = s.bgs := rfl
@[simp] theorem State.pbit_ptpHeld (s : State) (f : FRef) (i j : Nat) (b : Bool) : (s.pbit f i j b).ptpHeld = s.ptpHeld := rfl
@[simp] theorem State.pbit_ptpOfs (s : State) (f : FRef) (i j : Nat) (b : Bool) : (s.pbit f i j b).ptpOfs = s.ptpOfs := rfl
@[simp] theorem State.pbit_wrCode (s : State) (f : FRef) (i j : Nat) (b : Bool) : (s.pbit f i j b).wrCode = s.wrCode := rfl
@[simp] theorem State.pbit_freeCtr (s : State) (f : FRef) (i j : Nat) (b : Bool) : (s.pbit f i j b).freeCtr = s.freeCtr := rfl
@[simp] theorem State.pbit_pending (s : State) (f : FRef) (i j : Nat) (b : Bool) : (s.pbit f i j b).pending = s.pending := rfl

/-! `used`. -/
@[simp] theorem State.used_regs (s : State)  : (s.used).regs = s.regs := rfl
@[simp] theorem State.used_tbase (s : State)  : (s.used).tbase = s.tbase := rfl
@[simp] theorem State.used_rtc (s : State)  : (s.used).rtc = s.rtc := rfl
@[simp] theorem State.used_pwr (s : State)  : (s.used).pwr = s.pwr := rfl
@[simp] theorem State.used_boot (s : State)  : (s.used).boot = s.boot := rfl
@[simp] theorem State.used_fuses (s : State)  : (s.used).fuses = s.fuses := rfl
@[simp] theorem State.used_sram (s : State)  : (s.used).sram = s.sram := rfl
@[simp] theorem State.used_poison (s : State)  : (s.used).poison = s.poison := rfl
@[simp] theorem State.used_upsets (s : State)  : (s.used).upsets = s.upsets := rfl
@[simp] theorem State.used_xings (s : State)  : (s.used).xings = s.xings := rfl
@[simp] theorem State.used_localVer (s : State)  : (s.used).localVer = s.localVer := rfl
@[simp] theorem State.used_nv (s : State)  : (s.used).nv = s.nv := rfl
@[simp] theorem State.used_ports (s : State)  : (s.used).ports = s.ports := rfl
@[simp] theorem State.used_ops (s : State)  : (s.used).ops = s.ops := rfl
@[simp] theorem State.used_staging (s : State)  : (s.used).staging = s.staging := rfl
@[simp] theorem State.used_streams (s : State)  : (s.used).streams = s.streams := rfl
@[simp] theorem State.used_ev (s : State)  : (s.used).ev = s.ev := rfl
@[simp] theorem State.used_tasks (s : State)  : (s.used).tasks = s.tasks := rfl
@[simp] theorem State.used_engines (s : State)  : (s.used).engines = s.engines := rfl
@[simp] theorem State.used_pyr (s : State)  : (s.used).pyr = s.pyr := rfl
@[simp] theorem State.used_axes (s : State)  : (s.used).axes = s.axes := rfl
@[simp] theorem State.used_cmdin (s : State)  : (s.used).cmdin = s.cmdin := rfl
@[simp] theorem State.used_legs (s : State)  : (s.used).legs = s.legs := rfl
@[simp] theorem State.used_chans (s : State)  : (s.used).chans = s.chans := rfl
@[simp] theorem State.used_units (s : State)  : (s.used).units = s.units := rfl
@[simp] theorem State.used_edges (s : State)  : (s.used).edges = s.edges := rfl
@[simp] theorem State.used_links (s : State)  : (s.used).links = s.links := rfl
@[simp] theorem State.used_dsm (s : State)  : (s.used).dsm = s.dsm := rfl
@[simp] theorem State.used_conv (s : State)  : (s.used).conv = s.conv := rfl
@[simp] theorem State.used_comp (s : State)  : (s.used).comp = s.comp := rfl
@[simp] theorem State.used_plaus (s : State)  : (s.used).plaus = s.plaus := rfl
@[simp] theorem State.used_pos (s : State)  : (s.used).pos = s.pos := rfl
@[simp] theorem State.used_emu (s : State)  : (s.used).emu = s.emu := rfl
@[simp] theorem State.used_safe (s : State)  : (s.used).safe = s.safe := rfl
@[simp] theorem State.used_can (s : State)  : (s.used).can = s.can := rfl
@[simp] theorem State.used_eth (s : State)  : (s.used).eth = s.eth := rfl
@[simp] theorem State.used_bgs (s : State)  : (s.used).bgs = s.bgs := rfl
@[simp] theorem State.used_ptpHeld (s : State)  : (s.used).ptpHeld = s.ptpHeld := rfl
@[simp] theorem State.used_ptpOfs (s : State)  : (s.used).ptpOfs = s.ptpOfs := rfl
@[simp] theorem State.used_wrCode (s : State)  : (s.used).wrCode = s.wrCode := rfl
@[simp] theorem State.used_pending (s : State)  : (s.used).pending = s.pending := rfl

/-! `raiseFull`. -/
@[simp] theorem State.raiseFull_regs (s : State) (isl src tag : Nat) (d : Word) (x : BitVec 16) (n : Option (Fin 4)) : (s.raiseFull isl src tag d x n).regs = s.regs := by unfold State.raiseFull; split <;> rfl
@[simp] theorem State.raiseFull_tbase (s : State) (isl src tag : Nat) (d : Word) (x : BitVec 16) (n : Option (Fin 4)) : (s.raiseFull isl src tag d x n).tbase = s.tbase := by unfold State.raiseFull; split <;> rfl
@[simp] theorem State.raiseFull_rtc (s : State) (isl src tag : Nat) (d : Word) (x : BitVec 16) (n : Option (Fin 4)) : (s.raiseFull isl src tag d x n).rtc = s.rtc := by unfold State.raiseFull; split <;> rfl
@[simp] theorem State.raiseFull_pwr (s : State) (isl src tag : Nat) (d : Word) (x : BitVec 16) (n : Option (Fin 4)) : (s.raiseFull isl src tag d x n).pwr = s.pwr := by unfold State.raiseFull; split <;> rfl
@[simp] theorem State.raiseFull_boot (s : State) (isl src tag : Nat) (d : Word) (x : BitVec 16) (n : Option (Fin 4)) : (s.raiseFull isl src tag d x n).boot = s.boot := by unfold State.raiseFull; split <;> rfl
@[simp] theorem State.raiseFull_fuses (s : State) (isl src tag : Nat) (d : Word) (x : BitVec 16) (n : Option (Fin 4)) : (s.raiseFull isl src tag d x n).fuses = s.fuses := by unfold State.raiseFull; split <;> rfl
@[simp] theorem State.raiseFull_sram (s : State) (isl src tag : Nat) (d : Word) (x : BitVec 16) (n : Option (Fin 4)) : (s.raiseFull isl src tag d x n).sram = s.sram := by unfold State.raiseFull; split <;> rfl
@[simp] theorem State.raiseFull_poison (s : State) (isl src tag : Nat) (d : Word) (x : BitVec 16) (n : Option (Fin 4)) : (s.raiseFull isl src tag d x n).poison = s.poison := by unfold State.raiseFull; split <;> rfl
@[simp] theorem State.raiseFull_upsets (s : State) (isl src tag : Nat) (d : Word) (x : BitVec 16) (n : Option (Fin 4)) : (s.raiseFull isl src tag d x n).upsets = s.upsets := by unfold State.raiseFull; split <;> rfl
@[simp] theorem State.raiseFull_xings (s : State) (isl src tag : Nat) (d : Word) (x : BitVec 16) (n : Option (Fin 4)) : (s.raiseFull isl src tag d x n).xings = s.xings := by unfold State.raiseFull; split <;> rfl
@[simp] theorem State.raiseFull_localVer (s : State) (isl src tag : Nat) (d : Word) (x : BitVec 16) (n : Option (Fin 4)) : (s.raiseFull isl src tag d x n).localVer = s.localVer := by unfold State.raiseFull; split <;> rfl
@[simp] theorem State.raiseFull_nv (s : State) (isl src tag : Nat) (d : Word) (x : BitVec 16) (n : Option (Fin 4)) : (s.raiseFull isl src tag d x n).nv = s.nv := by unfold State.raiseFull; split <;> rfl
@[simp] theorem State.raiseFull_ports (s : State) (isl src tag : Nat) (d : Word) (x : BitVec 16) (n : Option (Fin 4)) : (s.raiseFull isl src tag d x n).ports = s.ports := by unfold State.raiseFull; split <;> rfl
@[simp] theorem State.raiseFull_ops (s : State) (isl src tag : Nat) (d : Word) (x : BitVec 16) (n : Option (Fin 4)) : (s.raiseFull isl src tag d x n).ops = s.ops := by unfold State.raiseFull; split <;> rfl
@[simp] theorem State.raiseFull_staging (s : State) (isl src tag : Nat) (d : Word) (x : BitVec 16) (n : Option (Fin 4)) : (s.raiseFull isl src tag d x n).staging = s.staging := by unfold State.raiseFull; split <;> rfl
@[simp] theorem State.raiseFull_streams (s : State) (isl src tag : Nat) (d : Word) (x : BitVec 16) (n : Option (Fin 4)) : (s.raiseFull isl src tag d x n).streams = s.streams := by unfold State.raiseFull; split <;> rfl
@[simp] theorem State.raiseFull_tasks (s : State) (isl src tag : Nat) (d : Word) (x : BitVec 16) (n : Option (Fin 4)) : (s.raiseFull isl src tag d x n).tasks = s.tasks := by unfold State.raiseFull; split <;> rfl
@[simp] theorem State.raiseFull_engines (s : State) (isl src tag : Nat) (d : Word) (x : BitVec 16) (n : Option (Fin 4)) : (s.raiseFull isl src tag d x n).engines = s.engines := by unfold State.raiseFull; split <;> rfl
@[simp] theorem State.raiseFull_pyr (s : State) (isl src tag : Nat) (d : Word) (x : BitVec 16) (n : Option (Fin 4)) : (s.raiseFull isl src tag d x n).pyr = s.pyr := by unfold State.raiseFull; split <;> rfl
@[simp] theorem State.raiseFull_axes (s : State) (isl src tag : Nat) (d : Word) (x : BitVec 16) (n : Option (Fin 4)) : (s.raiseFull isl src tag d x n).axes = s.axes := by unfold State.raiseFull; split <;> rfl
@[simp] theorem State.raiseFull_cmdin (s : State) (isl src tag : Nat) (d : Word) (x : BitVec 16) (n : Option (Fin 4)) : (s.raiseFull isl src tag d x n).cmdin = s.cmdin := by unfold State.raiseFull; split <;> rfl
@[simp] theorem State.raiseFull_legs (s : State) (isl src tag : Nat) (d : Word) (x : BitVec 16) (n : Option (Fin 4)) : (s.raiseFull isl src tag d x n).legs = s.legs := by unfold State.raiseFull; split <;> rfl
@[simp] theorem State.raiseFull_chans (s : State) (isl src tag : Nat) (d : Word) (x : BitVec 16) (n : Option (Fin 4)) : (s.raiseFull isl src tag d x n).chans = s.chans := by unfold State.raiseFull; split <;> rfl
@[simp] theorem State.raiseFull_units (s : State) (isl src tag : Nat) (d : Word) (x : BitVec 16) (n : Option (Fin 4)) : (s.raiseFull isl src tag d x n).units = s.units := by unfold State.raiseFull; split <;> rfl
@[simp] theorem State.raiseFull_edges (s : State) (isl src tag : Nat) (d : Word) (x : BitVec 16) (n : Option (Fin 4)) : (s.raiseFull isl src tag d x n).edges = s.edges := by unfold State.raiseFull; split <;> rfl
@[simp] theorem State.raiseFull_links (s : State) (isl src tag : Nat) (d : Word) (x : BitVec 16) (n : Option (Fin 4)) : (s.raiseFull isl src tag d x n).links = s.links := by unfold State.raiseFull; split <;> rfl
@[simp] theorem State.raiseFull_dsm (s : State) (isl src tag : Nat) (d : Word) (x : BitVec 16) (n : Option (Fin 4)) : (s.raiseFull isl src tag d x n).dsm = s.dsm := by unfold State.raiseFull; split <;> rfl
@[simp] theorem State.raiseFull_conv (s : State) (isl src tag : Nat) (d : Word) (x : BitVec 16) (n : Option (Fin 4)) : (s.raiseFull isl src tag d x n).conv = s.conv := by unfold State.raiseFull; split <;> rfl
@[simp] theorem State.raiseFull_comp (s : State) (isl src tag : Nat) (d : Word) (x : BitVec 16) (n : Option (Fin 4)) : (s.raiseFull isl src tag d x n).comp = s.comp := by unfold State.raiseFull; split <;> rfl
@[simp] theorem State.raiseFull_plaus (s : State) (isl src tag : Nat) (d : Word) (x : BitVec 16) (n : Option (Fin 4)) : (s.raiseFull isl src tag d x n).plaus = s.plaus := by unfold State.raiseFull; split <;> rfl
@[simp] theorem State.raiseFull_pos (s : State) (isl src tag : Nat) (d : Word) (x : BitVec 16) (n : Option (Fin 4)) : (s.raiseFull isl src tag d x n).pos = s.pos := by unfold State.raiseFull; split <;> rfl
@[simp] theorem State.raiseFull_emu (s : State) (isl src tag : Nat) (d : Word) (x : BitVec 16) (n : Option (Fin 4)) : (s.raiseFull isl src tag d x n).emu = s.emu := by unfold State.raiseFull; split <;> rfl
@[simp] theorem State.raiseFull_safe (s : State) (isl src tag : Nat) (d : Word) (x : BitVec 16) (n : Option (Fin 4)) : (s.raiseFull isl src tag d x n).safe = s.safe := by unfold State.raiseFull; split <;> rfl
@[simp] theorem State.raiseFull_can (s : State) (isl src tag : Nat) (d : Word) (x : BitVec 16) (n : Option (Fin 4)) : (s.raiseFull isl src tag d x n).can = s.can := by unfold State.raiseFull; split <;> rfl
@[simp] theorem State.raiseFull_eth (s : State) (isl src tag : Nat) (d : Word) (x : BitVec 16) (n : Option (Fin 4)) : (s.raiseFull isl src tag d x n).eth = s.eth := by unfold State.raiseFull; split <;> rfl
@[simp] theorem State.raiseFull_bgs (s : State) (isl src tag : Nat) (d : Word) (x : BitVec 16) (n : Option (Fin 4)) : (s.raiseFull isl src tag d x n).bgs = s.bgs := by unfold State.raiseFull; split <;> rfl
@[simp] theorem State.raiseFull_ptpHeld (s : State) (isl src tag : Nat) (d : Word) (x : BitVec 16) (n : Option (Fin 4)) : (s.raiseFull isl src tag d x n).ptpHeld = s.ptpHeld := by unfold State.raiseFull; split <;> rfl
@[simp] theorem State.raiseFull_ptpOfs (s : State) (isl src tag : Nat) (d : Word) (x : BitVec 16) (n : Option (Fin 4)) : (s.raiseFull isl src tag d x n).ptpOfs = s.ptpOfs := by unfold State.raiseFull; split <;> rfl
@[simp] theorem State.raiseFull_wrCode (s : State) (isl src tag : Nat) (d : Word) (x : BitVec 16) (n : Option (Fin 4)) : (s.raiseFull isl src tag d x n).wrCode = s.wrCode := by unfold State.raiseFull; split <;> rfl
@[simp] theorem State.raiseFull_freeCtr (s : State) (isl src tag : Nat) (d : Word) (x : BitVec 16) (n : Option (Fin 4)) : (s.raiseFull isl src tag d x n).freeCtr = s.freeCtr := by unfold State.raiseFull; split <;> rfl
@[simp] theorem State.raiseFull_pending (s : State) (isl src tag : Nat) (d : Word) (x : BitVec 16) (n : Option (Fin 4)) : (s.raiseFull isl src tag d x n).pending = s.pending := by unfold State.raiseFull; split <;> rfl

/-! `raiseAt`. -/
@[simp] theorem State.raiseAt_regs (s : State) (stamp isl src tag : Nat) : (s.raiseAt stamp isl src tag).regs = s.regs := by unfold State.raiseAt; split <;> rfl
@[simp] theorem State.raiseAt_tbase (s : State) (stamp isl src tag : Nat) : (s.raiseAt stamp isl src tag).tbase = s.tbase := by unfold State.raiseAt; split <;> rfl
@[simp] theorem State.raiseAt_rtc (s : State) (stamp isl src tag : Nat) : (s.raiseAt stamp isl src tag).rtc = s.rtc := by unfold State.raiseAt; split <;> rfl
@[simp] theorem State.raiseAt_pwr (s : State) (stamp isl src tag : Nat) : (s.raiseAt stamp isl src tag).pwr = s.pwr := by unfold State.raiseAt; split <;> rfl
@[simp] theorem State.raiseAt_boot (s : State) (stamp isl src tag : Nat) : (s.raiseAt stamp isl src tag).boot = s.boot := by unfold State.raiseAt; split <;> rfl
@[simp] theorem State.raiseAt_fuses (s : State) (stamp isl src tag : Nat) : (s.raiseAt stamp isl src tag).fuses = s.fuses := by unfold State.raiseAt; split <;> rfl
@[simp] theorem State.raiseAt_sram (s : State) (stamp isl src tag : Nat) : (s.raiseAt stamp isl src tag).sram = s.sram := by unfold State.raiseAt; split <;> rfl
@[simp] theorem State.raiseAt_poison (s : State) (stamp isl src tag : Nat) : (s.raiseAt stamp isl src tag).poison = s.poison := by unfold State.raiseAt; split <;> rfl
@[simp] theorem State.raiseAt_upsets (s : State) (stamp isl src tag : Nat) : (s.raiseAt stamp isl src tag).upsets = s.upsets := by unfold State.raiseAt; split <;> rfl
@[simp] theorem State.raiseAt_xings (s : State) (stamp isl src tag : Nat) : (s.raiseAt stamp isl src tag).xings = s.xings := by unfold State.raiseAt; split <;> rfl
@[simp] theorem State.raiseAt_localVer (s : State) (stamp isl src tag : Nat) : (s.raiseAt stamp isl src tag).localVer = s.localVer := by unfold State.raiseAt; split <;> rfl
@[simp] theorem State.raiseAt_nv (s : State) (stamp isl src tag : Nat) : (s.raiseAt stamp isl src tag).nv = s.nv := by unfold State.raiseAt; split <;> rfl
@[simp] theorem State.raiseAt_ports (s : State) (stamp isl src tag : Nat) : (s.raiseAt stamp isl src tag).ports = s.ports := by unfold State.raiseAt; split <;> rfl
@[simp] theorem State.raiseAt_ops (s : State) (stamp isl src tag : Nat) : (s.raiseAt stamp isl src tag).ops = s.ops := by unfold State.raiseAt; split <;> rfl
@[simp] theorem State.raiseAt_staging (s : State) (stamp isl src tag : Nat) : (s.raiseAt stamp isl src tag).staging = s.staging := by unfold State.raiseAt; split <;> rfl
@[simp] theorem State.raiseAt_streams (s : State) (stamp isl src tag : Nat) : (s.raiseAt stamp isl src tag).streams = s.streams := by unfold State.raiseAt; split <;> rfl
@[simp] theorem State.raiseAt_tasks (s : State) (stamp isl src tag : Nat) : (s.raiseAt stamp isl src tag).tasks = s.tasks := by unfold State.raiseAt; split <;> rfl
@[simp] theorem State.raiseAt_engines (s : State) (stamp isl src tag : Nat) : (s.raiseAt stamp isl src tag).engines = s.engines := by unfold State.raiseAt; split <;> rfl
@[simp] theorem State.raiseAt_pyr (s : State) (stamp isl src tag : Nat) : (s.raiseAt stamp isl src tag).pyr = s.pyr := by unfold State.raiseAt; split <;> rfl
@[simp] theorem State.raiseAt_axes (s : State) (stamp isl src tag : Nat) : (s.raiseAt stamp isl src tag).axes = s.axes := by unfold State.raiseAt; split <;> rfl
@[simp] theorem State.raiseAt_cmdin (s : State) (stamp isl src tag : Nat) : (s.raiseAt stamp isl src tag).cmdin = s.cmdin := by unfold State.raiseAt; split <;> rfl
@[simp] theorem State.raiseAt_legs (s : State) (stamp isl src tag : Nat) : (s.raiseAt stamp isl src tag).legs = s.legs := by unfold State.raiseAt; split <;> rfl
@[simp] theorem State.raiseAt_chans (s : State) (stamp isl src tag : Nat) : (s.raiseAt stamp isl src tag).chans = s.chans := by unfold State.raiseAt; split <;> rfl
@[simp] theorem State.raiseAt_units (s : State) (stamp isl src tag : Nat) : (s.raiseAt stamp isl src tag).units = s.units := by unfold State.raiseAt; split <;> rfl
@[simp] theorem State.raiseAt_edges (s : State) (stamp isl src tag : Nat) : (s.raiseAt stamp isl src tag).edges = s.edges := by unfold State.raiseAt; split <;> rfl
@[simp] theorem State.raiseAt_links (s : State) (stamp isl src tag : Nat) : (s.raiseAt stamp isl src tag).links = s.links := by unfold State.raiseAt; split <;> rfl
@[simp] theorem State.raiseAt_dsm (s : State) (stamp isl src tag : Nat) : (s.raiseAt stamp isl src tag).dsm = s.dsm := by unfold State.raiseAt; split <;> rfl
@[simp] theorem State.raiseAt_conv (s : State) (stamp isl src tag : Nat) : (s.raiseAt stamp isl src tag).conv = s.conv := by unfold State.raiseAt; split <;> rfl
@[simp] theorem State.raiseAt_comp (s : State) (stamp isl src tag : Nat) : (s.raiseAt stamp isl src tag).comp = s.comp := by unfold State.raiseAt; split <;> rfl
@[simp] theorem State.raiseAt_plaus (s : State) (stamp isl src tag : Nat) : (s.raiseAt stamp isl src tag).plaus = s.plaus := by unfold State.raiseAt; split <;> rfl
@[simp] theorem State.raiseAt_pos (s : State) (stamp isl src tag : Nat) : (s.raiseAt stamp isl src tag).pos = s.pos := by unfold State.raiseAt; split <;> rfl
@[simp] theorem State.raiseAt_emu (s : State) (stamp isl src tag : Nat) : (s.raiseAt stamp isl src tag).emu = s.emu := by unfold State.raiseAt; split <;> rfl
@[simp] theorem State.raiseAt_safe (s : State) (stamp isl src tag : Nat) : (s.raiseAt stamp isl src tag).safe = s.safe := by unfold State.raiseAt; split <;> rfl
@[simp] theorem State.raiseAt_can (s : State) (stamp isl src tag : Nat) : (s.raiseAt stamp isl src tag).can = s.can := by unfold State.raiseAt; split <;> rfl
@[simp] theorem State.raiseAt_eth (s : State) (stamp isl src tag : Nat) : (s.raiseAt stamp isl src tag).eth = s.eth := by unfold State.raiseAt; split <;> rfl
@[simp] theorem State.raiseAt_bgs (s : State) (stamp isl src tag : Nat) : (s.raiseAt stamp isl src tag).bgs = s.bgs := by unfold State.raiseAt; split <;> rfl
@[simp] theorem State.raiseAt_ptpHeld (s : State) (stamp isl src tag : Nat) : (s.raiseAt stamp isl src tag).ptpHeld = s.ptpHeld := by unfold State.raiseAt; split <;> rfl
@[simp] theorem State.raiseAt_ptpOfs (s : State) (stamp isl src tag : Nat) : (s.raiseAt stamp isl src tag).ptpOfs = s.ptpOfs := by unfold State.raiseAt; split <;> rfl
@[simp] theorem State.raiseAt_wrCode (s : State) (stamp isl src tag : Nat) : (s.raiseAt stamp isl src tag).wrCode = s.wrCode := by unfold State.raiseAt; split <;> rfl
@[simp] theorem State.raiseAt_freeCtr (s : State) (stamp isl src tag : Nat) : (s.raiseAt stamp isl src tag).freeCtr = s.freeCtr := by unfold State.raiseAt; split <;> rfl
@[simp] theorem State.raiseAt_pending (s : State) (stamp isl src tag : Nat) : (s.raiseAt stamp isl src tag).pending = s.pending := by unfold State.raiseAt; split <;> rfl

/-! `raise`. -/
@[simp] theorem State.raise_regs (s : State) (isl src tag : Nat) : (s.raise isl src tag).regs = s.regs := State.raiseFull_regs ..
@[simp] theorem State.raise_tbase (s : State) (isl src tag : Nat) : (s.raise isl src tag).tbase = s.tbase := State.raiseFull_tbase ..
@[simp] theorem State.raise_rtc (s : State) (isl src tag : Nat) : (s.raise isl src tag).rtc = s.rtc := State.raiseFull_rtc ..
@[simp] theorem State.raise_pwr (s : State) (isl src tag : Nat) : (s.raise isl src tag).pwr = s.pwr := State.raiseFull_pwr ..
@[simp] theorem State.raise_boot (s : State) (isl src tag : Nat) : (s.raise isl src tag).boot = s.boot := State.raiseFull_boot ..
@[simp] theorem State.raise_fuses (s : State) (isl src tag : Nat) : (s.raise isl src tag).fuses = s.fuses := State.raiseFull_fuses ..
@[simp] theorem State.raise_sram (s : State) (isl src tag : Nat) : (s.raise isl src tag).sram = s.sram := State.raiseFull_sram ..
@[simp] theorem State.raise_poison (s : State) (isl src tag : Nat) : (s.raise isl src tag).poison = s.poison := State.raiseFull_poison ..
@[simp] theorem State.raise_upsets (s : State) (isl src tag : Nat) : (s.raise isl src tag).upsets = s.upsets := State.raiseFull_upsets ..
@[simp] theorem State.raise_xings (s : State) (isl src tag : Nat) : (s.raise isl src tag).xings = s.xings := State.raiseFull_xings ..
@[simp] theorem State.raise_localVer (s : State) (isl src tag : Nat) : (s.raise isl src tag).localVer = s.localVer := State.raiseFull_localVer ..
@[simp] theorem State.raise_nv (s : State) (isl src tag : Nat) : (s.raise isl src tag).nv = s.nv := State.raiseFull_nv ..
@[simp] theorem State.raise_ports (s : State) (isl src tag : Nat) : (s.raise isl src tag).ports = s.ports := State.raiseFull_ports ..
@[simp] theorem State.raise_ops (s : State) (isl src tag : Nat) : (s.raise isl src tag).ops = s.ops := State.raiseFull_ops ..
@[simp] theorem State.raise_staging (s : State) (isl src tag : Nat) : (s.raise isl src tag).staging = s.staging := State.raiseFull_staging ..
@[simp] theorem State.raise_streams (s : State) (isl src tag : Nat) : (s.raise isl src tag).streams = s.streams := State.raiseFull_streams ..
@[simp] theorem State.raise_tasks (s : State) (isl src tag : Nat) : (s.raise isl src tag).tasks = s.tasks := State.raiseFull_tasks ..
@[simp] theorem State.raise_engines (s : State) (isl src tag : Nat) : (s.raise isl src tag).engines = s.engines := State.raiseFull_engines ..
@[simp] theorem State.raise_pyr (s : State) (isl src tag : Nat) : (s.raise isl src tag).pyr = s.pyr := State.raiseFull_pyr ..
@[simp] theorem State.raise_axes (s : State) (isl src tag : Nat) : (s.raise isl src tag).axes = s.axes := State.raiseFull_axes ..
@[simp] theorem State.raise_cmdin (s : State) (isl src tag : Nat) : (s.raise isl src tag).cmdin = s.cmdin := State.raiseFull_cmdin ..
@[simp] theorem State.raise_legs (s : State) (isl src tag : Nat) : (s.raise isl src tag).legs = s.legs := State.raiseFull_legs ..
@[simp] theorem State.raise_chans (s : State) (isl src tag : Nat) : (s.raise isl src tag).chans = s.chans := State.raiseFull_chans ..
@[simp] theorem State.raise_units (s : State) (isl src tag : Nat) : (s.raise isl src tag).units = s.units := State.raiseFull_units ..
@[simp] theorem State.raise_edges (s : State) (isl src tag : Nat) : (s.raise isl src tag).edges = s.edges := State.raiseFull_edges ..
@[simp] theorem State.raise_links (s : State) (isl src tag : Nat) : (s.raise isl src tag).links = s.links := State.raiseFull_links ..
@[simp] theorem State.raise_dsm (s : State) (isl src tag : Nat) : (s.raise isl src tag).dsm = s.dsm := State.raiseFull_dsm ..
@[simp] theorem State.raise_conv (s : State) (isl src tag : Nat) : (s.raise isl src tag).conv = s.conv := State.raiseFull_conv ..
@[simp] theorem State.raise_comp (s : State) (isl src tag : Nat) : (s.raise isl src tag).comp = s.comp := State.raiseFull_comp ..
@[simp] theorem State.raise_plaus (s : State) (isl src tag : Nat) : (s.raise isl src tag).plaus = s.plaus := State.raiseFull_plaus ..
@[simp] theorem State.raise_pos (s : State) (isl src tag : Nat) : (s.raise isl src tag).pos = s.pos := State.raiseFull_pos ..
@[simp] theorem State.raise_emu (s : State) (isl src tag : Nat) : (s.raise isl src tag).emu = s.emu := State.raiseFull_emu ..
@[simp] theorem State.raise_safe (s : State) (isl src tag : Nat) : (s.raise isl src tag).safe = s.safe := State.raiseFull_safe ..
@[simp] theorem State.raise_can (s : State) (isl src tag : Nat) : (s.raise isl src tag).can = s.can := State.raiseFull_can ..
@[simp] theorem State.raise_eth (s : State) (isl src tag : Nat) : (s.raise isl src tag).eth = s.eth := State.raiseFull_eth ..
@[simp] theorem State.raise_bgs (s : State) (isl src tag : Nat) : (s.raise isl src tag).bgs = s.bgs := State.raiseFull_bgs ..
@[simp] theorem State.raise_ptpHeld (s : State) (isl src tag : Nat) : (s.raise isl src tag).ptpHeld = s.ptpHeld := State.raiseFull_ptpHeld ..
@[simp] theorem State.raise_ptpOfs (s : State) (isl src tag : Nat) : (s.raise isl src tag).ptpOfs = s.ptpOfs := State.raiseFull_ptpOfs ..
@[simp] theorem State.raise_wrCode (s : State) (isl src tag : Nat) : (s.raise isl src tag).wrCode = s.wrCode := State.raiseFull_wrCode ..
@[simp] theorem State.raise_freeCtr (s : State) (isl src tag : Nat) : (s.raise isl src tag).freeCtr = s.freeCtr := State.raiseFull_freeCtr ..
@[simp] theorem State.raise_pending (s : State) (isl src tag : Nat) : (s.raise isl src tag).pending = s.pending := State.raiseFull_pending ..

/-! `modTask`. -/
@[simp] theorem State.modTask_regs (s : State) (t : Nat) (f : Task → Task) : (s.modTask t f).regs = s.regs := rfl
@[simp] theorem State.modTask_tbase (s : State) (t : Nat) (f : Task → Task) : (s.modTask t f).tbase = s.tbase := rfl
@[simp] theorem State.modTask_rtc (s : State) (t : Nat) (f : Task → Task) : (s.modTask t f).rtc = s.rtc := rfl
@[simp] theorem State.modTask_pwr (s : State) (t : Nat) (f : Task → Task) : (s.modTask t f).pwr = s.pwr := rfl
@[simp] theorem State.modTask_boot (s : State) (t : Nat) (f : Task → Task) : (s.modTask t f).boot = s.boot := rfl
@[simp] theorem State.modTask_fuses (s : State) (t : Nat) (f : Task → Task) : (s.modTask t f).fuses = s.fuses := rfl
@[simp] theorem State.modTask_sram (s : State) (t : Nat) (f : Task → Task) : (s.modTask t f).sram = s.sram := rfl
@[simp] theorem State.modTask_poison (s : State) (t : Nat) (f : Task → Task) : (s.modTask t f).poison = s.poison := rfl
@[simp] theorem State.modTask_upsets (s : State) (t : Nat) (f : Task → Task) : (s.modTask t f).upsets = s.upsets := rfl
@[simp] theorem State.modTask_xings (s : State) (t : Nat) (f : Task → Task) : (s.modTask t f).xings = s.xings := rfl
@[simp] theorem State.modTask_localVer (s : State) (t : Nat) (f : Task → Task) : (s.modTask t f).localVer = s.localVer := rfl
@[simp] theorem State.modTask_nv (s : State) (t : Nat) (f : Task → Task) : (s.modTask t f).nv = s.nv := rfl
@[simp] theorem State.modTask_ports (s : State) (t : Nat) (f : Task → Task) : (s.modTask t f).ports = s.ports := rfl
@[simp] theorem State.modTask_ops (s : State) (t : Nat) (f : Task → Task) : (s.modTask t f).ops = s.ops := rfl
@[simp] theorem State.modTask_staging (s : State) (t : Nat) (f : Task → Task) : (s.modTask t f).staging = s.staging := rfl
@[simp] theorem State.modTask_streams (s : State) (t : Nat) (f : Task → Task) : (s.modTask t f).streams = s.streams := rfl
@[simp] theorem State.modTask_ev (s : State) (t : Nat) (f : Task → Task) : (s.modTask t f).ev = s.ev := rfl
@[simp] theorem State.modTask_engines (s : State) (t : Nat) (f : Task → Task) : (s.modTask t f).engines = s.engines := rfl
@[simp] theorem State.modTask_pyr (s : State) (t : Nat) (f : Task → Task) : (s.modTask t f).pyr = s.pyr := rfl
@[simp] theorem State.modTask_axes (s : State) (t : Nat) (f : Task → Task) : (s.modTask t f).axes = s.axes := rfl
@[simp] theorem State.modTask_cmdin (s : State) (t : Nat) (f : Task → Task) : (s.modTask t f).cmdin = s.cmdin := rfl
@[simp] theorem State.modTask_legs (s : State) (t : Nat) (f : Task → Task) : (s.modTask t f).legs = s.legs := rfl
@[simp] theorem State.modTask_chans (s : State) (t : Nat) (f : Task → Task) : (s.modTask t f).chans = s.chans := rfl
@[simp] theorem State.modTask_units (s : State) (t : Nat) (f : Task → Task) : (s.modTask t f).units = s.units := rfl
@[simp] theorem State.modTask_edges (s : State) (t : Nat) (f : Task → Task) : (s.modTask t f).edges = s.edges := rfl
@[simp] theorem State.modTask_links (s : State) (t : Nat) (f : Task → Task) : (s.modTask t f).links = s.links := rfl
@[simp] theorem State.modTask_dsm (s : State) (t : Nat) (f : Task → Task) : (s.modTask t f).dsm = s.dsm := rfl
@[simp] theorem State.modTask_conv (s : State) (t : Nat) (f : Task → Task) : (s.modTask t f).conv = s.conv := rfl
@[simp] theorem State.modTask_comp (s : State) (t : Nat) (f : Task → Task) : (s.modTask t f).comp = s.comp := rfl
@[simp] theorem State.modTask_plaus (s : State) (t : Nat) (f : Task → Task) : (s.modTask t f).plaus = s.plaus := rfl
@[simp] theorem State.modTask_pos (s : State) (t : Nat) (f : Task → Task) : (s.modTask t f).pos = s.pos := rfl
@[simp] theorem State.modTask_emu (s : State) (t : Nat) (f : Task → Task) : (s.modTask t f).emu = s.emu := rfl
@[simp] theorem State.modTask_safe (s : State) (t : Nat) (f : Task → Task) : (s.modTask t f).safe = s.safe := rfl
@[simp] theorem State.modTask_can (s : State) (t : Nat) (f : Task → Task) : (s.modTask t f).can = s.can := rfl
@[simp] theorem State.modTask_eth (s : State) (t : Nat) (f : Task → Task) : (s.modTask t f).eth = s.eth := rfl
@[simp] theorem State.modTask_bgs (s : State) (t : Nat) (f : Task → Task) : (s.modTask t f).bgs = s.bgs := rfl
@[simp] theorem State.modTask_ptpHeld (s : State) (t : Nat) (f : Task → Task) : (s.modTask t f).ptpHeld = s.ptpHeld := rfl
@[simp] theorem State.modTask_ptpOfs (s : State) (t : Nat) (f : Task → Task) : (s.modTask t f).ptpOfs = s.ptpOfs := rfl
@[simp] theorem State.modTask_wrCode (s : State) (t : Nat) (f : Task → Task) : (s.modTask t f).wrCode = s.wrCode := rfl
@[simp] theorem State.modTask_freeCtr (s : State) (t : Nat) (f : Task → Task) : (s.modTask t f).freeCtr = s.freeCtr := rfl
@[simp] theorem State.modTask_pending (s : State) (t : Nat) (f : Task → Task) : (s.modTask t f).pending = s.pending := rfl

/-! `modEng`. -/
@[simp] theorem State.modEng_regs (s : State) (e : Nat) (f : Engine → Engine) : (State.modEng e f s).regs = s.regs := rfl
@[simp] theorem State.modEng_tbase (s : State) (e : Nat) (f : Engine → Engine) : (State.modEng e f s).tbase = s.tbase := rfl
@[simp] theorem State.modEng_rtc (s : State) (e : Nat) (f : Engine → Engine) : (State.modEng e f s).rtc = s.rtc := rfl
@[simp] theorem State.modEng_pwr (s : State) (e : Nat) (f : Engine → Engine) : (State.modEng e f s).pwr = s.pwr := rfl
@[simp] theorem State.modEng_boot (s : State) (e : Nat) (f : Engine → Engine) : (State.modEng e f s).boot = s.boot := rfl
@[simp] theorem State.modEng_fuses (s : State) (e : Nat) (f : Engine → Engine) : (State.modEng e f s).fuses = s.fuses := rfl
@[simp] theorem State.modEng_sram (s : State) (e : Nat) (f : Engine → Engine) : (State.modEng e f s).sram = s.sram := rfl
@[simp] theorem State.modEng_poison (s : State) (e : Nat) (f : Engine → Engine) : (State.modEng e f s).poison = s.poison := rfl
@[simp] theorem State.modEng_upsets (s : State) (e : Nat) (f : Engine → Engine) : (State.modEng e f s).upsets = s.upsets := rfl
@[simp] theorem State.modEng_xings (s : State) (e : Nat) (f : Engine → Engine) : (State.modEng e f s).xings = s.xings := rfl
@[simp] theorem State.modEng_localVer (s : State) (e : Nat) (f : Engine → Engine) : (State.modEng e f s).localVer = s.localVer := rfl
@[simp] theorem State.modEng_nv (s : State) (e : Nat) (f : Engine → Engine) : (State.modEng e f s).nv = s.nv := rfl
@[simp] theorem State.modEng_ports (s : State) (e : Nat) (f : Engine → Engine) : (State.modEng e f s).ports = s.ports := rfl
@[simp] theorem State.modEng_ops (s : State) (e : Nat) (f : Engine → Engine) : (State.modEng e f s).ops = s.ops := rfl
@[simp] theorem State.modEng_staging (s : State) (e : Nat) (f : Engine → Engine) : (State.modEng e f s).staging = s.staging := rfl
@[simp] theorem State.modEng_streams (s : State) (e : Nat) (f : Engine → Engine) : (State.modEng e f s).streams = s.streams := rfl
@[simp] theorem State.modEng_ev (s : State) (e : Nat) (f : Engine → Engine) : (State.modEng e f s).ev = s.ev := rfl
@[simp] theorem State.modEng_tasks (s : State) (e : Nat) (f : Engine → Engine) : (State.modEng e f s).tasks = s.tasks := rfl
@[simp] theorem State.modEng_pyr (s : State) (e : Nat) (f : Engine → Engine) : (State.modEng e f s).pyr = s.pyr := rfl
@[simp] theorem State.modEng_axes (s : State) (e : Nat) (f : Engine → Engine) : (State.modEng e f s).axes = s.axes := rfl
@[simp] theorem State.modEng_cmdin (s : State) (e : Nat) (f : Engine → Engine) : (State.modEng e f s).cmdin = s.cmdin := rfl
@[simp] theorem State.modEng_legs (s : State) (e : Nat) (f : Engine → Engine) : (State.modEng e f s).legs = s.legs := rfl
@[simp] theorem State.modEng_chans (s : State) (e : Nat) (f : Engine → Engine) : (State.modEng e f s).chans = s.chans := rfl
@[simp] theorem State.modEng_units (s : State) (e : Nat) (f : Engine → Engine) : (State.modEng e f s).units = s.units := rfl
@[simp] theorem State.modEng_edges (s : State) (e : Nat) (f : Engine → Engine) : (State.modEng e f s).edges = s.edges := rfl
@[simp] theorem State.modEng_links (s : State) (e : Nat) (f : Engine → Engine) : (State.modEng e f s).links = s.links := rfl
@[simp] theorem State.modEng_dsm (s : State) (e : Nat) (f : Engine → Engine) : (State.modEng e f s).dsm = s.dsm := rfl
@[simp] theorem State.modEng_conv (s : State) (e : Nat) (f : Engine → Engine) : (State.modEng e f s).conv = s.conv := rfl
@[simp] theorem State.modEng_comp (s : State) (e : Nat) (f : Engine → Engine) : (State.modEng e f s).comp = s.comp := rfl
@[simp] theorem State.modEng_plaus (s : State) (e : Nat) (f : Engine → Engine) : (State.modEng e f s).plaus = s.plaus := rfl
@[simp] theorem State.modEng_pos (s : State) (e : Nat) (f : Engine → Engine) : (State.modEng e f s).pos = s.pos := rfl
@[simp] theorem State.modEng_emu (s : State) (e : Nat) (f : Engine → Engine) : (State.modEng e f s).emu = s.emu := rfl
@[simp] theorem State.modEng_safe (s : State) (e : Nat) (f : Engine → Engine) : (State.modEng e f s).safe = s.safe := rfl
@[simp] theorem State.modEng_can (s : State) (e : Nat) (f : Engine → Engine) : (State.modEng e f s).can = s.can := rfl
@[simp] theorem State.modEng_eth (s : State) (e : Nat) (f : Engine → Engine) : (State.modEng e f s).eth = s.eth := rfl
@[simp] theorem State.modEng_bgs (s : State) (e : Nat) (f : Engine → Engine) : (State.modEng e f s).bgs = s.bgs := rfl
@[simp] theorem State.modEng_ptpHeld (s : State) (e : Nat) (f : Engine → Engine) : (State.modEng e f s).ptpHeld = s.ptpHeld := rfl
@[simp] theorem State.modEng_ptpOfs (s : State) (e : Nat) (f : Engine → Engine) : (State.modEng e f s).ptpOfs = s.ptpOfs := rfl
@[simp] theorem State.modEng_wrCode (s : State) (e : Nat) (f : Engine → Engine) : (State.modEng e f s).wrCode = s.wrCode := rfl
@[simp] theorem State.modEng_freeCtr (s : State) (e : Nat) (f : Engine → Engine) : (State.modEng e f s).freeCtr = s.freeCtr := rfl
@[simp] theorem State.modEng_pending (s : State) (e : Nat) (f : Engine → Engine) : (State.modEng e f s).pending = s.pending := rfl

end Sys2Proof.Machine
end

