-- ==== Sys2Proof/Laws/Memory.lean ====
section
/-! SUPPORT. Sparse memories and the register file: a read after a write, and the canonical form that every write
keeps. -/

namespace Sys2Proof.Machine

variable {α : Type}

/-- A lower bound can be weakened. -/
theorem rising_mono {a b : Nat} (h : a ≤ b) {l : List (Nat × α)} (w : rising (some b) l = true) : rising (some a) l = true := by
  cases l with
  | nil => rfl
  | cons x l =>
    obtain ⟨k, v⟩ := x
    simp only [rising, Bool.and_eq_true, decide_eq_true_eq] at w ⊢
    exact ⟨by omega, w.2⟩

theorem rising_none {b : Nat} {l : List (Nat × α)} (w : rising (some b) l = true) : rising none l = true := by
  cases l with
  | nil => rfl
  | cons x l => simp only [rising, Bool.and_eq_true] at w ⊢; exact w.2

/-- Nothing is listed at or below the bound. -/
theorem assocGet_below {b a : Nat} (h : a ≤ b) {l : List (Nat × α)} (w : rising (some b) l = true) : assocGet l a = none := by
  induction l generalizing b with
  | nil => rfl
  | cons x l ih =>
    obtain ⟨k, v⟩ := x
    simp only [rising, Bool.and_eq_true, decide_eq_true_eq] at w
    simp only [assocGet, if_neg (by omega : ¬k = a)]
    exact ih (by omega) w.2

theorem assocGet_assocPut (l : List (Nat × α)) (a b : Nat) (v : α) :
    assocGet (assocPut l a v) b = if b = a then some v else assocGet l b := by
  induction l with
  | nil => simp only [assocPut, assocGet, eq_comm]
  | cons x l ih =>
    obtain ⟨k, w⟩ := x
    simp only [assocPut]
    split
    · simp only [assocGet, eq_comm]
    · split
      · rename_i h; subst h; simp only [assocGet, eq_comm]; split <;> simp_all
      · rename_i h1 h2
        simp only [assocGet, ih]
        by_cases hk : k = b
        · simp [hk, show b ≠ a by omega]
        · simp [hk]

theorem assocGet_assocDel (l : List (Nat × α)) (a b : Nat) :
    assocGet (assocDel l a) b = if b = a then none else assocGet l b := by
  induction l with
  | nil => simp [assocDel, assocGet]
  | cons x l ih =>
    obtain ⟨k, v⟩ := x
    simp only [assocDel]
    by_cases h : k = a
    · rw [if_pos h, ih]; subst h
      split
      · rfl
      · rename_i hb; simp [assocGet, Ne.symm hb]
    · rw [if_neg h]; simp only [assocGet, ih]
      by_cases hk : k = b
      · simp [hk, show b ≠ a by omega]
      · simp [hk]

theorem rising_assocPut_some {l : List (Nat × α)} {b a : Nat} {v : α} (h : b < a) (w : rising (some b) l = true) :
    rising (some b) (assocPut l a v) = true := by
  induction l generalizing b with
  | nil => simp [assocPut, rising, h]
  | cons x l ih =>
    obtain ⟨k, u⟩ := x
    simp only [rising, Bool.and_eq_true, decide_eq_true_eq] at w
    simp only [assocPut]
    split
    · simp_all [rising]
    · split
      · subst_vars; simp_all [rising]
      · simp only [rising, Bool.and_eq_true, decide_eq_true_eq]
        exact ⟨w.1, ih (by omega) w.2⟩

/-- Entering a key keeps the order. -/
theorem rising_assocPut {l : List (Nat × α)} (w : rising none l = true) (a : Nat) (v : α) :
    rising none (assocPut l a v) = true := by
  cases l with
  | nil => rfl
  | cons x l =>
    obtain ⟨k, u⟩ := x
    simp only [rising] at w
    simp only [assocPut]
    split
    · simp_all [rising]
    · split
      · subst_vars; simpa [rising] using w
      · exact rising_assocPut_some (by omega) w

theorem rising_assocDel_some {l : List (Nat × α)} {b a : Nat} (w : rising (some b) l = true) :
    rising (some b) (assocDel l a) = true := by
  induction l generalizing b with
  | nil => rfl
  | cons x l ih =>
    obtain ⟨k, u⟩ := x
    simp only [rising, Bool.and_eq_true, decide_eq_true_eq] at w
    simp only [assocDel]
    split
    · exact rising_mono (by omega) (ih w.2)
    · simp only [rising, Bool.and_eq_true, decide_eq_true_eq]
      exact ⟨w.1, ih w.2⟩

/-- Removing a key keeps the order. -/
theorem rising_assocDel {l : List (Nat × α)} (w : rising none l = true) (a : Nat) : rising none (assocDel l a) = true := by
  induction l with
  | nil => rfl
  | cons x l ih =>
    obtain ⟨k, u⟩ := x
    have w' : rising (some k) l = true := w
    simp only [assocDel]
    split
    · exact ih (rising_none w')
    · exact rising_assocDel_some w'

theorem all_assocPut {p : Nat × α → Bool} {l : List (Nat × α)} (h : l.all p = true) {a : Nat} {v : α} (hv : p (a, v) = true) :
    (assocPut l a v).all p = true := by
  induction l with
  | nil => simpa [assocPut] using hv
  | cons x l ih =>
    obtain ⟨k, u⟩ := x
    simp only [List.all_cons, Bool.and_eq_true] at h
    simp only [assocPut]
    split
    · simp [hv, h]
    · split <;> simp_all

theorem all_assocDel {p : Nat × α → Bool} {l : List (Nat × α)} (h : l.all p = true) (a : Nat) : (assocDel l a).all p = true := by
  induction l with
  | nil => rfl
  | cons x l ih =>
    obtain ⟨k, u⟩ := x
    simp only [List.all_cons, Bool.and_eq_true] at h
    simp only [assocDel]
    split
    · exact ih h.2
    · simp [h.1, ih h.2]

/-! Memories. -/

theorem Memory.wf_rising {d : Byte} {m : List Host.Cell} (h : Memory.wf d m = true) : rising none m = true := by
  simp only [Memory.wf, Bool.and_eq_true] at h; exact h.1

/-- Storing a byte keeps the canonical form. -/
theorem Memory.wf_putByte {m : List Host.Cell} (h : Memory.wf 0 m = true) (a : Nat) (b : Byte) :
    Memory.wf 0 (putByte m a b) = true := by
  simp only [Memory.wf, Bool.and_eq_true] at h ⊢
  simp only [putByte]
  split
  · exact ⟨rising_assocDel h.1 a, all_assocDel h.2 a⟩
  · exact ⟨rising_assocPut h.1 a b, all_assocPut h.2 (by simp_all)⟩

theorem Memory.wf_putBytes {m : List Host.Cell} (h : Memory.wf 0 m = true) (a : Nat) (l : List Byte) :
    Memory.wf 0 (putBytes m a l) = true := by
  induction l generalizing m a with
  | nil => exact h
  | cons b l ih => exact ih (Memory.wf_putByte h a b) _

theorem Memory.wf_putWord {m : List Host.Cell} (h : Memory.wf 0 m = true) (a : Nat) (v : Word) :
    Memory.wf 0 (putWord m a v) = true := Memory.wf_putBytes h _ _

theorem Memory.wf_putWords {m : List Host.Cell} (h : Memory.wf 0 m = true) (a : Nat) (l : List Word) :
    Memory.wf 0 (putWords m a l) = true := by
  induction l generalizing m a with
  | nil => exact h
  | cons b l ih => exact ih (Memory.wf_putWord h a b) _

/-- A byte reads what was stored last at its address. -/
theorem byteAt_putByte (m : List Host.Cell) (a x : Nat) (b : Byte) :
    byteAt (putByte m a b) x = if x = a then b else byteAt m x := by
  simp only [byteAt, putByte]
  split
  · rename_i hb; rw [assocGet_assocDel]; split <;> simp_all
  · rw [assocGet_assocPut]; split <;> simp_all

/-- Bytes outside a store read as before. -/
theorem byteAt_putBytes_outside (m : List Host.Cell) {a x : Nat} (l : List Byte) (hx : x < a ∨ a + l.length ≤ x) :
    byteAt (putBytes m a l) x = byteAt m x := by
  induction l generalizing m a with
  | nil => rfl
  | cons b l ih =>
    simp only [List.length_cons] at hx
    simp only [putBytes]
    rw [ih _ (by omega), byteAt_putByte, if_neg (by omega)]

/-- Bytes inside a store read as stored. -/
theorem byteAt_putBytes_inside (m : List Host.Cell) {a k : Nat} (l : List Byte) (hk : k < l.length) :
    byteAt (putBytes m a l) (a + k) = l[k] := by
  induction l generalizing m a k with
  | nil => simp at hk
  | cons b l ih =>
    simp only [putBytes]
    cases k with
    | zero => rw [byteAt_putBytes_outside _ l (by omega), byteAt_putByte]; simp
    | succ k =>
      have := ih (putByte m a b) (a := a + 1) (k := k) (by simpa using hk)
      rw [show a + (k + 1) = a + 1 + k by omega, this]; rfl

/-- A store is read back whole. -/
theorem bytesAt_putBytes (m : List Host.Cell) (a : Nat) (l : List Byte) :
    bytesAt (putBytes m a l) a l.length = l := by
  apply List.ext_getElem
  · simp [bytesAt]
  · intro k h1 h2
    simp only [bytesAt, List.getElem_map, List.getElem_range]
    exact byteAt_putBytes_inside m l h2

/-! Registers. -/

/-- A register reads what was stored last at its address. -/
theorem State.word_setWord (s : State) (r : Reg) (i : Nat) (v : Word) : (s.setWord r i v).word r i = v := by
  simp only [State.word, State.setWord]
  split
  · rw [assocGet_assocDel]; simp_all
  · rw [assocGet_assocPut]; simp

/-- A register at another address reads as before. -/
theorem State.word_setWord_ne (s : State) {r q : Reg} {i j : Nat} (v : Word) (ne : q.addr j ≠ r.addr i) :
    (s.setWord r i v).word q j = s.word q j := by
  simp only [State.word, State.setWord]
  split
  · rw [assocGet_assocDel, if_neg ne]
  · rw [assocGet_assocPut, if_neg ne]

/-- Storing a register keeps the order of the file. -/
theorem State.regs_setWord {s : State} (h : rising none s.regs = true) (r : Reg) (i : Nat) (v : Word) :
    rising none (s.setWord r i v).regs = true := by
  simp only [State.setWord]
  split
  · exact rising_assocDel h _
  · exact rising_assocPut h _ _

/-- Storing a register leaves every other address of the file. -/
theorem State.regs_setWord_ne (s : State) {r : Reg} {i a : Nat} (v : Word) (ne : a ≠ r.addr i) :
    assocGet (s.setWord r i v).regs a = assocGet s.regs a := by
  simp only [State.setWord]
  split
  · rw [assocGet_assocDel, if_neg ne]
  · rw [assocGet_assocPut, if_neg ne]

/-! Fields. -/

theorem bits_lt (v lo w : Nat) : bits v lo w < 2 ^ w := Nat.mod_lt _ (Nat.two_pow_pos w)

/-- A field of a word reads what was put there last. -/
theorem bits_setBits {v lo w x : Nat} (hx : x < 2 ^ w) : bits (setBits v lo w x) lo w = x := by
  unfold bits setBits
  rw [Nat.mod_eq_of_lt hx]
  have h1 : v / 2 ^ lo % 2 ^ w * 2 ^ lo ≤ v := by
    calc v / 2 ^ lo % 2 ^ w * 2 ^ lo ≤ v / 2 ^ lo * 2 ^ lo := Nat.mul_le_mul_right _ (Nat.mod_le _ _)
      _ ≤ v := Nat.div_mul_le_self _ _
  unfold bits
  generalize hq : v / 2 ^ lo = q at *
  have hv : v = q * 2 ^ lo + v % 2 ^ lo := by rw [← hq]; exact (Nat.div_add_mod' v (2 ^ lo)).symm
  have hm := Nat.div_add_mod q (2 ^ w)
  have hp : 0 < 2 ^ lo := Nat.two_pow_pos lo
  have key : v - q % 2 ^ w * 2 ^ lo + x * 2 ^ lo = (q / 2 ^ w * 2 ^ w + x) * 2 ^ lo + v % 2 ^ lo := by
    have : v = (2 ^ w * (q / 2 ^ w) + q % 2 ^ w) * 2 ^ lo + v % 2 ^ lo := by rw [hm]; exact hv
    zify [h1]
    have t : (v : Int) = (2 ^ w * (q / 2 ^ w) + q % 2 ^ w) * 2 ^ lo + v % 2 ^ lo := by exact_mod_cast this
    linear_combination t
  rw [key, Nat.mul_comm _ (2 ^ lo), Nat.mul_add_div hp, Nat.div_eq_of_lt (Nat.mod_lt _ hp), Nat.add_zero,
    Nat.mul_comm (q / 2 ^ w), Nat.mul_add_mod, Nat.mod_eq_of_lt hx]

/-- Putting a field keeps a word within its width. -/
theorem setBits_lt {v lo w x n : Nat} (hv : v < 2 ^ n) (hn : lo + w ≤ n) : setBits v lo w x < 2 ^ n := by
  unfold setBits bits
  have hx : x % 2 ^ w ≤ 2 ^ w - 1 := by have := Nat.mod_lt x (Nat.two_pow_pos w); omega
  have hp : 0 < 2 ^ lo := Nat.two_pow_pos lo
  have e := Nat.div_add_mod' v (2 ^ lo)
  generalize hq : v / 2 ^ lo = q at *
  have hm := Nat.div_add_mod q (2 ^ w)
  have hr := Nat.mod_lt v hp
  have hqn : q < 2 ^ (n - lo) := by
    rw [← hq, Nat.div_lt_iff_lt_mul hp, ← pow_add]; rwa [Nat.sub_add_cancel (by omega)]
  have hk : q / 2 ^ w < 2 ^ (n - lo - w) := by
    rw [Nat.div_lt_iff_lt_mul (Nat.two_pow_pos w), ← pow_add]; rwa [Nat.sub_add_cancel (by omega)]
  have hle : q % 2 ^ w * 2 ^ lo ≤ v := by
    rw [← e]; exact Nat.le_trans (Nat.mul_le_mul_right _ (Nat.mod_le _ _)) (Nat.le_add_right _ _)
  have key : v - q % 2 ^ w * 2 ^ lo = q / 2 ^ w * 2 ^ w * 2 ^ lo + v % 2 ^ lo := by
    have : (2 ^ w * (q / 2 ^ w) + q % 2 ^ w) * 2 ^ lo + v % 2 ^ lo = v := by rw [hm]; exact e
    rw [Nat.add_mul] at this
    rw [Nat.mul_comm (q / 2 ^ w)]; omega
  rw [key]
  have h1 : (q / 2 ^ w + 1) * (2 ^ w * 2 ^ lo) ≤ 2 ^ (n - lo - w) * (2 ^ w * 2 ^ lo) := Nat.mul_le_mul_right _ hk
  have h2 : 2 ^ (n - lo - w) * (2 ^ w * 2 ^ lo) = 2 ^ n := by
    rw [← pow_add, ← pow_add]; congr 1; omega
  have h3 : x % 2 ^ w * 2 ^ lo ≤ (2 ^ w - 1) * 2 ^ lo := Nat.mul_le_mul_right _ hx
  have h4 : (2 ^ w - 1) * 2 ^ lo + 2 ^ lo = 2 ^ w * 2 ^ lo := by
    rw [← Nat.succ_mul]; congr 1; have := Nat.two_pow_pos w; omega
  rw [Nat.add_mul, Nat.one_mul] at h1
  rw [Nat.mul_assoc]
  omega

/-- A disjoint field reads as before. -/
theorem bits_setBits_ne {v lo w x lo' w' : Nat} (h : lo + w ≤ lo' ∨ lo' + w' ≤ lo) :
    bits (setBits v lo w x) lo' w' = bits v lo' w' := by
  have hp : 0 < 2 ^ lo := Nat.two_pow_pos lo
  have e := Nat.div_add_mod' v (2 ^ lo)
  have key : ∃ q r k, v = (q * 2 ^ w + k) * 2 ^ lo + r ∧ k < 2 ^ w ∧ r < 2 ^ lo
      ∧ setBits v lo w x = (q * 2 ^ w + x % 2 ^ w) * 2 ^ lo + r := by
    refine ⟨v / 2 ^ lo / 2 ^ w, v % 2 ^ lo, v / 2 ^ lo % 2 ^ w, ?_, Nat.mod_lt _ (Nat.two_pow_pos w), Nat.mod_lt _ hp, ?_⟩
    · rw [Nat.div_add_mod']; exact e.symm
    · unfold setBits bits
      have hm := Nat.div_add_mod' (v / 2 ^ lo) (2 ^ w)
      have : (v / 2 ^ lo / 2 ^ w * 2 ^ w + v / 2 ^ lo % 2 ^ w) * 2 ^ lo + v % 2 ^ lo = v := by rw [hm]; exact e
      rw [Nat.add_mul] at this ⊢
      omega
  obtain ⟨q, r, k, hv, hk, hr, hs⟩ := key
  rw [hs]; conv_rhs => rw [hv]
  unfold bits
  rcases h with h | h
  · obtain ⟨d, rfl⟩ := Nat.exists_eq_add_of_le h
    have f : ∀ y, y < 2 ^ w → ((q * 2 ^ w + y) * 2 ^ lo + r) / 2 ^ (lo + w + d) = q / 2 ^ d := by
      intro y hy
      rw [pow_add, pow_add, ← Nat.div_div_eq_div_mul, ← Nat.div_div_eq_div_mul]
      congr 1
      rw [Nat.mul_comm _ (2 ^ lo), Nat.mul_add_div hp, Nat.div_eq_of_lt hr, Nat.add_zero, Nat.mul_comm q,
        Nat.mul_add_div (Nat.two_pow_pos w), Nat.div_eq_of_lt hy, Nat.add_zero]
    rw [f _ (Nat.mod_lt _ (Nat.two_pow_pos w)), f _ hk]
  · obtain ⟨d, rfl⟩ := Nat.exists_eq_add_of_le h
    have f : ∀ y, ((q * 2 ^ w + y) * 2 ^ (lo' + w' + d) + r) / 2 ^ lo' % 2 ^ w' = r / 2 ^ lo' % 2 ^ w' := by
      intro y
      rw [show (q * 2 ^ w + y) * 2 ^ (lo' + w' + d) = 2 ^ lo' * (2 ^ w' * ((q * 2 ^ w + y) * 2 ^ d)) by
        rw [pow_add, pow_add]; ring, Nat.mul_add_div (Nat.two_pow_pos lo'), Nat.mul_add_mod]
    rw [f, f]

/-- A field reads what was stored in it last. -/
theorem State.g_p (s : State) (f : FRef) (i x : Nat) (hf : f.lo + f.w ≤ 32) (hx : x < 2 ^ f.w) : (s.p f i x).g f i = x := by
  unfold State.g State.p
  rw [State.word_setWord, BitVec.toNat_ofNat,
    Nat.mod_eq_of_lt (setBits_lt (s.word f.reg i).isLt hf), bits_setBits hx]

/-- A field of another register reads as before. -/
theorem State.g_p_ne (s : State) {f h : FRef} {i j : Nat} (x : Nat) (ne : h.reg.addr j ≠ f.reg.addr i) :
    (s.p f i x).g h j = s.g h j := by
  unfold State.g State.p
  rw [State.word_setWord_ne _ _ ne]

/-- Another field of the same register reads as before. -/
theorem State.g_p_other (s : State) {f h : FRef} {i : Nat} (x : Nat) (hr : h.reg = f.reg) (hf : f.lo + f.w ≤ 32)
    (hd : f.lo + f.w ≤ h.lo ∨ h.lo + h.w ≤ f.lo) : (s.p f i x).g h i = s.g h i := by
  unfold State.g State.p
  rw [hr, State.word_setWord, BitVec.toNat_ofNat, Nat.mod_eq_of_lt (setBits_lt (s.word f.reg i).isLt hf),
    bits_setBits_ne hd]

end Sys2Proof.Machine
end

