-- ==== Sys2Proof/Laws/Keeps.lean ====
section
/-! SUPPORT. What the shared operations keep: the canonical forms of the memories and of the register file, the queue of commands, and the fuses that have burned. One lemma for each operation, from the state a command began with. -/

namespace Sys2Proof.Machine

set_option linter.unusedTactic false
set_option linter.unreachableTactic false

/-- Fuses are never unburned from `f` to `g`. -/
structure Fuses.Le (f g : Fuses) : Prop where
  floor : f.svnFloor ≤ g.svnFloor
  used : f.burned.length ≤ g.burned.length
  revoked : ∀ k : Fin 4, f.revoked.getLsbD k = true → g.revoked.getLsbD k = true
  hash : g.keyHash = f.keyHash

/-- What every operation keeps: the canonical forms, the queue of commands, and what the fuses have burned. -/
structure Keeps (s t : State) : Prop where
  wf : s.Wf → t.Wf
  queue : t.pending = s.pending
  fuses : Fuses.Le s.fuses t.fuses

theorem Fuses.Le.refl (f : Fuses) : Fuses.Le f f := ⟨Nat.le_refl _, Nat.le_refl _, fun _ h => h, rfl⟩

theorem Fuses.Le.trans {f g h : Fuses} (a : Fuses.Le f g) (b : Fuses.Le g h) : Fuses.Le f h :=
  ⟨Nat.le_trans a.floor b.floor, Nat.le_trans a.used b.used, fun k x => b.revoked k (a.revoked k x), b.hash.trans a.hash⟩

theorem Keeps.refl (s : State) : Keeps s s := ⟨id, rfl, Fuses.Le.refl _⟩

theorem Keeps.trans {s t u : State} (a : Keeps s t) (b : Keeps t u) : Keeps s u :=
  ⟨fun w => b.wf (a.wf w), b.queue.trans a.queue, a.fuses.trans b.fuses⟩

/-- An update of any fields but the registers, the memories, the fuses and the queue keeps everything. -/
theorem Keeps.put {s t : State} {x1 : Nat} {x2 : Nat} {x3 : Power} {x4 : Boot} {x7 : List Nat} {x8 : List (MemLoc × Nat)} {x9 : List (Nat × Received)} {x10 : Nat} {x12 : Vector Port 4} {x13 : List LongOp} {x14 : Option Staging} {x15 : Vector Stream 4} {x16 : Events} {x17 : List Task} {x18 : Vector Engine 16} {x19 : Pyrya} {x20 : Vector Axis 8} {x21 : Vector CmdIn 8} {x22 : Vector Leg 24} {x23 : Vector Chan 48} {x24 : Vector UnitSt 8} {x25 : List (Nat × Nat)} {x26 : Vector Link 4} {x27 : Vector Dsm 64} {x28 : Vector Conv 24} {x29 : Vector Comp 32} {x30 : Vector Plaus 32} {x31 : Vector PosPort 8} {x32 : Vector Emu 4} {x33 : Safety} {x34 : Vector Can 4} {x35 : Vector Eth 2} {x36 : Bgs} {x37 : Word} {x38 : BitVec 64} {x39 : Code} {x40 : Nat}
    (h : Keeps s t) :
    Keeps s (State.mk t.regs x1 x2 x3 x4 t.fuses t.sram x7 x8 x9 x10 t.nv x12 x13 x14 x15 x16 x17 x18 x19 x20 x21 x22 x23 x24 x25 x26 x27 x28 x29 x30 x31 x32 x33 x34 x35 x36 x37 x38 x39 x40 t.pending) :=
  h.trans ⟨fun w => ⟨w.sram, w.nv, w.regs⟩, rfl, Fuses.Le.refl _⟩

/-- The store changes nowhere in its bytes. -/
theorem Keeps.putNv {s t : State} {n : NvState} {x1 : Nat} {x2 : Nat} {x3 : Power} {x4 : Boot} {x7 : List Nat} {x8 : List (MemLoc × Nat)} {x9 : List (Nat × Received)} {x10 : Nat} {x12 : Vector Port 4} {x13 : List LongOp} {x14 : Option Staging} {x15 : Vector Stream 4} {x16 : Events} {x17 : List Task} {x18 : Vector Engine 16} {x19 : Pyrya} {x20 : Vector Axis 8} {x21 : Vector CmdIn 8} {x22 : Vector Leg 24} {x23 : Vector Chan 48} {x24 : Vector UnitSt 8} {x25 : List (Nat × Nat)} {x26 : Vector Link 4} {x27 : Vector Dsm 64} {x28 : Vector Conv 24} {x29 : Vector Comp 32} {x30 : Vector Plaus 32} {x31 : Vector PosPort 8} {x32 : Vector Emu 4} {x33 : Safety} {x34 : Vector Can 4} {x35 : Vector Eth 2} {x36 : Bgs} {x37 : Word} {x38 : BitVec 64} {x39 : Code} {x40 : Nat}
    (hn : n.bytes = t.nv.bytes) (h : Keeps s t) :
    Keeps s (State.mk t.regs x1 x2 x3 x4 t.fuses t.sram x7 x8 x9 x10 n x12 x13 x14 x15 x16 x17 x18 x19 x20 x21 x22 x23 x24 x25 x26 x27 x28 x29 x30 x31 x32 x33 x34 x35 x36 x37 x38 x39 x40 t.pending) :=
  h.trans ⟨fun w => ⟨w.sram, (show Memory.wf 0 n.bytes = true from hn ▸ w.nv), w.regs⟩, rfl, Fuses.Le.refl _⟩

theorem Keeps.ite {s t u : State} {c : Prop} [Decidable c] (ht : Keeps s t) (hu : Keeps s u) :
    Keeps s (if c then t else u) := by split <;> assumption

theorem State.setWord_keeps (r : Reg) (i : Nat) (v : Word) {s0 s : State} (h : Keeps s0 s) :
    Keeps s0 (s.setWord r i v) :=
  h.trans ⟨fun w => ⟨w.sram, w.nv, State.regs_setWord w.regs r i v⟩, rfl, Fuses.Le.refl _⟩

theorem State.p_keeps (f : FRef) (i : Nat) (x : Nat) {s0 s : State} (h : Keeps s0 s) :
    Keeps s0 (State.p s f i x) := by
  unfold State.p
  try dsimp only
  repeat' first | (with_reducible first | assumption | exact Keeps.refl _ | apply Keeps.ite | apply State.setWord_keeps) | (intro _ _ _ _; try dsimp only) | (intro _ _ _; try dsimp only) | split

theorem State.pb_keeps (f : FRef) (i : Nat) (b : Bool) {s0 s : State} (h : Keeps s0 s) :
    Keeps s0 (State.pb s f i b) := by
  unfold State.pb
  try dsimp only
  repeat' first | (with_reducible first | assumption | exact Keeps.refl _ | apply Keeps.ite | apply State.p_keeps) | (intro _ _ _ _; try dsimp only) | (intro _ _ _; try dsimp only) | split

theorem State.inc_keeps (f : FRef) (i : Nat) (n : Nat) {s0 s : State} (h : Keeps s0 s) :
    Keeps s0 (State.inc s f i n) := by
  unfold State.inc
  try dsimp only
  repeat' first | (with_reducible first | assumption | exact Keeps.refl _ | apply Keeps.ite | apply State.p_keeps) | (intro _ _ _ _; try dsimp only) | (intro _ _ _; try dsimp only) | split

theorem State.pbit_keeps (f : FRef) (i : Nat) (j : Nat) (b : Bool) {s0 s : State} (h : Keeps s0 s) :
    Keeps s0 (State.pbit s f i j b) := by
  unfold State.pbit
  try dsimp only
  repeat' first | (with_reducible first | assumption | exact Keeps.refl _ | apply Keeps.ite | apply State.p_keeps) | (intro _ _ _ _; try dsimp only) | (intro _ _ _; try dsimp only) | split

theorem State.used_keeps {s0 s : State} (h : Keeps s0 s) :
    Keeps s0 (State.used s) := by
  unfold State.used
  try dsimp only
  repeat' first | (with_reducible first | assumption | exact Keeps.refl _ | apply Keeps.ite) | (intro _ _ _ _; try dsimp only) | (intro _ _ _; try dsimp only) | split | (with_reducible first | apply Keeps.put | refine Keeps.putNv rfl ?_)

theorem State.raiseFull_keeps (isl : Nat) (src : Nat) (tag : Nat) (data : Word) (aux : BitVec 16) (port : Option (Fin 4)) {s0 s : State} (h : Keeps s0 s) :
    Keeps s0 (State.raiseFull s isl src tag data aux port) := by
  unfold State.raiseFull
  try dsimp only
  repeat' first | (with_reducible first | assumption | exact Keeps.refl _ | apply Keeps.ite) | (intro _ _ _ _; try dsimp only) | (intro _ _ _; try dsimp only) | split | (with_reducible first | apply Keeps.put | refine Keeps.putNv rfl ?_)

theorem State.raiseAt_keeps (stamp : Nat) (isl : Nat) (src : Nat) (tag : Nat) {s0 s : State} (h : Keeps s0 s) :
    Keeps s0 (State.raiseAt s stamp isl src tag) := by
  unfold State.raiseAt
  try dsimp only
  repeat' first | (with_reducible first | assumption | exact Keeps.refl _ | apply Keeps.ite) | (intro _ _ _ _; try dsimp only) | (intro _ _ _; try dsimp only) | split | (with_reducible first | apply Keeps.put | refine Keeps.putNv rfl ?_)

theorem State.raise_keeps (isl : Nat) (src : Nat) (tag : Nat) {s0 s : State} (h : Keeps s0 s) :
    Keeps s0 (State.raise s isl src tag) := by
  unfold State.raise
  try dsimp only
  repeat' first | (with_reducible first | assumption | exact Keeps.refl _ | apply Keeps.ite | apply State.raiseFull_keeps) | (intro _ _ _ _; try dsimp only) | (intro _ _ _; try dsimp only) | split

theorem State.afterCause_keeps (was : Machine.State) {s0 s : State} (h : Keeps s0 s) :
    Keeps s0 (State.afterCause was s) := by
  unfold State.afterCause
  try dsimp only
  repeat' first | (with_reducible first | assumption | exact Keeps.refl _ | apply Keeps.ite) | (intro _ _ _ _; try dsimp only) | (intro _ _ _; try dsimp only) | split | (with_reducible first | apply Keeps.put | refine Keeps.putNv rfl ?_)

theorem State.answer_keeps (n : Fin 4) (r : Resp) {s0 s : State} (h : Keeps s0 s) :
    Keeps s0 (State.answer s n r) := by
  unfold State.answer
  try dsimp only
  repeat' first | (with_reducible first | assumption | exact Keeps.refl _ | apply Keeps.ite | apply State.setWord_keeps | apply State.raiseFull_keeps) | (intro _ _ _ _; try dsimp only) | (intro _ _ _; try dsimp only) | split | (with_reducible first | apply Keeps.put | refine Keeps.putNv rfl ?_)

theorem State.setTask_keeps (t : Machine.Task) {s0 s : State} (h : Keeps s0 s) :
    Keeps s0 (State.setTask s t) := by
  unfold State.setTask
  try dsimp only
  repeat' first | (with_reducible first | assumption | exact Keeps.refl _ | apply Keeps.ite) | (intro _ _ _ _; try dsimp only) | (intro _ _ _; try dsimp only) | split | (with_reducible first | apply Keeps.put | refine Keeps.putNv rfl ?_)

theorem State.modTask_keeps (t : Nat) (f : Machine.Task → Machine.Task) {s0 s : State} (h : Keeps s0 s) :
    Keeps s0 (State.modTask s t f) := by
  unfold State.modTask
  try dsimp only
  repeat' first | (with_reducible first | assumption | exact Keeps.refl _ | apply Keeps.ite) | (intro _ _ _ _; try dsimp only) | (intro _ _ _; try dsimp only) | split | (with_reducible first | apply Keeps.put | refine Keeps.putNv rfl ?_)

theorem overL_keeps {α : Type} (l : List α) {f : α → State → State} (hf : ∀ a s0 s, Keeps s0 s → Keeps s0 (f a s))
    {s0 s : State} (h : Keeps s0 s) : Keeps s0 (overL l f s) := by
  unfold overL
  induction l generalizing s with
  | nil => exact h
  | cons a l ih => exact ih (hf a _ _ h)

theorem State.sramPut_keeps (a : Nat) (l : List Byte) {s0 s : State} (h : Keeps s0 s) : Keeps s0 (s.sramPut a l) :=
  h.trans ⟨fun w => ⟨Memory.wf_putBytes w.sram a l, w.nv, w.regs⟩, rfl, Fuses.Le.refl _⟩

theorem State.memUnc_keeps (isLocal : Bool) (num : Nat) {s0 s : State} (h : Keeps s0 s) :
    Keeps s0 (State.memUnc isLocal num s) := by
  unfold State.memUnc
  try dsimp only
  repeat' first | (with_reducible first | assumption | exact Keeps.refl _ | apply Keeps.ite | apply State.p_keeps | apply State.pb_keeps | apply State.raise_keeps) | (intro _ _ _ _; try dsimp only) | (intro _ _ _; try dsimp only) | split

theorem State.meetUpset_keeps (cw : Nat) (symbols : Nat) {s0 s : State} (h : Keeps s0 s) :
    Keeps s0 (State.meetUpset cw symbols s) := by
  unfold State.meetUpset
  try dsimp only
  repeat' first | (with_reducible first | assumption | exact Keeps.refl _ | apply Keeps.ite | apply State.inc_keeps | apply State.memUnc_keeps) | (intro _ _ _ _; try dsimp only) | (intro _ _ _; try dsimp only) | split | (with_reducible first | apply Keeps.put | refine Keeps.putNv rfl ?_)

theorem State.sramTouch_keeps (a : Nat) (n : Nat) {s0 s : State} (h : Keeps s0 s) :
    Keeps s0 (State.sramTouch a n s) := by
  unfold State.sramTouch
  try dsimp only
  repeat' first | (with_reducible first | assumption | exact Keeps.refl _ | apply Keeps.ite | apply overL_keeps | apply State.meetUpset_keeps) | (intro _ _ _ _; try dsimp only) | (intro _ _ _; try dsimp only) | split

theorem State.cleanse_keeps (a : Nat) (n : Nat) {s0 s : State} (h : Keeps s0 s) :
    Keeps s0 (State.cleanse a n s) := by
  unfold State.cleanse
  try dsimp only
  repeat' first | (with_reducible first | assumption | exact Keeps.refl _ | apply Keeps.ite) | (intro _ _ _ _; try dsimp only) | (intro _ _ _; try dsimp only) | split | (with_reducible first | apply Keeps.put | refine Keeps.putNv rfl ?_)

theorem State.localNew_keeps {s0 s : State} (h : Keeps s0 s) :
    Keeps s0 (State.localNew s) := by
  unfold State.localNew
  try dsimp only
  repeat' first | (with_reducible first | assumption | exact Keeps.refl _ | apply Keeps.ite) | (intro _ _ _ _; try dsimp only) | (intro _ _ _; try dsimp only) | split | (with_reducible first | apply Keeps.put | refine Keeps.putNv rfl ?_)

theorem State.segPut_keeps (t : Nat) (mbox : Bool) (passB : Bool) (off : Nat) (l : List Byte) {s0 s : State} (h : Keeps s0 s) :
    Keeps s0 (State.segPut t mbox passB off l s) := by
  unfold State.segPut
  try dsimp only
  repeat' first | (with_reducible first | assumption | exact Keeps.refl _ | apply Keeps.ite | apply State.modTask_keeps | apply State.localNew_keeps | apply State.sramPut_keeps) | (intro _ _ _ _; try dsimp only) | (intro _ _ _; try dsimp only) | split

theorem State.nvPut_keeps (a : Nat) (l : List Byte) (tag : BitVec 16) {s0 s : State} (h : Keeps s0 s) :
    Keeps s0 (s.nvPut a l tag) :=
  h.trans ⟨fun w => ⟨w.sram, Memory.wf_putBytes w.nv a l, w.regs⟩, rfl, Fuses.Le.refl _⟩

theorem State.logEntry_keeps (rec : List Byte) {s0 s : State} (h : Keeps s0 s) :
    Keeps s0 (State.logEntry rec s) := by
  unfold State.logEntry
  try dsimp only
  repeat' first | (with_reducible first | assumption | exact Keeps.refl _ | apply Keeps.ite) | (intro _ _ _ _; try dsimp only) | (intro _ _ _; try dsimp only) | split | (with_reducible first | apply Keeps.put | refine Keeps.putNv rfl ?_)

theorem State.qPush_keeps (q : Nat) (l : List Byte) {s0 s : State} (h : Keeps s0 s) :
    Keeps s0 (State.qPush q l s) := by
  unfold State.qPush
  try dsimp only
  repeat' first | (with_reducible first | assumption | exact Keeps.refl _ | apply Keeps.ite | apply State.inc_keeps | apply State.setWord_keeps | apply State.sramPut_keeps) | (intro _ _ _ _; try dsimp only) | (intro _ _ _; try dsimp only) | split

theorem State.qDrop_keeps (q : Nat) (n : Nat) {s0 s : State} (h : Keeps s0 s) :
    Keeps s0 (State.qDrop q n s) := by
  unfold State.qDrop
  try dsimp only
  repeat' first | (with_reducible first | assumption | exact Keeps.refl _ | apply Keeps.ite | apply State.setWord_keeps) | (intro _ _ _ _; try dsimp only) | (intro _ _ _; try dsimp only) | split

theorem State.forcePad_keeps (n : Nat) (lvl : Bool) {s0 s : State} (h : Keeps s0 s) :
    Keeps s0 (State.forcePad n lvl s) := by
  unfold State.forcePad
  try dsimp only
  repeat' first | (with_reducible first | assumption | exact Keeps.refl _ | apply Keeps.ite) | (intro _ _ _ _; try dsimp only) | (intro _ _ _; try dsimp only) | split | (with_reducible first | apply Keeps.put | refine Keeps.putNv rfl ?_)

theorem State.padLater_keeps (n : Nat) (lvl : Bool) (d : Nat) {s0 s : State} (h : Keeps s0 s) :
    Keeps s0 (State.padLater n lvl d s) := by
  unfold State.padLater
  try dsimp only
  repeat' first | (with_reducible first | assumption | exact Keeps.refl _ | apply Keeps.ite | apply State.forcePad_keeps) | (intro _ _ _ _; try dsimp only) | (intro _ _ _; try dsimp only) | split | (with_reducible first | apply Keeps.put | refine Keeps.putNv rfl ?_)

theorem State.padOff_keeps (n : Nat) {s0 s : State} (h : Keeps s0 s) :
    Keeps s0 (State.padOff n s) := by
  unfold State.padOff
  try dsimp only
  repeat' first | (with_reducible first | assumption | exact Keeps.refl _ | apply Keeps.ite | apply State.padLater_keeps) | (intro _ _ _ _; try dsimp only) | (intro _ _ _; try dsimp only) | split

theorem State.unitOff_keeps (u : Nat) {s0 s : State} (h : Keeps s0 s) :
    Keeps s0 (State.unitOff u s) := by
  unfold State.unitOff
  try dsimp only
  repeat' first | (with_reducible first | assumption | exact Keeps.refl _ | apply Keeps.ite | apply overL_keeps | apply State.padOff_keeps) | (intro _ _ _ _; try dsimp only) | (intro _ _ _; try dsimp only) | split

theorem State.setPat_keeps (u : Nat) (pat : Nat) {s0 s : State} (h : Keeps s0 s) :
    Keeps s0 (State.setPat u pat s) := by
  unfold State.setPat
  try dsimp only
  repeat' first | (with_reducible first | assumption | exact Keeps.refl _ | apply Keeps.ite | apply overL_keeps | apply State.p_keeps) | (intro _ _ _ _; try dsimp only) | (intro _ _ _; try dsimp only) | split

theorem State.setCause_keeps (u : Nat) (c : Nat) {s0 s : State} (h : Keeps s0 s) :
    Keeps s0 (State.setCause u c s) := by
  unfold State.setCause
  try dsimp only
  repeat' first | (with_reducible first | assumption | exact Keeps.refl _ | apply Keeps.ite | apply overL_keeps | apply State.p_keeps) | (intro _ _ _ _; try dsimp only) | (intro _ _ _; try dsimp only) | split

theorem State.holdOff_keeps (n : Nat) (st : Nat) {s0 s : State} (h : Keeps s0 s) :
    Keeps s0 (State.holdOff n st s) := by
  unfold State.holdOff
  try dsimp only
  repeat' first | (with_reducible first | assumption | exact Keeps.refl _ | apply Keeps.ite | apply State.setPat_keeps | apply State.unitOff_keeps) | (intro _ _ _ _; try dsimp only) | (intro _ _ _; try dsimp only) | split

theorem State.setAxis_keeps (n : Nat) (st : Nat) {s0 s : State} (h : Keeps s0 s) :
    Keeps s0 (State.setAxis n st s) := by
  unfold State.setAxis
  try dsimp only
  repeat' first | (with_reducible first | assumption | exact Keeps.refl _ | apply Keeps.ite | apply State.raise_keeps | apply State.p_keeps | apply State.pb_keeps | apply State.holdOff_keeps) | (intro _ _ _ _; try dsimp only) | (intro _ _ _; try dsimp only) | split | (with_reducible first | apply Keeps.put | refine Keeps.putNv rfl ?_)

theorem State.axesSafe_keeps (u : Nat) {s0 s : State} (h : Keeps s0 s) :
    Keeps s0 (State.axesSafe u s) := by
  unfold State.axesSafe
  try dsimp only
  repeat' first | (with_reducible first | assumption | exact Keeps.refl _ | apply Keeps.ite | apply overL_keeps | apply State.setAxis_keeps) | (intro _ _ _ _; try dsimp only) | (intro _ _ _; try dsimp only) | split

theorem State.armLink_keeps (l : Nat) {s0 s : State} (h : Keeps s0 s) :
    Keeps s0 (State.armLink l s) := by
  unfold State.armLink
  try dsimp only
  repeat' first | (with_reducible first | assumption | exact Keeps.refl _ | apply Keeps.ite | apply State.pb_keeps) | (intro _ _ _ _; try dsimp only) | (intro _ _ _; try dsimp only) | split | (with_reducible first | apply Keeps.put | refine Keeps.putNv rfl ?_)

theorem State.takePattern_keeps (u : Nat) (cause : Nat) (c : Nat × Bool × Bool) {s0 s : State} (h : Keeps s0 s) :
    Keeps s0 (State.takePattern u cause c s) := by
  unfold State.takePattern
  try dsimp only
  repeat' first | (with_reducible first | assumption | exact Keeps.refl _ | apply Keeps.ite | apply State.unitOff_keeps | apply State.raise_keeps | apply State.setCause_keeps | apply State.setPat_keeps | apply overL_keeps | apply State.pb_keeps | apply State.armLink_keeps) | (intro _ _ _ _; try dsimp only) | (intro _ _ _; try dsimp only) | split | (with_reducible first | apply Keeps.put | refine Keeps.putNv rfl ?_)

theorem State.windStop_keeps (u : Nat) {s0 s : State} (h : Keeps s0 s) :
    Keeps s0 (State.windStop u s) := by
  unfold State.windStop
  try dsimp only
  repeat' first | (with_reducible first | assumption | exact Keeps.refl _ | apply Keeps.ite | apply State.setPat_keeps | apply State.unitOff_keeps | apply State.raise_keeps | apply overL_keeps | apply State.pb_keeps) | (intro _ _ _ _; try dsimp only) | (intro _ _ _; try dsimp only) | split

theorem State.demand_keeps (k : Nat) (cause : Nat) (bySafe : Bool) {s0 s : State} (h : Keeps s0 s) :
    Keeps s0 (State.demand k cause bySafe s) := by
  unfold State.demand
  try dsimp only
  repeat' first | (with_reducible first | assumption | exact Keeps.refl _ | apply Keeps.ite | apply State.windStop_keeps | apply overL_keeps | apply State.pb_keeps | apply State.setCause_keeps | apply State.setPat_keeps | apply State.takePattern_keeps | apply State.axesSafe_keeps) | (intro _ _ _ _; try dsimp only) | (intro _ _ _; try dsimp only) | split | (with_reducible first | apply Keeps.put | refine Keeps.putNv rfl ?_)

theorem State.forceSto_keeps (src : StoSrc) (u : Nat) {s0 s : State} (h : Keeps s0 s) :
    Keeps s0 (State.forceSto src u s) := by
  unfold State.forceSto
  try dsimp only
  repeat' first | (with_reducible first | assumption | exact Keeps.refl _ | apply Keeps.ite | apply State.windStop_keeps | apply overL_keeps | apply State.pb_keeps | apply State.setCause_keeps | apply State.setPat_keeps | apply State.unitOff_keeps | apply State.raise_keeps | apply State.axesSafe_keeps) | (intro _ _ _ _; try dsimp only) | (intro _ _ _; try dsimp only) | split | (with_reducible first | apply Keeps.put | refine Keeps.putNv rfl ?_)

theorem State.relink_keeps {s0 s : State} (h : Keeps s0 s) :
    Keeps s0 (State.relink s) := by
  unfold State.relink
  try dsimp only
  repeat' first | (with_reducible first | assumption | exact Keeps.refl _ | apply Keeps.ite | apply overL_keeps | apply State.pb_keeps) | (intro _ _ _ _; try dsimp only) | (intro _ _ _; try dsimp only) | split | (with_reducible first | apply Keeps.put | refine Keeps.putNv rfl ?_)

theorem State.axesFree_keeps (u : Nat) {s0 s : State} (h : Keeps s0 s) :
    Keeps s0 (State.axesFree u s) := by
  unfold State.axesFree
  try dsimp only
  repeat' first | (with_reducible first | assumption | exact Keeps.refl _ | apply Keeps.ite | apply overL_keeps | apply State.setAxis_keeps) | (intro _ _ _ _; try dsimp only) | (intro _ _ _; try dsimp only) | split

theorem State.unitFree_keeps (u : Nat) {s0 s : State} (h : Keeps s0 s) :
    Keeps s0 (State.unitFree u s) := by
  unfold State.unitFree
  try dsimp only
  repeat' first | (with_reducible first | assumption | exact Keeps.refl _ | apply Keeps.ite | apply State.relink_keeps | apply State.setPat_keeps | apply State.unitOff_keeps | apply State.axesFree_keeps) | (intro _ _ _ _; try dsimp only) | (intro _ _ _; try dsimp only) | split | (with_reducible first | apply Keeps.put | refine Keeps.putNv rfl ?_)

theorem State.releaseDemand_keeps (u : Nat) {s0 s : State} (h : Keeps s0 s) :
    Keeps s0 (State.releaseDemand u s) := by
  unfold State.releaseDemand
  try dsimp only
  repeat' first | (with_reducible first | assumption | exact Keeps.refl _ | apply Keeps.ite | apply overL_keeps | apply State.pb_keeps | apply State.setCause_keeps | apply State.unitFree_keeps | apply State.relink_keeps) | (intro _ _ _ _; try dsimp only) | (intro _ _ _; try dsimp only) | split | (with_reducible first | apply Keeps.put | refine Keeps.putNv rfl ?_)

theorem State.demandAll_keeps (cause : Nat) (bySafe : Bool) {s0 s : State} (h : Keeps s0 s) :
    Keeps s0 (State.demandAll cause bySafe s) := by
  unfold State.demandAll
  try dsimp only
  repeat' first | (with_reducible first | assumption | exact Keeps.refl _ | apply Keeps.ite | apply overL_keeps | apply State.demand_keeps) | (intro _ _ _ _; try dsimp only) | (intro _ _ _; try dsimp only) | split

theorem State.refuse_keeps (tag : Nat) {s0 s : State} (h : Keeps s0 s) :
    Keeps s0 (State.refuse tag s) := by
  unfold State.refuse
  try dsimp only
  repeat' first | (with_reducible first | assumption | exact Keeps.refl _ | apply Keeps.ite | apply State.pb_keeps | apply State.raise_keeps) | (intro _ _ _ _; try dsimp only) | (intro _ _ _; try dsimp only) | split | (with_reducible first | apply Keeps.put | refine Keeps.putNv rfl ?_)

theorem State.modEng_keeps (e : Nat) (f : Engine → Engine) {s0 s : State} (h : Keeps s0 s) :
    Keeps s0 (State.modEng e f s) := by
  unfold State.modEng
  try dsimp only
  repeat' first | (with_reducible first | assumption | exact Keeps.refl _ | apply Keeps.ite) | (intro _ _ _ _; try dsimp only) | (intro _ _ _; try dsimp only) | split | (with_reducible first | apply Keeps.put | refine Keeps.putNv rfl ?_)

theorem State.setEst_keeps (e : Nat) (st : Nat) (reason : Nat) {s0 s : State} (h : Keeps s0 s) :
    Keeps s0 (State.setEst e st reason s) := by
  unfold State.setEst
  try dsimp only
  repeat' first | (with_reducible first | assumption | exact Keeps.refl _ | apply Keeps.ite | apply State.localNew_keeps | apply State.p_keeps) | (intro _ _ _ _; try dsimp only) | (intro _ _ _; try dsimp only) | split

theorem State.loadUpdate_keeps (e : Nat) {s0 s : State} (h : Keeps s0 s) :
    Keeps s0 (State.loadUpdate e s) := by
  unfold State.loadUpdate
  try dsimp only
  repeat' first | (with_reducible first | assumption | exact Keeps.refl _ | apply Keeps.ite | apply State.localNew_keeps | apply State.p_keeps) | (intro _ _ _ _; try dsimp only) | (intro _ _ _; try dsimp only) | split

theorem State.guarUpdate_keeps {s0 s : State} (h : Keeps s0 s) :
    Keeps s0 (State.guarUpdate s) := by
  unfold State.guarUpdate
  try dsimp only
  repeat' first | (with_reducible first | assumption | exact Keeps.refl _ | apply Keeps.ite | apply State.p_keeps | apply State.raise_keeps | apply State.pb_keeps) | (intro _ _ _ _; try dsimp only) | (intro _ _ _; try dsimp only) | split

theorem State.spareFlags_keeps {s0 s : State} (h : Keeps s0 s) :
    Keeps s0 (State.spareFlags s) := by
  unfold State.spareFlags
  try dsimp only
  repeat' first | (with_reducible first | assumption | exact Keeps.refl _ | apply Keeps.ite | apply State.pb_keeps | apply State.p_keeps | apply State.guarUpdate_keeps | apply State.raise_keeps) | (intro _ _ _ _; try dsimp only) | (intro _ _ _; try dsimp only) | split

theorem State.axesOff_keeps (t : Nat) {s0 s : State} (h : Keeps s0 s) :
    Keeps s0 (State.axesOff t s) := by
  unfold State.axesOff
  try dsimp only
  repeat' first | (with_reducible first | assumption | exact Keeps.refl _ | apply Keeps.ite | apply overL_keeps | apply State.setAxis_keeps) | (intro _ _ _ _; try dsimp only) | (intro _ _ _; try dsimp only) | split

theorem State.trimsReset_keeps (brs : List Nat) {s0 s : State} (h : Keeps s0 s) :
    Keeps s0 (State.trimsReset brs s) := by
  unfold State.trimsReset
  try dsimp only
  repeat' first | (with_reducible first | assumption | exact Keeps.refl _ | apply Keeps.ite | apply overL_keeps | apply State.p_keeps) | (intro _ _ _ _; try dsimp only) | (intro _ _ _; try dsimp only) | split | (with_reducible first | apply Keeps.put | refine Keeps.putNv rfl ?_)

theorem State.finish_keeps (n : Fin 4) (c : Code) (pl : List Word) {s0 s : State} (h : Keeps s0 s) :
    Keeps s0 (State.finish n c pl s) := by
  unfold State.finish
  try dsimp only
  repeat' first | (with_reducible first | assumption | exact Keeps.refl _ | apply Keeps.ite | apply State.answer_keeps) | (intro _ _ _ _; try dsimp only) | (intro _ _ _; try dsimp only) | split | (with_reducible first | apply Keeps.put | refine Keeps.putNv rfl ?_)

theorem State.answerGone_keeps (t : Nat) {s0 s : State} (h : Keeps s0 s) :
    Keeps s0 (State.answerGone t s) := by
  unfold State.answerGone
  try dsimp only
  repeat' first | (with_reducible first | assumption | exact Keeps.refl _ | apply Keeps.ite | apply overL_keeps | apply State.finish_keeps) | (intro _ _ _ _; try dsimp only) | (intro _ _ _; try dsimp only) | split

theorem State.removeTask_keeps (t : Nat) {s0 s : State} (h : Keeps s0 s) :
    Keeps s0 (State.removeTask t s) := by
  unfold State.removeTask
  try dsimp only
  repeat' first | (with_reducible first | assumption | exact Keeps.refl _ | apply Keeps.ite | apply State.axesOff_keeps | apply overL_keeps | apply State.pb_keeps | apply State.trimsReset_keeps | apply State.answerGone_keeps | apply State.loadUpdate_keeps | apply State.setWord_keeps) | (intro _ _ _ _; try dsimp only) | (intro _ _ _; try dsimp only) | split | (with_reducible first | apply Keeps.put | refine Keeps.putNv rfl ?_)

theorem State.drained_keeps (e : Nat) {s0 s : State} (h : Keeps s0 s) :
    Keeps s0 (State.drained e s) := by
  unfold State.drained
  try dsimp only
  repeat' first | (with_reducible first | assumption | exact Keeps.refl _ | apply Keeps.ite | apply State.setEst_keeps | apply State.modEng_keeps | apply State.raise_keeps) | (intro _ _ _ _; try dsimp only) | (intro _ _ _; try dsimp only) | split

theorem State.idleEngine_keeps (e : Nat) {s0 s : State} (h : Keeps s0 s) :
    Keeps s0 (State.idleEngine e s) := by
  unfold State.idleEngine
  try dsimp only
  repeat' first | (with_reducible first | assumption | exact Keeps.refl _ | apply Keeps.ite | apply State.setEst_keeps) | (intro _ _ _ _; try dsimp only) | (intro _ _ _; try dsimp only) | split

theorem State.markMoves_keeps (e : Nat) (dest : Nat → Option Nat) {s0 s : State} (h : Keeps s0 s) :
    Keeps s0 (State.markMoves e dest s) := by
  unfold State.markMoves
  try dsimp only
  repeat' first | (with_reducible first | assumption | exact Keeps.refl _ | apply Keeps.ite | apply overL_keeps | apply State.pb_keeps | apply State.modTask_keeps) | (intro _ _ _ _; try dsimp only) | (intro _ _ _; try dsimp only) | split

theorem State.taskSafe_keeps (t : Machine.Task) {s0 s : State} (h : Keeps s0 s) :
    Keeps s0 (State.taskSafe t s) := by
  unfold State.taskSafe
  try dsimp only
  repeat' first | (with_reducible first | assumption | exact Keeps.refl _ | apply Keeps.ite | apply overL_keeps | apply State.demand_keeps) | (intro _ _ _ _; try dsimp only) | (intro _ _ _; try dsimp only) | split

theorem State.loseTask_keeps (t : Nat) {s0 s : State} (h : Keeps s0 s) :
    Keeps s0 (State.loseTask t s) := by
  unfold State.loseTask
  try dsimp only
  repeat' first | (with_reducible first | assumption | exact Keeps.refl _ | apply Keeps.ite | apply State.removeTask_keeps | apply State.inc_keeps | apply State.raise_keeps | apply State.taskSafe_keeps) | (intro _ _ _ _; try dsimp only) | (intro _ _ _; try dsimp only) | split

theorem State.drainTo_keeps (e reason : Nat) {s0 s t : State} (h : Keeps s0 s) (ht : State.drainTo e reason s = some t) :
    Keeps s0 t := by
  unfold State.drainTo at ht
  split at ht
  · exact absurd ht (by simp)
  · cases ht
    exact State.markMoves_keeps _ _ (State.modEng_keeps _ _ (State.setEst_keeps _ _ _ (State.setEst_keeps _ _ _ h)))

theorem State.consolidate_keeps {s0 s t : State} (h : Keeps s0 s) (ht : State.consolidate s = some t) : Keeps s0 t := by
  unfold State.consolidate at ht
  try dsimp only at ht
  split at ht
  · exact absurd ht (by simp)
  · split at ht
    · exact absurd ht (by simp)
    · split at ht
      · exact absurd ht (by simp)
      · split at ht
        · exact absurd ht (by simp)
        · cases ht
          exact State.markMoves_keeps _ _ (State.setEst_keeps _ _ _ h)

theorem State.settle_keeps (again : Bool) (n : Nat) {s0 s : State} (h : Keeps s0 s) :
    Keeps s0 (State.settle again n s) := by
  induction n generalizing s with
  | zero => exact h
  | succ n ih =>
    have k : Keeps s0 (overL (List.range 16) (fun e s => State.idleEngine e (State.drained e s)) s) :=
      overL_keeps _ (fun _ _ _ k => State.idleEngine_keeps _ (State.drained_keeps _ k)) h
    unfold State.settle
    extract_lets s1 waiting retired want
    have k1 : Keeps s0 s1 := k
    clear_value s1
    cases hd : want.head?.bind fun x => State.drainTo x.1 x.2 s1 with
    | some t =>
      obtain ⟨x, -, hx⟩ := Option.bind_eq_some_iff.1 hd
      exact ih (State.drainTo_keeps _ _ k1 hx)
    | none =>
      dsimp only
      repeat' first
        | (with_reducible first | assumption | apply ih | apply Keeps.ite | apply State.spareFlags_keeps | refine State.consolidate_keeps ?_ (by assumption) | refine overL_keeps _ (fun _ _ _ k => State.loseTask_keeps _ k) ?_)
        | split

theorem State.plc_keeps {s0 s : State} (h : Keeps s0 s) :
    Keeps s0 (State.plc s) := by
  unfold State.plc
  try dsimp only
  repeat' first | (with_reducible first | assumption | exact Keeps.refl _ | apply Keeps.ite | apply State.settle_keeps) | (intro _ _ _ _; try dsimp only) | (intro _ _ _; try dsimp only) | split

theorem State.plcAgain_keeps {s0 s : State} (h : Keeps s0 s) :
    Keeps s0 (State.plcAgain s) := by
  unfold State.plcAgain
  try dsimp only
  repeat' first | (with_reducible first | assumption | exact Keeps.refl _ | apply Keeps.ite | apply State.settle_keeps) | (intro _ _ _ _; try dsimp only) | (intro _ _ _; try dsimp only) | split

theorem State.dropTask_keeps (t : Nat) {s0 s : State} (h : Keeps s0 s) :
    Keeps s0 (State.dropTask t s) := by
  unfold State.dropTask
  try dsimp only
  repeat' first | (with_reducible first | assumption | exact Keeps.refl _ | apply Keeps.ite | apply State.plcAgain_keeps | apply State.removeTask_keeps) | (intro _ _ _ _; try dsimp only) | (intro _ _ _; try dsimp only) | split

theorem State.undo_keeps (t : Nat) (p : Pass) {s0 s : State} (h : Keeps s0 s) :
    Keeps s0 (State.undo t p s) := by
  unfold State.undo
  try dsimp only
  repeat' first | (with_reducible first | assumption | exact Keeps.refl _ | apply Keeps.ite | apply overL_keeps | apply State.segPut_keeps) | (intro _ _ _ _; try dsimp only) | (intro _ _ _; try dsimp only) | split

theorem State.rollback_keeps (st : Step) {s0 s : State} (h : Keeps s0 s) :
    Keeps s0 (State.rollback st s) := by
  unfold State.rollback
  try dsimp only
  repeat' first | (with_reducible first | assumption | exact Keeps.refl _ | apply Keeps.ite | apply State.undo_keeps) | (intro _ _ _ _; try dsimp only) | (intro _ _ _; try dsimp only) | split

theorem State.endStep_keeps (t : Nat) {s0 s : State} (h : Keeps s0 s) :
    Keeps s0 (State.endStep t s) := by
  unfold State.endStep
  try dsimp only
  repeat' first | (with_reducible first | assumption | exact Keeps.refl _ | apply Keeps.ite) | (intro _ _ _ _; try dsimp only) | (intro _ _ _; try dsimp only) | split | (with_reducible first | apply Keeps.put | refine Keeps.putNv rfl ?_)

theorem State.abandonReady_keeps {s0 s : State} (h : Keeps s0 s) :
    Keeps s0 (State.abandonReady s) := by
  unfold State.abandonReady
  try dsimp only
  repeat' first | (with_reducible first | assumption | exact Keeps.refl _ | apply Keeps.ite | apply overL_keeps | apply State.finish_keeps) | (intro _ _ _ _; try dsimp only) | (intro _ _ _; try dsimp only) | split | (with_reducible first | apply Keeps.put | refine Keeps.putNv rfl ?_)

theorem State.sessRegs_keeps {s0 s : State} (h : Keeps s0 s) :
    Keeps s0 (State.sessRegs s) := by
  unfold State.sessRegs
  try dsimp only
  repeat' first | (with_reducible first | assumption | exact Keeps.refl _ | apply Keeps.ite | apply State.p_keeps | apply State.pb_keeps) | (intro _ _ _ _; try dsimp only) | (intro _ _ _; try dsimp only) | split

theorem State.sessEnd_keeps (tag : Nat) {s0 s : State} (h : Keeps s0 s) :
    Keeps s0 (State.sessEnd tag s) := by
  unfold State.sessEnd
  try dsimp only
  repeat' first | (with_reducible first | assumption | exact Keeps.refl _ | apply Keeps.ite | apply State.raise_keeps | apply State.sessRegs_keeps) | (intro _ _ _ _; try dsimp only) | (intro _ _ _; try dsimp only) | split | (with_reducible first | apply Keeps.put | refine Keeps.putNv rfl ?_)

theorem State.transition_keeps (new : Nat) (cause : Nat) (port : Option (Fin 4)) {s0 s : State} (h : Keeps s0 s) :
    Keeps s0 (State.transition new cause port s) := by
  unfold State.transition
  try dsimp only
  repeat' first | (with_reducible first | assumption | exact Keeps.refl _ | apply Keeps.ite | apply State.p_keeps | apply State.sessEnd_keeps | apply State.pb_keeps | apply State.raise_keeps) | (intro _ _ _ _; try dsimp only) | (intro _ _ _; try dsimp only) | split | (with_reducible first | apply Keeps.put | refine Keeps.putNv rfl ?_)

theorem State.retireSetups_keeps {s0 s : State} (h : Keeps s0 s) :
    Keeps s0 (State.retireSetups s) := by
  unfold State.retireSetups
  try dsimp only
  repeat' first | (with_reducible first | assumption | exact Keeps.refl _ | apply Keeps.ite) | (intro _ _ _ _; try dsimp only) | (intro _ _ _; try dsimp only) | split | (with_reducible first | apply Keeps.put | refine Keeps.putNv rfl ?_)

theorem State.enterSafe_keeps (cause : Nat) (port : Option (Fin 4)) {s0 s : State} (h : Keeps s0 s) :
    Keeps s0 (State.enterSafe cause port s) := by
  unfold State.enterSafe
  try dsimp only
  repeat' first | (with_reducible first | assumption | exact Keeps.refl _ | apply Keeps.ite | apply State.abandonReady_keeps | apply State.transition_keeps | apply State.retireSetups_keeps | apply State.pb_keeps | apply State.demandAll_keeps) | (intro _ _ _ _; try dsimp only) | (intro _ _ _; try dsimp only) | split | (with_reducible first | apply Keeps.put | refine Keeps.putNv rfl ?_)

theorem State.reactTo_keeps (t : Nat) {s0 s : State} (h : Keeps s0 s) :
    Keeps s0 (State.reactTo t s) := by
  unfold State.reactTo
  try dsimp only
  repeat' first | (with_reducible first | assumption | exact Keeps.refl _ | apply Keeps.ite | apply State.modTask_keeps | apply State.taskSafe_keeps | apply State.enterSafe_keeps) | (intro _ _ _ _; try dsimp only) | (intro _ _ _; try dsimp only) | split

theorem State.rejected_keeps (t : Nat) (late : Bool) {s0 s : State} (h : Keeps s0 s) :
    Keeps s0 (State.rejected t late s) := by
  unfold State.rejected
  try dsimp only
  repeat' first | (with_reducible first | assumption | exact Keeps.refl _ | apply Keeps.ite | apply State.modTask_keeps | apply State.dropTask_keeps | apply State.p_keeps | apply State.reactTo_keeps) | (intro _ _ _ _; try dsimp only) | (intro _ _ _; try dsimp only) | split

theorem State.lateStep_keeps (t : Nat) {s0 s : State} (h : Keeps s0 s) :
    Keeps s0 (State.lateStep t s) := by
  unfold State.lateStep
  try dsimp only
  repeat' first | (with_reducible first | assumption | exact Keeps.refl _ | apply Keeps.ite | apply State.raise_keeps | apply State.inc_keeps | apply State.reactTo_keeps) | (intro _ _ _ _; try dsimp only) | (intro _ _ _; try dsimp only) | split

theorem State.withhold_keeps (e : Nat) {s0 s : State} (h : Keeps s0 s) :
    Keeps s0 (State.withhold e s) := by
  unfold State.withhold
  try dsimp only
  repeat' first | (with_reducible first | assumption | exact Keeps.refl _ | apply Keeps.ite | apply overL_keeps | apply State.rejected_keeps | apply State.endStep_keeps | apply State.rollback_keeps) | (intro _ _ _ _; try dsimp only) | (intro _ _ _; try dsimp only) | split

theorem State.cancelMove_keeps (t : Nat) {s0 s : State} (h : Keeps s0 s) :
    Keeps s0 (State.cancelMove t s) := by
  unfold State.cancelMove
  try dsimp only
  repeat' first | (with_reducible first | assumption | exact Keeps.refl _ | apply Keeps.ite | apply State.pb_keeps | apply State.modTask_keeps) | (intro _ _ _ _; try dsimp only) | (intro _ _ _; try dsimp only) | split

theorem State.noDest_keeps (e : Nat) {s0 s : State} (h : Keeps s0 s) :
    Keeps s0 (State.noDest e s) := by
  unfold State.noDest
  try dsimp only
  repeat' first | (with_reducible first | assumption | exact Keeps.refl _ | apply Keeps.ite | apply overL_keeps | apply State.cancelMove_keeps | apply State.setEst_keeps) | (intro _ _ _ _; try dsimp only) | (intro _ _ _; try dsimp only) | split | (with_reducible first | apply Keeps.put | refine Keeps.putNv rfl ?_)

theorem State.retireEngine_keeps (e : Nat) {s0 s : State} (h : Keeps s0 s) :
    Keeps s0 (State.retireEngine e s) := by
  unfold State.retireEngine
  try dsimp only
  repeat' first | (with_reducible first | assumption | exact Keeps.refl _ | apply Keeps.ite | apply State.plcAgain_keeps | apply State.noDest_keeps | apply State.setEst_keeps | apply State.modEng_keeps) | (intro _ _ _ _; try dsimp only) | (intro _ _ _; try dsimp only) | split

theorem State.engineFailed_keeps (e : Nat) {s0 s : State} (h : Keeps s0 s) :
    Keeps s0 (State.engineFailed e s) := by
  unfold State.engineFailed
  try dsimp only
  repeat' first | (with_reducible first | assumption | exact Keeps.refl _ | apply Keeps.ite | apply State.retireEngine_keeps | apply State.withhold_keeps) | (intro _ _ _ _; try dsimp only) | (intro _ _ _; try dsimp only) | split

theorem State.charge_keeps (e : Nat) {s0 s : State} (h : Keeps s0 s) :
    Keeps s0 (State.charge e s) := by
  unfold State.charge
  try dsimp only
  repeat' first | (with_reducible first | assumption | exact Keeps.refl _ | apply Keeps.ite | apply State.retireEngine_keeps | apply State.raise_keeps | apply State.pbit_keeps | apply State.modEng_keeps | apply State.plcAgain_keeps | apply State.setEst_keeps) | (intro _ _ _ _; try dsimp only) | (intro _ _ _; try dsimp only) | split

theorem State.mboxPut_keeps (t : Nat) (off : Nat) (ws : List Word) {s0 s : State} (h : Keeps s0 s) :
    Keeps s0 (State.mboxPut t off ws s) := by
  unfold State.mboxPut
  try dsimp only
  repeat' first | (with_reducible first | assumption | exact Keeps.refl _ | apply Keeps.ite | apply overL_keeps | apply State.segPut_keeps) | (intro _ _ _ _; try dsimp only) | (intro _ _ _; try dsimp only) | split

theorem State.constStore_keeps (t : Machine.Task) {s0 s : State} (h : Keeps s0 s) :
    Keeps s0 (State.constStore t s) := by
  unfold State.constStore
  try dsimp only
  repeat' first | (with_reducible first | assumption | exact Keeps.refl _ | apply Keeps.ite | apply State.sramPut_keeps) | (intro _ _ _ _; try dsimp only) | (intro _ _ _; try dsimp only) | split

theorem State.segZero_keeps (t : Machine.Task) {s0 s : State} (h : Keeps s0 s) :
    Keeps s0 (State.segZero t s) := by
  unfold State.segZero
  try dsimp only
  repeat' first | (with_reducible first | assumption | exact Keeps.refl _ | apply Keeps.ite | apply State.sramPut_keeps) | (intro _ _ _ _; try dsimp only) | (intro _ _ _; try dsimp only) | split

theorem State.taskRegs_keeps (t : Nat) {s0 s : State} (h : Keeps s0 s) :
    Keeps s0 (State.taskRegs t s) := by
  unfold State.taskRegs
  try dsimp only
  repeat' first | (with_reducible first | assumption | exact Keeps.refl _ | apply Keeps.ite | apply State.setWord_keeps) | (intro _ _ _ _; try dsimp only) | (intro _ _ _; try dsimp only) | split

theorem State.commitMove_keeps (t : Nat) {s0 s : State} (h : Keeps s0 s) :
    Keeps s0 (State.commitMove t s) := by
  unfold State.commitMove
  try dsimp only
  repeat' first | (with_reducible first | assumption | exact Keeps.refl _ | apply Keeps.ite | apply State.loseTask_keeps | apply State.setEst_keeps | apply State.plcAgain_keeps | apply State.modTask_keeps | apply State.inc_keeps | apply State.pb_keeps | apply State.p_keeps | apply State.plc_keeps | apply State.raise_keeps | apply State.loadUpdate_keeps) | (intro _ _ _ _; try dsimp only) | (intro _ _ _; try dsimp only) | split

theorem State.modPos_keeps (p : Nat) (f : PosPort → PosPort) {s0 s : State} (h : Keeps s0 s) :
    Keeps s0 (State.modPos p f s) := by
  unfold State.modPos
  try dsimp only
  repeat' first | (with_reducible first | assumption | exact Keeps.refl _ | apply Keeps.ite) | (intro _ _ _ _; try dsimp only) | (intro _ _ _; try dsimp only) | split | (with_reducible first | apply Keeps.put | refine Keeps.putNv rfl ?_)

theorem State.putSpeed_keeps (p : Nat) (v : Int) (valid : Bool) {s0 s : State} (h : Keeps s0 s) :
    Keeps s0 (State.putSpeed p v valid s) := by
  unfold State.putSpeed
  try dsimp only
  repeat' first | (with_reducible first | assumption | exact Keeps.refl _ | apply Keeps.ite | apply State.pb_keeps | apply State.setWord_keeps) | (intro _ _ _ _; try dsimp only) | (intro _ _ _; try dsimp only) | split

theorem State.edgeSpeed_keeps (p : Nat) (down : Bool) {s0 s : State} (h : Keeps s0 s) :
    Keeps s0 (State.edgeSpeed p down s) := by
  unfold State.edgeSpeed
  try dsimp only
  repeat' first | (with_reducible first | assumption | exact Keeps.refl _ | apply Keeps.ite | apply State.pb_keeps | apply State.modPos_keeps | apply State.putSpeed_keeps) | (intro _ _ _ _; try dsimp only) | (intro _ _ _; try dsimp only) | split

theorem State.emuResume_keeps (e : Nat) {s0 s : State} (h : Keeps s0 s) :
    Keeps s0 (State.emuResume e s) := by
  unfold State.emuResume
  try dsimp only
  repeat' first | (with_reducible first | assumption | exact Keeps.refl _ | apply Keeps.ite | apply State.pb_keeps) | (intro _ _ _ _; try dsimp only) | (intro _ _ _; try dsimp only) | split

theorem State.modEmu_keeps (e : Nat) (f : Emu → Emu) {s0 s : State} (h : Keeps s0 s) :
    Keeps s0 (State.modEmu e f s) := by
  unfold State.modEmu
  try dsimp only
  repeat' first | (with_reducible first | assumption | exact Keeps.refl _ | apply Keeps.ite) | (intro _ _ _ _; try dsimp only) | (intro _ _ _; try dsimp only) | split | (with_reducible first | apply Keeps.put | refine Keeps.putNv rfl ?_)

theorem State.emuHold_keeps (e : Nat) {s0 s : State} (h : Keeps s0 s) :
    Keeps s0 (State.emuHold e s) := by
  unfold State.emuHold
  try dsimp only
  repeat' first | (with_reducible first | assumption | exact Keeps.refl _ | apply Keeps.ite | apply State.modEmu_keeps | apply State.pb_keeps) | (intro _ _ _ _; try dsimp only) | (intro _ _ _; try dsimp only) | split

theorem State.emuMove_keeps (d : Int) (e : Nat) {s0 s : State} (h : Keeps s0 s) :
    Keeps s0 (State.emuMove d e s) := by
  unfold State.emuMove
  try dsimp only
  repeat' first | (with_reducible first | assumption | exact Keeps.refl _ | apply Keeps.ite | apply State.emuResume_keeps | apply State.modEmu_keeps | apply State.emuHold_keeps | apply State.raise_keeps | apply State.pb_keeps) | (intro _ _ _ _; try dsimp only) | (intro _ _ _; try dsimp only) | split

theorem State.cmpFire_keeps (p : Nat) (j : Nat) (stamp : Nat) {s0 s : State} (h : Keeps s0 s) :
    Keeps s0 (State.cmpFire p j stamp s) := by
  unfold State.cmpFire
  try dsimp only
  repeat' first | (with_reducible first | assumption | exact Keeps.refl _ | apply Keeps.ite | apply State.raiseAt_keeps | apply State.setWord_keeps | apply State.pbit_keeps | apply State.pb_keeps) | (intro _ _ _ _; try dsimp only) | (intro _ _ _; try dsimp only) | split

theorem State.cmpUpdate_keeps (p : Nat) (c0 : Word) (d : Int) (stamp : Nat) {s0 s : State} (h : Keeps s0 s) :
    Keeps s0 (State.cmpUpdate p c0 d stamp s) := by
  unfold State.cmpUpdate
  try dsimp only
  repeat' first | (with_reducible first | assumption | exact Keeps.refl _ | apply Keeps.ite | apply overL_keeps | apply State.cmpFire_keeps) | (intro _ _ _ _; try dsimp only) | (intro _ _ _; try dsimp only) | split

theorem State.count_keeps (p : Nat) (down : Bool) {s0 s : State} (h : Keeps s0 s) :
    Keeps s0 (State.count p down s) := by
  unfold State.count
  try dsimp only
  repeat' first | (with_reducible first | assumption | exact Keeps.refl _ | apply Keeps.ite | apply State.edgeSpeed_keeps | apply State.setWord_keeps | apply overL_keeps | apply State.emuMove_keeps | apply State.cmpUpdate_keeps) | (intro _ _ _ _; try dsimp only) | (intro _ _ _; try dsimp only) | split

theorem State.mailboxDo_keeps (t : Nat) (q : MbReq) {s0 s : State} (h : Keeps s0 s) :
    Keeps s0 (State.mailboxDo t q s) := by
  unfold State.mailboxDo
  try dsimp only
  repeat' first | (with_reducible first | assumption | exact Keeps.refl _ | apply Keeps.ite | apply State.mboxPut_keeps | apply State.finish_keeps) | (intro _ _ _ _; try dsimp only) | (intro _ _ _; try dsimp only) | split

theorem State.mailboxAll_keeps (t : Nat) {s0 s : State} (h : Keeps s0 s) :
    Keeps s0 (State.mailboxAll t s) := by
  unfold State.mailboxAll
  try dsimp only
  repeat' first | (with_reducible first | assumption | exact Keeps.refl _ | apply Keeps.ite | apply overL_keeps | apply State.mailboxDo_keeps | apply State.modTask_keeps) | (intro _ _ _ _; try dsimp only) | (intro _ _ _; try dsimp only) | split

theorem State.retireDue_keeps (t : Nat) {s0 s : State} (h : Keeps s0 s) :
    Keeps s0 (State.retireDue t s) := by
  unfold State.retireDue
  try dsimp only
  repeat' first | (with_reducible first | assumption | exact Keeps.refl _ | apply Keeps.ite | apply State.p_keeps | apply State.dropTask_keeps) | (intro _ _ _ _; try dsimp only) | (intro _ _ _; try dsimp only) | split

theorem State.modConv_keeps (c : Nat) (f : Conv → Conv) {s0 s : State} (h : Keeps s0 s) :
    Keeps s0 (State.modConv c f s) := by
  unfold State.modConv
  try dsimp only
  repeat' first | (with_reducible first | assumption | exact Keeps.refl _ | apply Keeps.ite) | (intro _ _ _ _; try dsimp only) | (intro _ _ _; try dsimp only) | split | (with_reducible first | apply Keeps.put | refine Keeps.putNv rfl ?_)

theorem State.capture_keeps (c : Nat) {s0 s : State} (h : Keeps s0 s) : Keeps s0 (State.capture c s).1 := by
  unfold State.capture
  dsimp only
  repeat' first | assumption | split | exact State.modConv_keeps _ _ h

theorem State.captures_keeps (l : List (Nat × Nat)) {s0 s : State} (h : Keeps s0 s) : Keeps s0 (State.captures l s).2 := by
  induction l generalizing s with
  | nil => exact h
  | cons x l ih =>
    unfold State.captures
    dsimp only
    split
    · exact ih (State.capture_keeps _ h)
    · exact ih h

theorem State.sampleFrame_keeps (t : Task) {s0 s : State} (h : Keeps s0 s) : Keeps s0 (State.sampleFrame t s) := by
  unfold State.sampleFrame
  have k : Keeps s0 (if t.d.byBridge then State.captures t.d.smp s else (t.d.smp.map fun _ => false, s)).2 := by
    split
    · exact State.captures_keeps _ h
    · exact h
  exact State.modTask_keeps _ _ k

theorem State.markLate_keeps (t : Nat) {s0 s : State} (h : Keeps s0 s) :
    Keeps s0 (State.markLate t s) := by
  unfold State.markLate
  try dsimp only
  repeat' first | (with_reducible first | assumption | exact Keeps.refl _ | apply Keeps.ite) | (intro _ _ _ _; try dsimp only) | (intro _ _ _; try dsimp only) | split | (with_reducible first | apply Keeps.put | refine Keeps.putNv rfl ?_)

theorem State.boundaryStep_keeps (t : Nat) {s0 s : State} (h : Keeps s0 s) :
    Keeps s0 (State.boundaryStep t s) := by
  unfold State.boundaryStep
  try dsimp only
  repeat' first | (with_reducible first | assumption | exact Keeps.refl _ | apply Keeps.ite | apply State.lateStep_keeps | apply State.markLate_keeps | apply State.sampleFrame_keeps) | (intro _ _ _ _; try dsimp only) | (intro _ _ _; try dsimp only) | split

theorem State.modAxis_keeps (n : Nat) (f : Axis → Axis) {s0 s : State} (h : Keeps s0 s) :
    Keeps s0 (State.modAxis n f s) := by
  unfold State.modAxis
  try dsimp only
  repeat' first | (with_reducible first | assumption | exact Keeps.refl _ | apply Keeps.ite) | (intro _ _ _ _; try dsimp only) | (intro _ _ _; try dsimp only) | split | (with_reducible first | apply Keeps.put | refine Keeps.putNv rfl ?_)

theorem State.axGo_keeps (n r : Nat) {f : State → State} (hf : ∀ s0 s, Keeps s0 s → Keeps s0 (f s)) {s0 s : State}
    (h : Keeps s0 s) : Keeps s0 (State.axGo n r f s) := by
  unfold State.axGo
  dsimp only
  repeat' first
    | (with_reducible first | assumption | exact hf _ _ h | apply Keeps.ite | apply State.modAxis_keeps)
    | split

theorem State.axisToSafe_keeps (n : Nat) {s0 s : State} (h : Keeps s0 s) :
    Keeps s0 (State.axisToSafe n s) := by
  unfold State.axisToSafe
  try dsimp only
  repeat' first | (with_reducible first | assumption | exact Keeps.refl _ | apply Keeps.ite | apply State.setAxis_keeps | apply State.demand_keeps) | (intro _ _ _ _; try dsimp only) | (intro _ _ _; try dsimp only) | split

theorem State.axisSkip_keeps (n : Nat) (skipped : Bool) {s0 s : State} (h : Keeps s0 s) :
    Keeps s0 (State.axisSkip n skipped s) := by
  unfold State.axisSkip
  try dsimp only
  repeat' first | (with_reducible first | assumption | exact Keeps.refl _ | apply Keeps.ite | apply State.p_keeps | apply State.modAxis_keeps | apply State.raise_keeps | apply State.pb_keeps | apply State.axGo_keeps | apply State.axisToSafe_keeps) | (intro _ _ _ _; try dsimp only) | (intro _ _ _; try dsimp only) | split

theorem State.axisBoundary_keeps (n : Nat) (skipped : Bool) {s0 s : State} (h : Keeps s0 s) :
    Keeps s0 (State.axisBoundary n skipped s) := by
  unfold State.axisBoundary
  try dsimp only
  repeat' first | (with_reducible first | assumption | exact Keeps.refl _ | apply Keeps.ite | apply State.axisSkip_keeps | apply State.modAxis_keeps | apply State.used_keeps | apply State.mboxPut_keeps) | (intro _ _ _ _; try dsimp only) | (intro _ _ _; try dsimp only) | split

theorem State.takeFrame_keeps (n : Fin 4) (f : Frame) (l : List Frame) {s0 s : State} (h : Keeps s0 s) :
    Keeps s0 (State.takeFrame n f l s) := by
  unfold State.takeFrame
  try dsimp only
  repeat' first | (with_reducible first | assumption | exact Keeps.refl _ | apply Keeps.ite | apply State.setWord_keeps) | (intro _ _ _ _; try dsimp only) | (intro _ _ _; try dsimp only) | split | (with_reducible first | apply Keeps.put | refine Keeps.putNv rfl ?_)

theorem State.reply_keeps (n : Fin 4) (f : Frame) (c : Code) (pl : List Word) {s0 s : State} (h : Keeps s0 s) :
    Keeps s0 (State.reply n f c pl s) := by
  unfold State.reply
  try dsimp only
  repeat' first | (with_reducible first | assumption | exact Keeps.refl _ | apply Keeps.ite | apply State.answer_keeps) | (intro _ _ _ _; try dsimp only) | (intro _ _ _; try dsimp only) | split | (with_reducible first | apply Keeps.put | refine Keeps.putNv rfl ?_)

theorem State.orReject_keeps (n : Fin 4) (f : Frame) (c : Code) {go : State → State}
    (hg : ∀ s0 s, Keeps s0 s → Keeps s0 (go s)) {s0 s : State} (h : Keeps s0 s) : Keeps s0 (State.orReject n f c go s) := by
  unfold State.orReject
  split
  · exact hg _ _ h
  · exact State.reply_keeps _ _ _ _ h

theorem State.opStatusWords_keeps (n : Fin 4) (f : Frame) {s0 s : State} (h : Keeps s0 s) :
    Keeps s0 (State.opStatusWords n f s) := by
  unfold State.opStatusWords
  try dsimp only
  repeat' first | (with_reducible first | assumption | exact Keeps.refl _ | apply Keeps.ite | apply State.orReject_keeps | apply State.reply_keeps) | (intro _ _ _ _; try dsimp only) | (intro _ _ _; try dsimp only) | split

theorem State.readTouch_keeps (a : Nat) (n : Nat) {s0 s : State} (h : Keeps s0 s) :
    Keeps s0 (State.readTouch a n s) := by
  unfold State.readTouch
  try dsimp only
  repeat' first | (with_reducible first | assumption | exact Keeps.refl _ | apply Keeps.ite | apply State.sramTouch_keeps) | (intro _ _ _ _; try dsimp only) | (intro _ _ _; try dsimp only) | split

theorem State.readWord_keeps (n : Fin 4) (a : Nat) {s0 s : State} (h : Keeps s0 s) : Keeps s0 (State.readWord n a s).2 := by
  unfold State.readWord
  dsimp only
  repeat' first
    | (with_reducible first | assumption | exact State.used_keeps h | exact State.pbit_keeps _ _ _ _ h)
    | split
    | apply Keeps.put

theorem State.readWords_keeps (n : Fin 4) (a c : Nat) {s0 s : State} (h : Keeps s0 s) :
    Keeps s0 (State.readWords n a c s).2 := by
  induction c generalizing a s with
  | zero => exact h
  | succ c ih => exact ih _ (State.readWord_keeps n a h)

theorem State.opRead_keeps (n : Fin 4) (f : Frame) {s0 s : State} (h : Keeps s0 s) :
    Keeps s0 (State.opRead n f s) := by
  unfold State.opRead
  try dsimp only
  repeat' first | (with_reducible first | assumption | exact Keeps.refl _ | apply Keeps.ite | apply State.orReject_keeps | apply State.readTouch_keeps | apply State.reply_keeps | apply State.readWords_keeps) | (intro _ _ _ _; try dsimp only) | (intro _ _ _; try dsimp only) | split

theorem State.ring_keeps (n : Fin 4) (v : Word) {s0 s : State} (h : Keeps s0 s) :
    Keeps s0 (State.ring n v s) := by
  unfold State.ring
  try dsimp only
  repeat' first | (with_reducible first | assumption | exact Keeps.refl _ | apply Keeps.ite | apply State.raiseFull_keeps) | (intro _ _ _ _; try dsimp only) | (intro _ _ _; try dsimp only) | split

theorem State.unitHold_keeps (u : Nat) {s0 s : State} (h : Keeps s0 s) :
    Keeps s0 (State.unitHold u s) := by
  unfold State.unitHold
  try dsimp only
  repeat' first | (with_reducible first | assumption | exact Keeps.refl _ | apply Keeps.ite | apply State.unitOff_keeps | apply State.setPat_keeps) | (intro _ _ _ _; try dsimp only) | (intro _ _ _; try dsimp only) | split

theorem State.debugOn_keeps (e : Nat) {s0 s : State} (h : Keeps s0 s) :
    Keeps s0 (State.debugOn e s) := by
  unfold State.debugOn
  try dsimp only
  repeat' first | (with_reducible first | assumption | exact Keeps.refl _ | apply Keeps.ite | apply overL_keeps | apply State.undo_keeps | apply State.modEng_keeps | apply State.pb_keeps | apply State.guarUpdate_keeps | apply State.raise_keeps | apply State.unitHold_keeps | apply State.windStop_keeps) | (intro _ _ _ _; try dsimp only) | (intro _ _ _; try dsimp only) | split | (with_reducible first | apply Keeps.put | refine Keeps.putNv rfl ?_)

theorem State.debugOff_keeps (e : Nat) {s0 s : State} (h : Keeps s0 s) :
    Keeps s0 (State.debugOff e s) := by
  unfold State.debugOff
  try dsimp only
  repeat' first | (with_reducible first | assumption | exact Keeps.refl _ | apply Keeps.ite | apply State.modEng_keeps | apply State.plc_keeps | apply overL_keeps | apply State.dropTask_keeps | apply State.raise_keeps | apply State.guarUpdate_keeps | apply State.retireEngine_keeps) | (intro _ _ _ _; try dsimp only) | (intro _ _ _; try dsimp only) | split

theorem State.dbgApply_keeps (was : Machine.State) (step : Bool) {s0 s : State} (h : Keeps s0 s) :
    Keeps s0 (State.dbgApply was step s) := by
  unfold State.dbgApply
  try dsimp only
  repeat' first | (with_reducible first | assumption | exact Keeps.refl _ | apply Keeps.ite | apply State.debugOn_keeps | apply State.debugOff_keeps | apply State.modEng_keeps) | (intro _ _ _ _; try dsimp only) | (intro _ _ _; try dsimp only) | split

theorem State.canStart_keeps (c : Nat) {s0 s : State} (h : Keeps s0 s) :
    Keeps s0 (State.canStart c s) := by
  unfold State.canStart
  try dsimp only
  repeat' first | (with_reducible first | assumption | exact Keeps.refl _ | apply Keeps.ite | apply State.p_keeps | apply State.pb_keeps) | (intro _ _ _ _; try dsimp only) | (intro _ _ _; try dsimp only) | split

theorem State.qPushN_keeps (q : Nat) (n : Nat) {s0 s : State} (h : Keeps s0 s) :
    Keeps s0 (State.qPushN q n s) := by
  unfold State.qPushN
  try dsimp only
  repeat' first | (with_reducible first | assumption | exact Keeps.refl _ | apply Keeps.ite | apply State.setWord_keeps) | (intro _ _ _ _; try dsimp only) | (intro _ _ _; try dsimp only) | split

theorem State.mdioStart_keeps (m : Nat) {s0 s : State} (h : Keeps s0 s) :
    Keeps s0 (State.mdioStart m s) := by
  unfold State.mdioStart
  try dsimp only
  repeat' first | (with_reducible first | assumption | exact Keeps.refl _ | apply Keeps.ite | apply State.pb_keeps) | (intro _ _ _ _; try dsimp only) | (intro _ _ _; try dsimp only) | split | (with_reducible first | apply Keeps.put | refine Keeps.putNv rfl ?_)

theorem State.ptpApply_keeps {s0 s : State} (h : Keeps s0 s) :
    Keeps s0 (State.ptpApply s) := by
  unfold State.ptpApply
  try dsimp only
  repeat' first | (with_reducible first | assumption | exact Keeps.refl _ | apply Keeps.ite) | (intro _ _ _ _; try dsimp only) | (intro _ _ _; try dsimp only) | split | (with_reducible first | apply Keeps.put | refine Keeps.putNv rfl ?_)

theorem State.zeroize_keeps {s0 s : State} (h : Keeps s0 s) :
    Keeps s0 (State.zeroize s) := by
  unfold State.zeroize
  try dsimp only
  repeat' first | (with_reducible first | assumption | exact Keeps.refl _ | apply Keeps.ite | apply State.sessEnd_keeps | apply State.pb_keeps | apply State.sessRegs_keeps) | (intro _ _ _ _; try dsimp only) | (intro _ _ _; try dsimp only) | split | (with_reducible first | apply Keeps.put | refine Keeps.putNv rfl ?_)

theorem State.zeroizeNow_keeps {s0 s : State} (h : Keeps s0 s) :
    Keeps s0 (State.zeroizeNow s) := by
  unfold State.zeroizeNow
  try dsimp only
  repeat' first | (with_reducible first | assumption | exact Keeps.refl _ | apply Keeps.ite | apply State.raise_keeps | apply State.zeroize_keeps) | (intro _ _ _ _; try dsimp only) | (intro _ _ _; try dsimp only) | split

theorem State.fuseApply_keeps (w : Nat) {s0 s : State} (h : Keeps s0 s) : Keeps s0 (State.fuseApply w s) := by
  unfold State.fuseApply
  split
  · exact State.p_keeps _ _ _ (h.trans ⟨fun w => ⟨w.sram, w.nv, w.regs⟩, rfl, ⟨Nat.le_succ _, Nat.le_refl _, fun _ x => x, rfl⟩⟩)
  · refine State.p_keeps _ _ _ (h.trans ⟨fun w => ⟨w.sram, w.nv, w.regs⟩, rfl, ⟨Nat.le_refl _, Nat.le_refl _, fun k x => ?_, rfl⟩⟩)
    simp [x]
  · have k : Keeps s0 (({ s with fuses := { s.fuses with life := BitVec.ofNat 3 w } }).p SYS.BOOT_LIFE 0 (bits w 0 3)) :=
      State.p_keeps _ _ _ (h.trans ⟨fun w => ⟨w.sram, w.nv, w.regs⟩, rfl, ⟨Nat.le_refl _, Nat.le_refl _, fun _ x => x, rfl⟩⟩)
    split
    · exact State.zeroizeNow_keeps k
    · exact k
  · exact h

theorem State.dataHook_keeps (was : Machine.State) (n : Fin 4) (r : Reg) (k : Nat) (w : Nat) {s0 s : State} (h : Keeps s0 s) :
    Keeps s0 (State.dataHook was n r k w s) := by
  unfold State.dataHook
  try dsimp only
  repeat' first | (with_reducible first | assumption | exact Keeps.refl _ | apply Keeps.ite | apply State.setWord_keeps | apply State.ring_keeps | apply State.pb_keeps | apply State.dbgApply_keeps | apply State.canStart_keeps | apply State.qPushN_keeps | apply State.qDrop_keeps | apply State.mdioStart_keeps | apply State.ptpApply_keeps | apply State.guarUpdate_keeps | apply State.fuseApply_keeps | apply State.zeroizeNow_keeps) | (intro _ _ _ _; try dsimp only) | (intro _ _ _; try dsimp only) | split | (with_reducible first | apply Keeps.put | refine Keeps.putNv rfl ?_)

theorem State.putClass_keeps (n : Nat) (c : Nat) {s0 s : State} (h : Keeps s0 s) :
    Keeps s0 (State.putClass n c s) := by
  unfold State.putClass
  try dsimp only
  repeat' first | (with_reducible first | assumption | exact Keeps.refl _ | apply Keeps.ite | apply State.setWord_keeps) | (intro _ _ _ _; try dsimp only) | (intro _ _ _; try dsimp only) | split

theorem State.putLatch_keeps (n : Nat) (b : Bool) {s0 s : State} (h : Keeps s0 s) :
    Keeps s0 (State.putLatch n b s) := by
  unfold State.putLatch
  try dsimp only
  repeat' first | (with_reducible first | assumption | exact Keeps.refl _ | apply Keeps.ite | apply State.pbit_keeps) | (intro _ _ _ _; try dsimp only) | (intro _ _ _; try dsimp only) | split

theorem State.swClear_keeps (sw : List Nat) {s0 s : State} (h : Keeps s0 s) :
    Keeps s0 (State.swClear sw s) := by
  unfold State.swClear
  try dsimp only
  repeat' first | (with_reducible first | assumption | exact Keeps.refl _ | apply Keeps.ite | apply overL_keeps | apply State.putClass_keeps | apply State.putLatch_keeps) | (intro _ _ _ _; try dsimp only) | (intro _ _ _; try dsimp only) | split | (with_reducible first | apply Keeps.put | refine Keeps.putNv rfl ?_)

theorem State.modLink_keeps (l : Nat) (f : Link → Link) {s0 s : State} (h : Keeps s0 s) :
    Keeps s0 (State.modLink l f s) := by
  unfold State.modLink
  try dsimp only
  repeat' first | (with_reducible first | assumption | exact Keeps.refl _ | apply Keeps.ite) | (intro _ _ _ _; try dsimp only) | (intro _ _ _; try dsimp only) | split | (with_reducible first | apply Keeps.put | refine Keeps.putNv rfl ?_)

theorem State.linkWindStop_keeps (l : Nat) {s0 s : State} (h : Keeps s0 s) :
    Keeps s0 (State.linkWindStop l s) := by
  unfold State.linkWindStop
  try dsimp only
  repeat' first | (with_reducible first | assumption | exact Keeps.refl _ | apply Keeps.ite | apply State.windStop_keeps) | (intro _ _ _ _; try dsimp only) | (intro _ _ _; try dsimp only) | split

theorem State.dscStop_keeps (l : Nat) {s0 s : State} (h : Keeps s0 s) :
    Keeps s0 (State.dscStop l s) := by
  unfold State.dscStop
  try dsimp only
  repeat' first | (with_reducible first | assumption | exact Keeps.refl _ | apply Keeps.ite | apply State.modLink_keeps | apply State.linkWindStop_keeps) | (intro _ _ _ _; try dsimp only) | (intro _ _ _; try dsimp only) | split

theorem State.dscGo_keeps (l : Nat) {s0 s : State} (h : Keeps s0 s) :
    Keeps s0 (State.dscGo l s) := by
  unfold State.dscGo
  try dsimp only
  repeat' first | (with_reducible first | assumption | exact Keeps.refl _ | apply Keeps.ite | apply State.refuse_keeps | apply State.modLink_keeps) | (intro _ _ _ _; try dsimp only) | (intro _ _ _; try dsimp only) | split

theorem State.pairDischarge_keeps (i : Nat) {s0 s : State} (h : Keeps s0 s) :
    Keeps s0 (State.pairDischarge i s) := by
  unfold State.pairDischarge
  try dsimp only
  repeat' first | (with_reducible first | assumption | exact Keeps.refl _ | apply Keeps.ite | apply overL_keeps | apply State.dscGo_keeps) | (intro _ _ _ _; try dsimp only) | (intro _ _ _; try dsimp only) | split

theorem State.pairUpdate_keeps (i : Nat) {s0 s : State} (h : Keeps s0 s) :
    Keeps s0 (State.pairUpdate i s) := by
  unfold State.pairUpdate
  try dsimp only
  repeat' first | (with_reducible first | assumption | exact Keeps.refl _ | apply Keeps.ite | apply State.pb_keeps | apply State.pairDischarge_keeps) | (intro _ _ _ _; try dsimp only) | (intro _ _ _; try dsimp only) | split | (with_reducible first | apply Keeps.put | refine Keeps.putNv rfl ?_)

theorem State.modConn_keeps (c : Nat) (f : Conn → Conn) {s0 s : State} (h : Keeps s0 s) :
    Keeps s0 (State.modConn c f s) := by
  unfold State.modConn
  try dsimp only
  repeat' first | (with_reducible first | assumption | exact Keeps.refl _ | apply Keeps.ite) | (intro _ _ _ _; try dsimp only) | (intro _ _ _; try dsimp only) | split | (with_reducible first | apply Keeps.put | refine Keeps.putNv rfl ?_)

theorem State.gateHook_keeps (was : State) (r : Reg) (k w : Nat) {s0 s : State} (hw : Keeps s0 was) (h : Keeps s0 s) :
    Keeps s0 (State.gateHook was r k w s) := by
  unfold State.gateHook
  try dsimp only
  repeat' first
    | (with_reducible first | assumption | apply Keeps.ite | apply State.forcePad_keeps | apply State.swClear_keeps | apply State.forceSto_keeps | refine overL_keeps _ (fun _ _ _ k => State.releaseDemand_keeps _ k) ?_ | apply State.relink_keeps | refine overL_keeps _ (fun _ _ _ k => State.forcePad_keeps _ _ k) ?_ | refine overL_keeps _ (fun _ _ _ k => State.dscStop_keeps _ k) ?_ | refine overL_keeps _ (fun _ _ _ k => State.dscGo_keeps _ k) ?_ | apply State.pairUpdate_keeps | apply State.modConn_keeps)
    | split

theorem State.portStart_keeps (p : Nat) {s0 s : State} (h : Keeps s0 s) :
    Keeps s0 (State.portStart p s) := by
  unfold State.portStart
  try dsimp only
  repeat' first | (with_reducible first | assumption | exact Keeps.refl _ | apply Keeps.ite | apply State.putSpeed_keeps | apply State.pb_keeps | apply State.setWord_keeps | apply State.modPos_keeps) | (intro _ _ _ _; try dsimp only) | (intro _ _ _; try dsimp only) | split

theorem State.portStop_keeps (p : Nat) {s0 s : State} (h : Keeps s0 s) :
    Keeps s0 (State.portStop p s) := by
  unfold State.portStop
  try dsimp only
  repeat' first | (with_reducible first | assumption | exact Keeps.refl _ | apply Keeps.ite | apply overL_keeps | apply State.pbit_keeps | apply State.pb_keeps | apply State.modPos_keeps | apply State.emuHold_keeps) | (intro _ _ _ _; try dsimp only) | (intro _ _ _; try dsimp only) | split

theorem State.armIndex_keeps (p : Nat) {s0 s : State} (h : Keeps s0 s) :
    Keeps s0 (State.armIndex p s) := by
  unfold State.armIndex
  try dsimp only
  repeat' first | (with_reducible first | assumption | exact Keeps.refl _ | apply Keeps.ite | apply State.pb_keeps) | (intro _ _ _ _; try dsimp only) | (intro _ _ _; try dsimp only) | split

theorem State.cmpTest_keeps (p : Nat) (j : Nat) {s0 s : State} (h : Keeps s0 s) :
    Keeps s0 (State.cmpTest p j s) := by
  unfold State.cmpTest
  try dsimp only
  repeat' first | (with_reducible first | assumption | exact Keeps.refl _ | apply Keeps.ite | apply State.cmpFire_keeps | apply State.pbit_keeps) | (intro _ _ _ _; try dsimp only) | (intro _ _ _; try dsimp only) | split

theorem State.emuStart_keeps (e : Nat) {s0 s : State} (h : Keeps s0 s) :
    Keeps s0 (State.emuStart e s) := by
  unfold State.emuStart
  try dsimp only
  repeat' first | (with_reducible first | assumption | exact Keeps.refl _ | apply Keeps.ite | apply State.pb_keeps) | (intro _ _ _ _; try dsimp only) | (intro _ _ _; try dsimp only) | split | (with_reducible first | apply Keeps.put | refine Keeps.putNv rfl ?_)

theorem State.axIdle_keeps (n : Nat) {s0 s : State} (h : Keeps s0 s) :
    Keeps s0 (State.axIdle n s) := by
  unfold State.axIdle
  try dsimp only
  repeat' first | (with_reducible first | assumption | exact Keeps.refl _ | apply Keeps.ite | apply State.modAxis_keeps | apply State.setAxis_keeps) | (intro _ _ _ _; try dsimp only) | (intro _ _ _; try dsimp only) | split

theorem State.axOff_keeps (n : Nat) {s0 s : State} (h : Keeps s0 s) :
    Keeps s0 (State.axOff n s) := by
  unfold State.axOff
  try dsimp only
  repeat' first | (with_reducible first | assumption | exact Keeps.refl _ | apply Keeps.ite | apply State.setAxis_keeps) | (intro _ _ _ _; try dsimp only) | (intro _ _ _; try dsimp only) | split

theorem State.axStop_keeps (n : Nat) {s0 s : State} (h : Keeps s0 s) :
    Keeps s0 (State.axStop n s) := by
  unfold State.axStop
  try dsimp only
  repeat' first | (with_reducible first | assumption | exact Keeps.refl _ | apply Keeps.ite | apply State.axGo_keeps | apply State.setAxis_keeps | apply State.modAxis_keeps) | (intro _ _ _ _; try dsimp only) | (intro _ _ _; try dsimp only) | split

theorem State.axStart_keeps (n : Nat) {s0 s : State} (h : Keeps s0 s) :
    Keeps s0 (State.axStart n s) := by
  unfold State.axStart
  try dsimp only
  repeat' first | (with_reducible first | assumption | exact Keeps.refl _ | apply Keeps.ite | apply State.modAxis_keeps) | (intro _ _ _ _; try dsimp only) | (intro _ _ _; try dsimp only) | split

theorem State.cinValid_keeps (n : Nat) (v : Bool) {s0 s : State} (h : Keeps s0 s) :
    Keeps s0 (State.cinValid n v s) := by
  unfold State.cinValid
  try dsimp only
  repeat' first | (with_reducible first | assumption | exact Keeps.refl _ | apply Keeps.ite | apply State.pb_keeps | apply State.raise_keeps | apply State.axStop_keeps) | (intro _ _ _ _; try dsimp only) | (intro _ _ _; try dsimp only) | split | (with_reducible first | apply Keeps.put | refine Keeps.putNv rfl ?_)

theorem State.cinRestart_keeps (n : Nat) {s0 s : State} (h : Keeps s0 s) :
    Keeps s0 (State.cinRestart n s) := by
  unfold State.cinRestart
  try dsimp only
  repeat' first | (with_reducible first | assumption | exact Keeps.refl _ | apply Keeps.ite | apply State.cinValid_keeps | apply State.p_keeps) | (intro _ _ _ _; try dsimp only) | (intro _ _ _; try dsimp only) | split | (with_reducible first | apply Keeps.put | refine Keeps.putNv rfl ?_)

theorem State.motionHook_keeps (was : Machine.State) (r : Reg) (k : Nat) (w : Nat) {s0 s : State} (h : Keeps s0 s) :
    Keeps s0 (State.motionHook was r k w s) := by
  unfold State.motionHook
  try dsimp only
  repeat' first | (with_reducible first | assumption | exact Keeps.refl _ | apply Keeps.ite | apply State.portStart_keeps | apply State.portStop_keeps | apply State.armIndex_keeps | apply State.pbit_keeps | apply State.pb_keeps | apply State.cmpTest_keeps | apply State.emuStart_keeps | apply State.axIdle_keeps | apply State.axOff_keeps | apply State.axStop_keeps | apply State.axStart_keeps | apply State.cinRestart_keeps) | (intro _ _ _ _; try dsimp only) | (intro _ _ _; try dsimp only) | split

theorem State.modDsm_keeps (n : Nat) (f : Dsm → Dsm) {s0 s : State} (h : Keeps s0 s) :
    Keeps s0 (State.modDsm n f s) := by
  unfold State.modDsm
  try dsimp only
  repeat' first | (with_reducible first | assumption | exact Keeps.refl _ | apply Keeps.ite) | (intro _ _ _ _; try dsimp only) | (intro _ _ _; try dsimp only) | split | (with_reducible first | apply Keeps.put | refine Keeps.putNv rfl ?_)

theorem State.dsmRestart_keeps (n : Nat) {s0 s : State} (h : Keeps s0 s) :
    Keeps s0 (State.dsmRestart n s) := by
  unfold State.dsmRestart
  try dsimp only
  repeat' first | (with_reducible first | assumption | exact Keeps.refl _ | apply Keeps.ite | apply State.modDsm_keeps | apply State.pb_keeps) | (intro _ _ _ _; try dsimp only) | (intro _ _ _; try dsimp only) | split

theorem State.convRestart_keeps (c : Nat) {s0 s : State} (h : Keeps s0 s) :
    Keeps s0 (State.convRestart c s) := by
  unfold State.convRestart
  try dsimp only
  repeat' first | (with_reducible first | assumption | exact Keeps.refl _ | apply Keeps.ite | apply overL_keeps | apply State.pb_keeps | apply State.modConv_keeps) | (intro _ _ _ _; try dsimp only) | (intro _ _ _; try dsimp only) | split

theorem State.compRestart_keeps (n : Nat) {s0 s : State} (h : Keeps s0 s) :
    Keeps s0 (State.compRestart n s) := by
  unfold State.compRestart
  try dsimp only
  repeat' first | (with_reducible first | assumption | exact Keeps.refl _ | apply Keeps.ite) | (intro _ _ _ _; try dsimp only) | (intro _ _ _; try dsimp only) | split | (with_reducible first | apply Keeps.put | refine Keeps.putNv rfl ?_)

theorem State.rdbkApply_keeps (was : Word) {s0 s : State} (h : Keeps s0 s) :
    Keeps s0 (State.rdbkApply was s) := by
  unfold State.rdbkApply
  try dsimp only
  repeat' first | (with_reducible first | assumption | exact Keeps.refl _ | apply Keeps.ite | apply State.convRestart_keeps | apply State.modConv_keeps | apply State.pb_keeps) | (intro _ _ _ _; try dsimp only) | (intro _ _ _; try dsimp only) | split

theorem State.senseHook_keeps (was : Machine.State) (r : Reg) (k : Nat) {s0 s : State} (h : Keeps s0 s) :
    Keeps s0 (State.senseHook was r k s) := by
  unfold State.senseHook
  try dsimp only
  repeat' first | (with_reducible first | assumption | exact Keeps.refl _ | apply Keeps.ite | apply overL_keeps | apply State.dsmRestart_keeps | apply State.convRestart_keeps | apply State.compRestart_keeps | apply State.pb_keeps | apply State.rdbkApply_keeps) | (intro _ _ _ _; try dsimp only) | (intro _ _ _; try dsimp only) | split

theorem State.applyReg_keeps (n : Fin 4) (r : Reg) (k : Nat) (v : Word) {s0 s : State} (h : Keeps s0 s) :
    Keeps s0 (State.applyReg n r k v s) := by
  unfold State.applyReg
  try dsimp only
  repeat' first | (with_reducible first | assumption | exact Keeps.refl _ | apply Keeps.ite | apply State.setWord_keeps | apply State.dataHook_keeps | apply State.gateHook_keeps | apply State.motionHook_keeps | apply State.senseHook_keeps) | (intro _ _ _ _; try dsimp only) | (intro _ _ _; try dsimp only) | split

theorem State.applyWord_keeps (n : Fin 4) (x : Nat × Word) {s0 s : State} (h : Keeps s0 s) :
    Keeps s0 (State.applyWord n x s) := by
  unfold State.applyWord
  try dsimp only
  repeat' first | (with_reducible first | assumption | exact Keeps.refl _ | apply Keeps.ite | apply State.sramPut_keeps | apply State.applyReg_keeps) | (intro _ _ _ _; try dsimp only) | (intro _ _ _; try dsimp only) | split

theorem State.faultRegs_keeps (t : Nat) (which : Nat) (f : PassFault) {s0 s : State} (h : Keeps s0 s) :
    Keeps s0 (State.faultRegs t which f s) := by
  unfold State.faultRegs
  try dsimp only
  repeat' first | (with_reducible first | assumption | exact Keeps.refl _ | apply Keeps.ite | apply State.p_keeps) | (intro _ _ _ _; try dsimp only) | (intro _ _ _; try dsimp only) | split

theorem State.faultTold_keeps (e : Nat) (t : Nat) (which : Nat) (f : PassFault) {s0 s : State} (h : Keeps s0 s) :
    Keeps s0 (State.faultTold e t which f s) := by
  unfold State.faultTold
  try dsimp only
  repeat' first | (with_reducible first | assumption | exact Keeps.refl _ | apply Keeps.ite | apply State.raiseFull_keeps | apply State.inc_keeps | apply State.faultRegs_keeps) | (intro _ _ _ _; try dsimp only) | (intro _ _ _; try dsimp only) | split

theorem State.withdrawn_keeps (st : Step) {s0 s : State} (h : Keeps s0 s) :
    Keeps s0 (State.withdrawn st s) := by
  unfold State.withdrawn
  try dsimp only
  repeat' first | (with_reducible first | assumption | exact Keeps.refl _ | apply Keeps.ite | apply State.endStep_keeps | apply State.rollback_keeps) | (intro _ _ _ _; try dsimp only) | (intro _ _ _; try dsimp only) | split

theorem State.taskFault_keeps (e : Nat) (st : Step) (which : Nat) (f : PassFault) {s0 s : State} (h : Keeps s0 s) :
    Keeps s0 (State.taskFault e st which f s) := by
  unfold State.taskFault
  try dsimp only
  repeat' first | (with_reducible first | assumption | exact Keeps.refl _ | apply Keeps.ite | apply State.rejected_keeps | apply State.faultTold_keeps | apply State.withdrawn_keeps) | (intro _ _ _ _; try dsimp only) | (intro _ _ _; try dsimp only) | split

theorem State.pwmTo_keeps (br : Nat) (high : Bool) {f : State → State} (hf : ∀ s0 s, Keeps s0 s → Keeps s0 (f s))
    {s0 s : State} (h : Keeps s0 s) : Keeps s0 (State.pwmTo br high f s) := by
  unfold State.pwmTo
  repeat' first | assumption | apply State.refuse_keeps | apply hf | split

theorem State.relWrite_keeps (q : Nat) (k : Nat) (v : Word) {s0 s : State} (h : Keeps s0 s) :
    Keeps s0 (State.relWrite q k v s) := by
  unfold State.relWrite
  try dsimp only
  repeat' first | (with_reducible first | assumption | exact Keeps.refl _ | apply Keeps.ite | apply State.sramPut_keeps) | (intro _ _ _ _; try dsimp only) | (intro _ _ _; try dsimp only) | split

theorem State.relPush_keeps (q : Nat) {s0 s : State} (h : Keeps s0 s) :
    Keeps s0 (State.relPush q s) := by
  unfold State.relPush
  try dsimp only
  repeat' first | (with_reducible first | assumption | exact Keeps.refl _ | apply Keeps.ite | apply State.inc_keeps | apply State.setWord_keeps) | (intro _ _ _ _; try dsimp only) | (intro _ _ _; try dsimp only) | split

theorem State.relPop_keeps (q : Nat) {s0 s : State} (h : Keeps s0 s) :
    Keeps s0 (State.relPop q s) := by
  unfold State.relPop
  try dsimp only
  repeat' first | (with_reducible first | assumption | exact Keeps.refl _ | apply Keeps.ite | apply State.qDrop_keeps) | (intro _ _ _ _; try dsimp only) | (intro _ _ _; try dsimp only) | split

theorem State.putLeg_keeps (br : Nat) (leg : Nat) (c : LegCmd) {s0 s : State} (h : Keeps s0 s) :
    Keeps s0 (State.putLeg br leg c s) := by
  unfold State.putLeg
  try dsimp only
  repeat' first | (with_reducible first | assumption | exact Keeps.refl _ | apply Keeps.ite) | (intro _ _ _ _; try dsimp only) | (intro _ _ _; try dsimp only) | split | (with_reducible first | apply Keeps.put | refine Keeps.putNv rfl ?_)

theorem State.fltset_keeps (t : Machine.Task) (k : Nat) (code : Nat) (v : Word) {s0 s : State} (h : Keeps s0 s) :
    Keeps s0 (State.fltset t k code v s) := by
  unfold State.fltset
  try dsimp only
  repeat' first | (with_reducible first | assumption | exact Keeps.refl _ | apply Keeps.ite | apply State.raise_keeps | apply State.setWord_keeps | apply State.demand_keeps | apply State.forceSto_keeps | apply State.enterSafe_keeps) | (intro _ _ _ _; try dsimp only) | (intro _ _ _; try dsimp only) | split

theorem State.setupStep_keeps (t : Nat) {s0 s : State} (h : Keeps s0 s) :
    Keeps s0 (State.setupStep t s) := by
  unfold State.setupStep
  try dsimp only
  repeat' first | (with_reducible first | assumption | exact Keeps.refl _ | apply Keeps.ite | apply State.p_keeps | apply State.dropTask_keeps | apply State.raise_keeps) | (intro _ _ _ _; try dsimp only) | (intro _ _ _; try dsimp only) | split

theorem State.writeWords_keeps (w : Who) (a : Nat) (vs : List Word) {s0 s t : State} (h : Keeps s0 s)
    (ht : s.writeWords w a vs = .ok t) : Keeps s0 t := by
  unfold State.writeWords at ht
  split at ht
  · exact absurd ht (by simp)
  · dsimp only at ht
    split at ht
    · cases ht
      exact State.cleanse_keeps _ _ (overL_keeps _ (fun _ _ _ k => State.applyWord_keeps _ _ k) h)
    · exact absurd ht (by simp)

theorem Rel.item_keeps (t : Task) (flt : List Nat) (late : Bool) (r : Rel) (x : OutItem) {s0 : State} (h : Keeps s0 r.s) :
    Keeps s0 (Rel.item t flt late r x).s := by
  unfold Rel.item
  dsimp only
  split
  case h_1 =>
    unfold Rel.sta
    repeat' first
      | (with_reducible first | assumption | refine State.writeWords_keeps _ _ _ ?_ (by assumption) | apply State.raise_keeps | apply State.p_keeps)
      | split
  all_goals
    repeat' first
      | (with_reducible first | assumption | apply State.relWrite_keeps | apply State.relPush_keeps | apply State.relPop_keeps | refine State.pwmTo_keeps _ _ (fun _ _ k => ?_) ?_ | apply State.putLeg_keeps | apply State.p_keeps | apply State.fltset_keeps | apply State.raiseFull_keeps | apply State.modTask_keeps)
      | split

theorem Rel.items_keeps (t : Task) (flt : List Nat) (late : Bool) (l : List OutItem) {r : Rel} {s0 : State}
    (h : Keeps s0 r.s) : Keeps s0 (l.foldl (Rel.item t flt late) r).s := by
  induction l generalizing r with
  | nil => exact h
  | cons x l ih => exact ih (Rel.item_keeps t flt late r x h)

theorem State.acceptStep_keeps (e : Nat) (st : Step) {s0 s : State} (h : Keeps s0 s) :
    Keeps s0 (State.acceptStep e st s) := by
  unfold State.acceptStep
  split
  · exact h
  dsimp only
  repeat' first
    | (with_reducible first | assumption | apply Keeps.ite | apply State.setupStep_keeps | apply State.modTask_keeps | refine Rel.items_keeps _ _ _ _ ?_ | apply State.lateStep_keeps | apply State.modEng_keeps)
    | split

theorem State.dbgRelease_keeps {s0 s : State} (h : Keeps s0 s) :
    Keeps s0 (State.dbgRelease s) := by
  unfold State.dbgRelease
  try dsimp only
  repeat' first | (with_reducible first | assumption | exact Keeps.refl _ | apply Keeps.ite | apply overL_keeps | apply State.taskFault_keeps | apply State.acceptStep_keeps) | (intro _ _ _ _; try dsimp only) | (intro _ _ _; try dsimp only) | split

theorem State.localTouch_keeps (e : Nat) {s0 s : State} (h : Keeps s0 s) :
    Keeps s0 (State.localTouch e s) := by
  unfold State.localTouch
  try dsimp only
  repeat' first | (with_reducible first | assumption | exact Keeps.refl _ | apply Keeps.ite | apply overL_keeps | apply State.inc_keeps) | (intro _ _ _ _; try dsimp only) | (intro _ _ _; try dsimp only) | split | (with_reducible first | apply Keeps.put | refine Keeps.putNv rfl ?_)

theorem State.localFails_keeps (e : Nat) {s0 s : State} (h : Keeps s0 s) :
    Keeps s0 (State.localFails e s) := by
  unfold State.localFails
  try dsimp only
  repeat' first | (with_reducible first | assumption | exact Keeps.refl _ | apply Keeps.ite | apply State.memUnc_keeps | apply State.localTouch_keeps | apply State.afterCause_keeps | apply State.engineFailed_keeps) | (intro _ _ _ _; try dsimp only) | (intro _ _ _; try dsimp only) | split

theorem State.faultSafe_keeps {s0 s : State} (h : Keeps s0 s) :
    Keeps s0 (State.faultSafe s) := by
  unfold State.faultSafe
  try dsimp only
  repeat' first | (with_reducible first | assumption | exact Keeps.refl _ | apply Keeps.ite | apply State.enterSafe_keeps | apply State.demandAll_keeps) | (intro _ _ _ _; try dsimp only) | (intro _ _ _; try dsimp only) | split

theorem State.secondP_keeps {s0 s : State} (h : Keeps s0 s) :
    Keeps s0 (State.secondP s) := by
  unfold State.secondP
  try dsimp only
  repeat' first | (with_reducible first | assumption | exact Keeps.refl _ | apply Keeps.ite | apply State.faultSafe_keeps) | (intro _ _ _ _; try dsimp only) | (intro _ _ _; try dsimp only) | split | (with_reducible first | apply Keeps.put | refine Keeps.putNv rfl ?_)

theorem State.lastVerdict_keeps (cause : Nat) (e : Nat) (t : Nat) (item : Nat) {s0 s : State} (h : Keeps s0 s) :
    Keeps s0 (State.lastVerdict cause e t item s) := by
  unfold State.lastVerdict
  try dsimp only
  repeat' first | (with_reducible first | assumption | exact Keeps.refl _ | apply Keeps.ite | apply State.setWord_keeps) | (intro _ _ _ _; try dsimp only) | (intro _ _ _; try dsimp only) | split

theorem State.classPStep_keeps (e : Nat) (st : Step) (cause : Nat) {s0 s : State} (h : Keeps s0 s) :
    Keeps s0 (State.classPStep e st cause s) := by
  unfold State.classPStep
  try dsimp only
  repeat' first | (with_reducible first | assumption | exact Keeps.refl _ | apply Keeps.ite | apply State.raise_keeps | apply State.inc_keeps | apply State.lastVerdict_keeps | apply State.withdrawn_keeps | apply State.rejected_keeps) | (intro _ _ _ _; try dsimp only) | (intro _ _ _; try dsimp only) | split

theorem State.classP_keeps (e : Nat) (st : Step) (cause : Nat) {s0 s : State} (h : Keeps s0 s) :
    Keeps s0 (State.classP e st cause s) := by
  unfold State.classP
  try dsimp only
  repeat' first | (with_reducible first | assumption | exact Keeps.refl _ | apply Keeps.ite | apply State.secondP_keeps | apply State.classPStep_keeps) | (intro _ _ _ _; try dsimp only) | (intro _ _ _; try dsimp only) | split

theorem State.recordA_keeps (e : Nat) (t : Machine.Task) (st : Step) {s0 s : State} (h : Keeps s0 s) :
    Keeps s0 (State.recordA e t st s) := by
  unfold State.recordA
  try dsimp only
  repeat' first | (with_reducible first | assumption | exact Keeps.refl _ | apply Keeps.ite | apply State.classP_keeps | apply State.modEng_keeps) | (intro _ _ _ _; try dsimp only) | (intro _ _ _; try dsimp only) | split

theorem State.judge_keeps (e : Nat) (st : Step) {s0 s : State} (h : Keeps s0 s) :
    Keeps s0 (State.judge e st s) := by
  unfold State.judge
  try dsimp only
  repeat' first | (with_reducible first | assumption | exact Keeps.refl _ | apply Keeps.ite | apply State.modEng_keeps) | (intro _ _ _ _; try dsimp only) | (intro _ _ _; try dsimp only) | split

theorem State.passFault_keeps (e : Nat) (r : Run) (f : Flt) {s0 s : State} (h : Keeps s0 s) :
    Keeps s0 (State.passFault e r f s) := by
  unfold State.passFault
  try dsimp only
  repeat' first | (with_reducible first | assumption | exact Keeps.refl _ | apply Keeps.ite | apply State.taskFault_keeps | apply State.recordA_keeps | apply State.judge_keeps) | (intro _ _ _ _; try dsimp only) | (intro _ _ _; try dsimp only) | split

theorem State.passEnd_keeps (e : Nat) (r : Run) (p : Pass) {s0 s : State} (h : Keeps s0 s) :
    Keeps s0 (State.passEnd e r p s) := by
  unfold State.passEnd
  try dsimp only
  repeat' first | (with_reducible first | assumption | exact Keeps.refl _ | apply Keeps.ite | apply State.acceptStep_keeps | apply State.recordA_keeps | apply State.judge_keeps) | (intro _ _ _ _; try dsimp only) | (intro _ _ _; try dsimp only) | split

theorem State.setStep_keeps (e : Nat) (st : Step) {s0 s : State} (h : Keeps s0 s) :
    Keeps s0 (State.setStep e st s) := by
  unfold State.setStep
  try dsimp only
  repeat' first | (with_reducible first | assumption | exact Keeps.refl _ | apply Keeps.ite | apply State.modEng_keeps) | (intro _ _ _ _; try dsimp only) | (intro _ _ _; try dsimp only) | split

end Sys2Proof.Machine
end

