-- ==== Sys2Proof/Laws/KeepsInstr.lean ====
section
/-! SUPPORT. What the instructions of an engine keep, and so every instruction that a fetch gives. -/

namespace Sys2Proof.Machine

set_option linter.unusedTactic false
set_option linter.unreachableTactic false

/-- What a run leaves, if it does not fault, keeps everything. -/
def KeepsRun (s : State) : Except Flt Run → Prop
  | .ok r => Keeps s r.s
  | .error _ => True

theorem KeepsRun.bind {α : Type} {s : State} {x : Except Flt α} {g : α → Except Flt Run}
    (h : ∀ a, x = .ok a → KeepsRun s (g a)) : KeepsRun s (x >>= g) := by
  cases x with
  | error e => trivial
  | ok a => exact h a rfl

theorem KeepsRun.bindRun {s : State} {x : Except Flt Run} {g : Run → Except Flt Run} (hx : KeepsRun s x)
    (h : ∀ r, Keeps s r.s → KeepsRun s (g r)) : KeepsRun s (x >>= g) := by
  cases x with
  | error e => trivial
  | ok a => exact h a hx

theorem KeepsRun.ok {s : State} {r : Run} (h : Keeps s r.s) : KeepsRun s (.ok r) := h

theorem KeepsRun.ret {s : State} {r : Run} (h : Keeps s r.s) : KeepsRun s (pure r) := h

theorem KeepsRun.error {s : State} {e : Flt} : KeepsRun s (.error e) := trivial

theorem Run.setP_keeps (p : Pass) {s : State} {r : Run} (h : Keeps s r.s) : Keeps s (r.setP p).s := h

theorem Run.wr_keeps (i : Nat) (v : Word) (b c : Bool) {s : State} {r : Run} (h : Keeps s r.s) : Keeps s (r.wr i v b c).s := by
  unfold Run.wr; split <;> exact h

theorem Run.wrI_keeps (i : Nat) (v : Int) (b : Bool) {s : State} {r : Run} (h : Keeps s r.s) : Keeps s (r.wrI i v b).s :=
  Run.wr_keeps _ _ _ _ h

theorem Run.wrF_keeps (i : Fin 32) (v : Word) (b : Bool) {s : State} {r : Run} (h : Keeps s r.s) : Keeps s (r.wrF i v b).s :=
  Run.wr_keeps _ _ _ _ h

theorem Run.wrA_keeps (i : Fin 8) (v : Int) (b : Bool) {s : State} {r : Run} (h : Keeps s r.s) : Keeps s (r.wrA i v b).s := h

theorem Run.putStw_keeps (v : Word) {s : State} {r : Run} (h : Keeps s r.s) : Keeps s (r.putStw v).s := by
  unfold Run.putStw; dsimp only; split <;> exact h

theorem Run.flag_keeps (v : Word) {s : State} {r : Run} (h : Keeps s r.s) : Keeps s (r.flag v).s := Run.putStw_keeps _ h

theorem Run.out_keeps (x : OutItem) {s : State} {r : Run} (h : Keeps s r.s) : Keeps s (r.out x).s := h

theorem Run.copyTo_keeps (g : Fin 32) (x : GReg) {s : State} {r : Run} (h : Keeps s r.s) : Keeps s (r.copyTo g x).s :=
  Run.wr_keeps _ _ _ _ h

theorem Run.wrGroup_keeps (i : Nat) (p : Bool) (l : List Int) {s : State} {r : Run} (h : Keeps s r.s) :
    Keeps s (r.wrGroup i p l).s := by
  unfold Run.wrGroup
  generalize (List.range l.length).zip l = m
  induction m generalizing r with
  | nil => exact h
  | cons x m ih => exact ih (Run.wrI_keeps _ _ _ h)

theorem Run.jumpTo_run (b : Int) {s : State} {r : Run} (h : Keeps s r.s) : KeepsRun s (r.jumpTo b) := by
  unfold Run.jumpTo; exact .bind fun _ _ => h

theorem Run.outAbs_run (x : OutItem) {s : State} {r : Run} (h : Keeps s r.s) : KeepsRun s (r.outAbs x) := by
  unfold Run.outAbs; exact .bind fun _ _ => h

theorem Run.record_run (x : LogEntry) {s : State} {r : Run} (h : Keeps s r.s) : KeepsRun s (r.record x) := by
  unfold Run.record; exact .bind fun _ _ => h

theorem Run.pwmOut_run (k : Fin 32) (x : OutItem) (f : Word) {s : State} {r : Run} (h : Keeps s r.s) :
    KeepsRun s (r.pwmOut k x f) := by
  unfold Run.pwmOut
  exact .bind fun _ _ => .bind fun _ _ => .bind fun _ _ => Run.flag_keeps _ (Run.out_keeps _ h)

theorem Run.touch_keeps (x : Ea) (n : Nat) {s : State} {r : Run} (h : Keeps s r.s) : Keeps s (r.touch x n).s := by
  unfold Run.touch
  split
  · exact State.sramTouch_keeps _ _ h
  · exact h

theorem Run.ldaTouch_keeps (a : Nat) {s : State} {r : Run} (h : Keeps s r.s) : Keeps s (r.ldaTouch a).s := by
  unfold Run.ldaTouch
  split
  · exact State.sramTouch_keeps _ _ h
  · exact h

theorem Run.store_run (x : Ea) (l : List Byte) {s : State} {r : Run} (h : Keeps s r.s) : KeepsRun s (r.store x l) := by
  unfold Run.store
  dsimp only
  exact .bind fun _ _ => State.segPut_keeps _ _ _ _ _ (Run.touch_keeps _ _ h)

theorem Run.replay_keeps (key : Nat) {s : State} {r : Run} (h : Keeps s r.s) {x : LogEntry} {r1 : Run}
    (e : r.replay key = .ok (x, r1)) : Keeps s r1.s := by
  unfold Run.replay at e
  cases hn : need (decide (r.p.logPos < 32)) cIOLIM with
  | error f => rw [hn] at e; exact absurd e (by simp [bind, Except.bind])
  | ok u =>
    rw [hn] at e
    simp only [bind, Except.bind] at e
    repeat' split at e
    all_goals first | (cases e; exact h) | exact absurd e (by simp)

theorem Run.liveLoad_keeps (a : Nat) {s : State} {r : Run} (h : Keeps s r.s) {v : Word} {hi : Option Word} {r1 : Run}
    (e : r.liveLoad a = .ok (v, hi, r1)) : Keeps s r1.s := by
  unfold Run.liveLoad at e
  have hu : Keeps s r.s.used := State.used_keeps h
  split at e
  · split at e
    · exact absurd e (by simp)
    · cases e; exact h
  · cases hw : r.s.absWord a with
    | error c => rw [hw] at e; exact absurd e (by simp [bind, Except.bind])
    | ok w =>
      rw [hw] at e
      have k : Keeps s (if freeArea a then { r with s := r.s.used } else r).s := by split <;> assumption
      generalize (if freeArea a then { r with s := r.s.used } else r) = r2 at e k
      simp only [bind, Except.bind, pure, Except.pure] at e
      repeat' split at e
      all_goals first | (cases e; first | exact k | exact State.pbit_keeps _ _ _ _ k) | exact absurd e (by simp)

theorem aluL_run (f : Int → Int → Int × Word) (gd : Fin 32) (a : Opd) (b : Opd) {s : State} {r : Run} (h : Keeps s r.s) : KeepsRun s (aluL f gd a b r) := by
  unfold aluL
  try dsimp only
  repeat' first | (with_reducible first | assumption | exact KeepsRun.error | apply KeepsRun.ok | apply KeepsRun.ret | apply Run.wrI_keeps | apply Run.flag_keeps | refine KeepsRun.bind (fun _ _ => ?_)) | split | dsimp only

theorem aluL1_run (f : Int → Int × Word) (gd : Fin 32) (a : Opd) {s : State} {r : Run} (h : Keeps s r.s) : KeepsRun s (aluL1 f gd a r) := by
  unfold aluL1
  try dsimp only
  repeat' first | (with_reducible first | assumption | exact KeepsRun.error | apply KeepsRun.ok | apply KeepsRun.ret | apply Run.wrI_keeps | apply Run.flag_keeps | refine KeepsRun.bind (fun _ _ => ?_)) | split | dsimp only

theorem aluS_run (f : Int → Int → Int) (f' : Int → Int → Int) (gd : Fin 32) (a : Opd) (b : Opd) {s : State} {r : Run} (h : Keeps s r.s) : KeepsRun s (aluS f f' gd a b r) := by
  unfold aluS
  try dsimp only
  repeat' first | (with_reducible first | assumption | exact KeepsRun.error | apply KeepsRun.ok | apply KeepsRun.ret | apply Run.wrI_keeps | apply Run.flag_keeps | refine KeepsRun.bind (fun _ _ => ?_)) | split | dsimp only

theorem aluT_run (f : Int → Int → Bool) (f' : Int → Int → Bool) (gd : Fin 32) (a : Opd) (b : Opd) {s : State} {r : Run} (h : Keeps s r.s) : KeepsRun s (aluT f f' gd a b r) := by
  unfold aluT
  try dsimp only
  repeat' first | (with_reducible first | assumption | exact KeepsRun.error | apply KeepsRun.ok | apply KeepsRun.ret | apply Run.wrI_keeps | apply Run.flag_keeps | refine KeepsRun.bind (fun _ _ => ?_)) | split | dsimp only

theorem aluN_run (f : Word → Word → Word × Word) (gd : Fin 32) (a : Opd) (b : Opd) {s : State} {r : Run} (h : Keeps s r.s) : KeepsRun s (aluN f gd a b r) := by
  unfold aluN
  try dsimp only
  repeat' first | (with_reducible first | assumption | exact KeepsRun.error | apply KeepsRun.ok | apply KeepsRun.ret | apply Run.wr_keeps | apply Run.flag_keeps | refine KeepsRun.bind (fun _ _ => ?_)) | split | dsimp only

theorem opAdds_run (gd : Fin 32) (a : Opd) (b : Opd) {s : State} {r : Run} (h : Keeps s r.s) : KeepsRun s (opAdds gd a b r) := by
  unfold opAdds
  try dsimp only
  repeat' first | (with_reducible first | assumption | exact KeepsRun.error | apply KeepsRun.ok | apply KeepsRun.ret | apply aluL_run | refine KeepsRun.bind (fun _ _ => ?_)) | split | dsimp only

theorem opSubs_run (gd : Fin 32) (a : Opd) (b : Opd) {s : State} {r : Run} (h : Keeps s r.s) : KeepsRun s (opSubs gd a b r) := by
  unfold opSubs
  try dsimp only
  repeat' first | (with_reducible first | assumption | exact KeepsRun.error | apply KeepsRun.ok | apply KeepsRun.ret | apply aluL_run | refine KeepsRun.bind (fun _ _ => ?_)) | split | dsimp only

theorem opNegs_run (gd : Fin 32) (a : Opd) {s : State} {r : Run} (h : Keeps s r.s) : KeepsRun s (opNegs gd a r) := by
  unfold opNegs
  try dsimp only
  repeat' first | (with_reducible first | assumption | exact KeepsRun.error | apply KeepsRun.ok | apply KeepsRun.ret | apply aluL1_run | refine KeepsRun.bind (fun _ _ => ?_)) | split | dsimp only

theorem opAbss_run (gd : Fin 32) (a : Opd) {s : State} {r : Run} (h : Keeps s r.s) : KeepsRun s (opAbss gd a r) := by
  unfold opAbss
  try dsimp only
  repeat' first | (with_reducible first | assumption | exact KeepsRun.error | apply KeepsRun.ok | apply KeepsRun.ret | apply Run.wrI_keeps | apply Run.flag_keeps | refine KeepsRun.bind (fun _ _ => ?_)) | split | dsimp only

theorem opMulq_run (gd : Fin 32) (a : Opd) (b : Opd) {s : State} {r : Run} (h : Keeps s r.s) : KeepsRun s (opMulq gd a b r) := by
  unfold opMulq
  try dsimp only
  repeat' first | (with_reducible first | assumption | exact KeepsRun.error | apply KeepsRun.ok | apply KeepsRun.ret | apply Run.wrI_keeps | apply Run.flag_keeps | refine KeepsRun.bind (fun _ _ => ?_)) | split | dsimp only

theorem opDivq_run (gd : Fin 32) (a : Opd) (b : Opd) {s : State} {r : Run} (h : Keeps s r.s) : KeepsRun s (opDivq gd a b r) := by
  unfold opDivq
  try dsimp only
  repeat' first | (with_reducible first | assumption | exact KeepsRun.error | apply KeepsRun.ok | apply KeepsRun.ret | apply Run.wrI_keeps | apply Run.flag_keeps | refine KeepsRun.bind (fun _ _ => ?_)) | split | dsimp only

theorem opMin_run (gd : Fin 32) (a : Opd) (b : Opd) {s : State} {r : Run} (h : Keeps s r.s) : KeepsRun s (opMin gd a b r) := by
  unfold opMin
  try dsimp only
  repeat' first | (with_reducible first | assumption | exact KeepsRun.error | apply KeepsRun.ok | apply KeepsRun.ret | apply aluS_run | refine KeepsRun.bind (fun _ _ => ?_)) | split | dsimp only

theorem opMax_run (gd : Fin 32) (a : Opd) (b : Opd) {s : State} {r : Run} (h : Keeps s r.s) : KeepsRun s (opMax gd a b r) := by
  unfold opMax
  try dsimp only
  repeat' first | (with_reducible first | assumption | exact KeepsRun.error | apply KeepsRun.ok | apply KeepsRun.ret | apply aluS_run | refine KeepsRun.bind (fun _ _ => ?_)) | split | dsimp only

theorem opClips_run (gd : Fin 32) (a : Opd) (b : Opd) {s : State} {r : Run} (h : Keeps s r.s) : KeepsRun s (opClips gd a b r) := by
  unfold opClips
  try dsimp only
  repeat' first | (with_reducible first | assumption | exact KeepsRun.error | apply KeepsRun.ok | apply KeepsRun.ret | apply aluL_run | refine KeepsRun.bind (fun _ _ => ?_)) | split | dsimp only

theorem opClipr_run (gd : Fin 32) (a : Opd) (b : Opd) (c : Opd) {s : State} {r : Run} (h : Keeps s r.s) : KeepsRun s (opClipr gd a b c r) := by
  unfold opClipr
  try dsimp only
  repeat' first | (with_reducible first | assumption | exact KeepsRun.error | apply KeepsRun.ok | apply KeepsRun.ret | apply Run.wrI_keeps | apply Run.flag_keeps | refine KeepsRun.bind (fun _ _ => ?_)) | split | dsimp only

theorem opShls_run (gd : Fin 32) (a : Opd) (n : Nat) {s : State} {r : Run} (h : Keeps s r.s) : KeepsRun s (opShls gd a n r) := by
  unfold opShls
  try dsimp only
  repeat' first | (with_reducible first | assumption | exact KeepsRun.error | apply KeepsRun.ok | apply KeepsRun.ret | apply aluL1_run | refine KeepsRun.bind (fun _ _ => ?_)) | split | dsimp only

theorem opShrq_run (gd : Fin 32) (a : Opd) (n : Nat) {s : State} {r : Run} (h : Keeps s r.s) : KeepsRun s (opShrq gd a n r) := by
  unfold opShrq
  try dsimp only
  repeat' first | (with_reducible first | assumption | exact KeepsRun.error | apply KeepsRun.ok | apply KeepsRun.ret | apply aluL1_run | refine KeepsRun.bind (fun _ _ => ?_)) | split | dsimp only

theorem opSqrtq_run (gd : Fin 32) (a : Opd) {s : State} {r : Run} (h : Keeps s r.s) : KeepsRun s (opSqrtq gd a r) := by
  unfold opSqrtq
  try dsimp only
  repeat' first | (with_reducible first | assumption | exact KeepsRun.error | apply KeepsRun.ok | apply KeepsRun.ret | apply Run.wr_keeps | apply Run.flag_keeps | refine KeepsRun.bind (fun _ _ => ?_)) | split | dsimp only

theorem opAddw_run (gd : Fin 32) (a : Opd) (b : Opd) {s : State} {r : Run} (h : Keeps s r.s) : KeepsRun s (opAddw gd a b r) := by
  unfold opAddw
  try dsimp only
  repeat' first | (with_reducible first | assumption | exact KeepsRun.error | apply KeepsRun.ok | apply KeepsRun.ret | apply aluN_run | refine KeepsRun.bind (fun _ _ => ?_)) | split | dsimp only

theorem opSubw_run (gd : Fin 32) (a : Opd) (b : Opd) {s : State} {r : Run} (h : Keeps s r.s) : KeepsRun s (opSubw gd a b r) := by
  unfold opSubw
  try dsimp only
  repeat' first | (with_reducible first | assumption | exact KeepsRun.error | apply KeepsRun.ok | apply KeepsRun.ret | apply aluN_run | refine KeepsRun.bind (fun _ _ => ?_)) | split | dsimp only

theorem opMulw_run (gd : Fin 32) (a : Opd) (b : Opd) {s : State} {r : Run} (h : Keeps s r.s) : KeepsRun s (opMulw gd a b r) := by
  unfold opMulw
  try dsimp only
  repeat' first | (with_reducible first | assumption | exact KeepsRun.error | apply KeepsRun.ok | apply KeepsRun.ret | apply aluN_run | refine KeepsRun.bind (fun _ _ => ?_)) | split | dsimp only

theorem opDivw_run (gd : Fin 32) (a : Opd) (b : Opd) {s : State} {r : Run} (h : Keeps s r.s) : KeepsRun s (opDivw gd a b r) := by
  unfold opDivw
  try dsimp only
  repeat' first | (with_reducible first | assumption | exact KeepsRun.error | apply KeepsRun.ok | apply KeepsRun.ret | apply aluN_run | refine KeepsRun.bind (fun _ _ => ?_)) | split | dsimp only

theorem opAnd_run (gd : Fin 32) (a : Opd) (b : Opd) {s : State} {r : Run} (h : Keeps s r.s) : KeepsRun s (opAnd gd a b r) := by
  unfold opAnd
  try dsimp only
  repeat' first | (with_reducible first | assumption | exact KeepsRun.error | apply KeepsRun.ok | apply KeepsRun.ret | apply aluN_run | refine KeepsRun.bind (fun _ _ => ?_)) | split | dsimp only

theorem opOr_run (gd : Fin 32) (a : Opd) (b : Opd) {s : State} {r : Run} (h : Keeps s r.s) : KeepsRun s (opOr gd a b r) := by
  unfold opOr
  try dsimp only
  repeat' first | (with_reducible first | assumption | exact KeepsRun.error | apply KeepsRun.ok | apply KeepsRun.ret | apply aluN_run | refine KeepsRun.bind (fun _ _ => ?_)) | split | dsimp only

theorem opXor_run (gd : Fin 32) (a : Opd) (b : Opd) {s : State} {r : Run} (h : Keeps s r.s) : KeepsRun s (opXor gd a b r) := by
  unfold opXor
  try dsimp only
  repeat' first | (with_reducible first | assumption | exact KeepsRun.error | apply KeepsRun.ok | apply KeepsRun.ret | apply aluN_run | refine KeepsRun.bind (fun _ _ => ?_)) | split | dsimp only

theorem opShl_run (gd : Fin 32) (a : Opd) (b : Opd) {s : State} {r : Run} (h : Keeps s r.s) : KeepsRun s (opShl gd a b r) := by
  unfold opShl
  try dsimp only
  repeat' first | (with_reducible first | assumption | exact KeepsRun.error | apply KeepsRun.ok | apply KeepsRun.ret | apply aluN_run | refine KeepsRun.bind (fun _ _ => ?_)) | split | dsimp only

theorem opShr_run (gd : Fin 32) (a : Opd) (b : Opd) {s : State} {r : Run} (h : Keeps s r.s) : KeepsRun s (opShr gd a b r) := by
  unfold opShr
  try dsimp only
  repeat' first | (with_reducible first | assumption | exact KeepsRun.error | apply KeepsRun.ok | apply KeepsRun.ret | apply aluN_run | refine KeepsRun.bind (fun _ _ => ?_)) | split | dsimp only

theorem opShra_run (gd : Fin 32) (a : Opd) (b : Opd) {s : State} {r : Run} (h : Keeps s r.s) : KeepsRun s (opShra gd a b r) := by
  unfold opShra
  try dsimp only
  repeat' first | (with_reducible first | assumption | exact KeepsRun.error | apply KeepsRun.ok | apply KeepsRun.ret | apply aluN_run | refine KeepsRun.bind (fun _ _ => ?_)) | split | dsimp only

theorem opClz_run (gd : Fin 32) (a : Opd) {s : State} {r : Run} (h : Keeps s r.s) : KeepsRun s (opClz gd a r) := by
  unfold opClz
  try dsimp only
  repeat' first | (with_reducible first | assumption | exact KeepsRun.error | apply KeepsRun.ok | apply KeepsRun.ret | apply aluN_run | refine KeepsRun.bind (fun _ _ => ?_)) | split | dsimp only

theorem opMov_run (gd : Fin 32) (a : Opd) {s : State} {r : Run} (h : Keeps s r.s) : KeepsRun s (opMov gd a r) := by
  unfold opMov
  try dsimp only
  repeat' first | (with_reducible first | assumption | exact KeepsRun.error | apply KeepsRun.ok | apply KeepsRun.ret | apply Run.copyTo_keeps | refine KeepsRun.bind (fun _ _ => ?_)) | split | dsimp only

theorem opCsel_run (gd : Fin 32) (a : Opd) (b : Opd) (c : Opd) {s : State} {r : Run} (h : Keeps s r.s) : KeepsRun s (opCsel gd a b c r) := by
  unfold opCsel
  try dsimp only
  repeat' first | (with_reducible first | assumption | exact KeepsRun.error | apply KeepsRun.ok | apply KeepsRun.ret | apply Run.copyTo_keeps | refine KeepsRun.bind (fun _ _ => ?_)) | split | dsimp only

theorem opSeq_run (gd : Fin 32) (a : Opd) (b : Opd) {s : State} {r : Run} (h : Keeps s r.s) : KeepsRun s (opSeq gd a b r) := by
  unfold opSeq
  try dsimp only
  repeat' first | (with_reducible first | assumption | exact KeepsRun.error | apply KeepsRun.ok | apply KeepsRun.ret | apply aluT_run | refine KeepsRun.bind (fun _ _ => ?_)) | split | dsimp only

theorem opSlt_run (gd : Fin 32) (a : Opd) (b : Opd) {s : State} {r : Run} (h : Keeps s r.s) : KeepsRun s (opSlt gd a b r) := by
  unfold opSlt
  try dsimp only
  repeat' first | (with_reducible first | assumption | exact KeepsRun.error | apply KeepsRun.ok | apply KeepsRun.ret | apply aluT_run | refine KeepsRun.bind (fun _ _ => ?_)) | split | dsimp only

theorem opSle_run (gd : Fin 32) (a : Opd) (b : Opd) {s : State} {r : Run} (h : Keeps s r.s) : KeepsRun s (opSle gd a b r) := by
  unfold opSle
  try dsimp only
  repeat' first | (with_reducible first | assumption | exact KeepsRun.error | apply KeepsRun.ok | apply KeepsRun.ret | apply aluT_run | refine KeepsRun.bind (fun _ _ => ?_)) | split | dsimp only

theorem opSltu_run (gd : Fin 32) (a : Opd) (b : Opd) {s : State} {r : Run} (h : Keeps s r.s) : KeepsRun s (opSltu gd a b r) := by
  unfold opSltu
  try dsimp only
  repeat' first | (with_reducible first | assumption | exact KeepsRun.error | apply KeepsRun.ok | apply KeepsRun.ret | apply aluN_run | refine KeepsRun.bind (fun _ _ => ?_)) | split | dsimp only

theorem opImm_run (gd : Fin 32) (w : Word) {s : State} {r : Run} (h : Keeps s r.s) : KeepsRun s (opImm gd w r) := by
  unfold opImm
  try dsimp only
  repeat' first | (with_reducible first | assumption | exact KeepsRun.error | apply KeepsRun.ok | apply KeepsRun.ret | apply Run.wr_keeps | refine KeepsRun.bind (fun _ _ => ?_)) | split | dsimp only

theorem opIllegal_run {s : State} {r : Run} (_h : Keeps s r.s) : KeepsRun s (opIllegal  r) := by
  unfold opIllegal
  try dsimp only
  repeat' first | (with_reducible first | assumption | exact KeepsRun.error | apply KeepsRun.ok | apply KeepsRun.ret | refine KeepsRun.bind (fun _ _ => ?_)) | split | dsimp only

theorem opAclr_run (ad : Fin 8) {s : State} {r : Run} (h : Keeps s r.s) : KeepsRun s (opAclr ad r) := by
  unfold opAclr
  try dsimp only
  repeat' first | (with_reducible first | assumption | exact KeepsRun.error | apply KeepsRun.ok | apply KeepsRun.ret | apply Run.wrA_keeps | refine KeepsRun.bind (fun _ _ => ?_)) | split | dsimp only

theorem opMula_run (ad : Fin 8) (ga : Fin 32) (gb : Fin 32) {s : State} {r : Run} (h : Keeps s r.s) : KeepsRun s (opMula ad ga gb r) := by
  unfold opMula
  try dsimp only
  repeat' first | (with_reducible first | assumption | exact KeepsRun.error | apply KeepsRun.ok | apply KeepsRun.ret | apply Run.wrA_keeps | apply Run.flag_keeps | refine KeepsRun.bind (fun _ _ => ?_)) | split | dsimp only

theorem opMac_run (sub : Bool) (ad : Fin 8) (ga : Fin 32) (gb : Fin 32) {s : State} {r : Run} (h : Keeps s r.s) : KeepsRun s (opMac sub ad ga gb r) := by
  unfold opMac
  try dsimp only
  repeat' first | (with_reducible first | assumption | exact KeepsRun.error | apply KeepsRun.ok | apply KeepsRun.ret | apply Run.wrA_keeps | apply Run.flag_keeps | refine KeepsRun.bind (fun _ _ => ?_)) | split | dsimp only

theorem opAmov_run (ad : Fin 8) (src : Fin 8) {s : State} {r : Run} (h : Keeps s r.s) : KeepsRun s (opAmov ad src r) := by
  unfold opAmov
  try dsimp only
  repeat' first | (with_reducible first | assumption | exact KeepsRun.error | apply KeepsRun.ok | apply KeepsRun.ret | apply Run.wrA_keeps | apply Run.flag_keeps | refine KeepsRun.bind (fun _ _ => ?_)) | split | dsimp only

theorem opAadd_run (ad : Fin 8) (src : Fin 8) {s : State} {r : Run} (h : Keeps s r.s) : KeepsRun s (opAadd ad src r) := by
  unfold opAadd
  try dsimp only
  repeat' first | (with_reducible first | assumption | exact KeepsRun.error | apply KeepsRun.ok | apply KeepsRun.ret | apply Run.wrA_keeps | apply Run.flag_keeps | refine KeepsRun.bind (fun _ _ => ?_)) | split | dsimp only

theorem opAneg_run (ad : Fin 8) (src : Fin 8) {s : State} {r : Run} (h : Keeps s r.s) : KeepsRun s (opAneg ad src r) := by
  unfold opAneg
  try dsimp only
  repeat' first | (with_reducible first | assumption | exact KeepsRun.error | apply KeepsRun.ok | apply KeepsRun.ret | apply Run.wrA_keeps | apply Run.flag_keeps | refine KeepsRun.bind (fun _ _ => ?_)) | split | dsimp only

theorem opExt_run (g : Fin 32) (ad : Fin 8) (sh : BitVec 5) {s : State} {r : Run} (h : Keeps s r.s) : KeepsRun s (opExt g ad sh r) := by
  unfold opExt
  try dsimp only
  repeat' first | (with_reducible first | assumption | exact KeepsRun.error | apply KeepsRun.ok | apply KeepsRun.ret | apply Run.wrI_keeps | apply Run.flag_keeps | refine KeepsRun.bind (fun _ _ => ?_)) | split | dsimp only

theorem opAldq_run (ad : Fin 8) (ga : Fin 32) {s : State} {r : Run} (h : Keeps s r.s) : KeepsRun s (opAldq ad ga r) := by
  unfold opAldq
  try dsimp only
  repeat' first | (with_reducible first | assumption | exact KeepsRun.error | apply KeepsRun.ok | apply KeepsRun.ret | apply Run.wrA_keeps | apply Run.flag_keeps | refine KeepsRun.bind (fun _ _ => ?_)) | split | dsimp only

theorem opFaddsub_run (sub : Bool) (gd : Fin 32) (ga : Fin 32) (gb : Fin 32) {s : State} {r : Run} (h : Keeps s r.s) : KeepsRun s (opFaddsub sub gd ga gb r) := by
  unfold opFaddsub
  try dsimp only
  repeat' first | (with_reducible first | assumption | exact KeepsRun.error | apply KeepsRun.ok | apply KeepsRun.ret | apply Run.wrF_keeps | apply Run.flag_keeps | refine KeepsRun.bind (fun _ _ => ?_)) | split | dsimp only

theorem opFmul_run (gd : Fin 32) (ga : Fin 32) (gb : Fin 32) {s : State} {r : Run} (h : Keeps s r.s) : KeepsRun s (opFmul gd ga gb r) := by
  unfold opFmul
  try dsimp only
  repeat' first | (with_reducible first | assumption | exact KeepsRun.error | apply KeepsRun.ok | apply KeepsRun.ret | apply Run.wrF_keeps | apply Run.flag_keeps | refine KeepsRun.bind (fun _ _ => ?_)) | split | dsimp only

theorem opFdiv_run (gd : Fin 32) (ga : Fin 32) (gb : Fin 32) {s : State} {r : Run} (h : Keeps s r.s) : KeepsRun s (opFdiv gd ga gb r) := by
  unfold opFdiv
  try dsimp only
  repeat' first | (with_reducible first | assumption | exact KeepsRun.error | apply KeepsRun.ok | apply KeepsRun.ret | apply Run.wrF_keeps | apply Run.flag_keeps | refine KeepsRun.bind (fun _ _ => ?_)) | split | dsimp only

theorem opFma_run (gd : Fin 32) (ga : Fin 32) (gb : Fin 32) {s : State} {r : Run} (h : Keeps s r.s) : KeepsRun s (opFma gd ga gb r) := by
  unfold opFma
  try dsimp only
  repeat' first | (with_reducible first | assumption | exact KeepsRun.error | apply KeepsRun.ok | apply KeepsRun.ret | apply Run.wrF_keeps | apply Run.flag_keeps | refine KeepsRun.bind (fun _ _ => ?_)) | split | dsimp only

theorem opFneg_run (gd : Fin 32) (ga : Fin 32) {s : State} {r : Run} (h : Keeps s r.s) : KeepsRun s (opFneg gd ga r) := by
  unfold opFneg
  try dsimp only
  repeat' first | (with_reducible first | assumption | exact KeepsRun.error | apply KeepsRun.ok | apply KeepsRun.ret | apply Run.wrF_keeps | refine KeepsRun.bind (fun _ _ => ?_)) | split | dsimp only

theorem opFabs_run (gd : Fin 32) (ga : Fin 32) {s : State} {r : Run} (h : Keeps s r.s) : KeepsRun s (opFabs gd ga r) := by
  unfold opFabs
  try dsimp only
  repeat' first | (with_reducible first | assumption | exact KeepsRun.error | apply KeepsRun.ok | apply KeepsRun.ret | apply Run.wrF_keeps | refine KeepsRun.bind (fun _ _ => ?_)) | split | dsimp only

theorem opFminmax_run (isMax : Bool) (gd : Fin 32) (ga : Fin 32) (gb : Fin 32) {s : State} {r : Run} (h : Keeps s r.s) : KeepsRun s (opFminmax isMax gd ga gb r) := by
  unfold opFminmax
  try dsimp only
  repeat' first | (with_reducible first | assumption | exact KeepsRun.error | apply KeepsRun.ok | apply KeepsRun.ret | apply Run.wrF_keeps | refine KeepsRun.bind (fun _ _ => ?_)) | split | dsimp only

theorem opFsqrt_run (gd : Fin 32) (ga : Fin 32) {s : State} {r : Run} (h : Keeps s r.s) : KeepsRun s (opFsqrt gd ga r) := by
  unfold opFsqrt
  try dsimp only
  repeat' first | (with_reducible first | assumption | exact KeepsRun.error | apply KeepsRun.ok | apply KeepsRun.ret | apply Run.wrF_keeps | apply Run.flag_keeps | refine KeepsRun.bind (fun _ _ => ?_)) | split | dsimp only

theorem opFtest_run (f : F32 → F32 → Bool) (f' : F32 → F32 → Bool) (gd : Fin 32) (ga : Fin 32) (gb : Fin 32) {s : State} {r : Run} (h : Keeps s r.s) : KeepsRun s (opFtest f f' gd ga gb r) := by
  unfold opFtest
  try dsimp only
  repeat' first | (with_reducible first | assumption | exact KeepsRun.error | apply KeepsRun.ok | apply KeepsRun.ret | apply Run.wrI_keeps | refine KeepsRun.bind (fun _ _ => ?_)) | split | dsimp only

theorem opFtoq_run (gd : Fin 32) (ga : Fin 32) {s : State} {r : Run} (h : Keeps s r.s) : KeepsRun s (opFtoq gd ga r) := by
  unfold opFtoq
  try dsimp only
  repeat' first | (with_reducible first | assumption | exact KeepsRun.error | apply KeepsRun.ok | apply KeepsRun.ret | apply Run.wrI_keeps | apply Run.flag_keeps | refine KeepsRun.bind (fun _ _ => ?_)) | split | dsimp only

theorem opQtof_run (gd : Fin 32) (ga : Fin 32) {s : State} {r : Run} (h : Keeps s r.s) : KeepsRun s (opQtof gd ga r) := by
  unfold opQtof
  try dsimp only
  repeat' first | (with_reducible first | assumption | exact KeepsRun.error | apply KeepsRun.ok | apply KeepsRun.ret | apply Run.wrF_keeps | refine KeepsRun.bind (fun _ _ => ?_)) | split | dsimp only

theorem opFtoi_run (gd : Fin 32) (ga : Fin 32) {s : State} {r : Run} (h : Keeps s r.s) : KeepsRun s (opFtoi gd ga r) := by
  unfold opFtoi
  try dsimp only
  repeat' first | (with_reducible first | assumption | exact KeepsRun.error | apply KeepsRun.ok | apply KeepsRun.ret | apply Run.wrI_keeps | apply Run.flag_keeps | refine KeepsRun.bind (fun _ _ => ?_)) | split | dsimp only

theorem opItof_run (gd : Fin 32) (ga : Fin 32) {s : State} {r : Run} (h : Keeps s r.s) : KeepsRun s (opItof gd ga r) := by
  unfold opItof
  try dsimp only
  repeat' first | (with_reducible first | assumption | exact KeepsRun.error | apply KeepsRun.ok | apply KeepsRun.ret | apply Run.wrF_keeps | refine KeepsRun.bind (fun _ _ => ?_)) | split | dsimp only

theorem opLd_run (isF : Bool) (gd : Fin 32) (ga : Fin 32) (off : BitVec 16) {s : State} {r : Run} (h : Keeps s r.s) : KeepsRun s (opLd isF gd ga off r) := by
  unfold opLd
  try dsimp only
  repeat' first | (with_reducible first | assumption | exact KeepsRun.error | apply KeepsRun.ok | apply KeepsRun.ret | apply Run.touch_keeps | apply Run.wr_keeps | refine KeepsRun.bind (fun _ _ => ?_)) | split | dsimp only

theorem opLdSub_run (n : Nat) (signed : Bool) (gd : Fin 32) (ga : Fin 32) (off : BitVec 16) {s : State} {r : Run} (h : Keeps s r.s) : KeepsRun s (opLdSub n signed gd ga off r) := by
  unfold opLdSub
  try dsimp only
  repeat' first | (with_reducible first | assumption | exact KeepsRun.error | apply KeepsRun.ok | apply KeepsRun.ret | apply Run.touch_keeps | apply Run.wr_keeps | refine KeepsRun.bind (fun _ _ => ?_)) | split | dsimp only

theorem opSt32_run (gd : Fin 32) (ga : Fin 32) (off : BitVec 16) {s : State} {r : Run} (h : Keeps s r.s) : KeepsRun s (opSt32 gd ga off r) := by
  unfold opSt32
  try dsimp only
  repeat' first | (with_reducible first | assumption | exact KeepsRun.error | apply KeepsRun.ok | apply KeepsRun.ret | apply Run.store_run | apply Run.setP_keeps | refine KeepsRun.bindRun (Run.store_run _ _ (by first | assumption | exact Run.ldaTouch_keeps _ (by assumption))) (fun _ _ => ?_) | refine KeepsRun.bind (fun _ _ => ?_)) | split | dsimp only

theorem opLdacc_run (ad : Fin 8) (ga : Fin 32) (off : BitVec 16) {s : State} {r : Run} (h : Keeps s r.s) : KeepsRun s (opLdacc ad ga off r) := by
  unfold opLdacc
  try dsimp only
  repeat' first | (with_reducible first | assumption | exact KeepsRun.error | apply KeepsRun.ok | apply KeepsRun.ret | apply Run.touch_keeps | apply Run.wrA_keeps | apply Run.flag_keeps | refine KeepsRun.bind (fun _ _ => ?_)) | split | dsimp only

theorem opStacc_run (ad : Fin 8) (ga : Fin 32) (off : BitVec 16) {s : State} {r : Run} (h : Keeps s r.s) : KeepsRun s (opStacc ad ga off r) := by
  unfold opStacc
  try dsimp only
  repeat' first | (with_reducible first | assumption | exact KeepsRun.error | apply KeepsRun.ok | apply KeepsRun.ret | apply Run.store_run | apply Run.setP_keeps | refine KeepsRun.bindRun (Run.store_run _ _ (by first | assumption | exact Run.ldaTouch_keeps _ (by assumption))) (fun _ _ => ?_) | refine KeepsRun.bind (fun _ _ => ?_)) | split | dsimp only

theorem opLdaAt_run (gd : Fin 32) (a : Nat) {s : State} {r : Run} (h : Keeps s r.s) : KeepsRun s (opLdaAt gd a r) := by
  unfold opLdaAt
  refine KeepsRun.bind fun _ _ => ?_
  split
  · refine KeepsRun.bind fun y hy => KeepsRun.ret (Run.wr_keeps _ _ _ _ ?_)
    have k := Run.replay_keeps a h hy
    dsimp only
    split
    · split
      · exact k
      · exact k
    · exact k
  · refine KeepsRun.bind fun _ _ => ?_
    split
    · exact KeepsRun.error
    · refine KeepsRun.bindRun (Run.record_run _ (Run.liveLoad_keeps a (Run.ldaTouch_keeps a h) (by assumption))) fun _ k => ?_
      exact KeepsRun.ret (Run.wr_keeps _ _ _ _ k)

theorem opStaAt_run (ga : Fin 32) (a : Word) {s : State} {r : Run} (h : Keeps s r.s) : KeepsRun s (opStaAt ga a r) := by
  unfold opStaAt
  try dsimp only
  repeat' first | (with_reducible first | assumption | exact KeepsRun.error | apply KeepsRun.ok | apply KeepsRun.ret | apply Run.outAbs_run | refine KeepsRun.bind (fun _ _ => ?_)) | split | dsimp only

theorem opQlen_run (gd : Fin 32) (q : Fin 32) {s : State} {r : Run} (h : Keeps s r.s) : KeepsRun s (opQlen gd q r) := by
  unfold opQlen
  try dsimp only
  repeat' first | (with_reducible first | assumption | exact KeepsRun.error | apply KeepsRun.ok | apply KeepsRun.ret | apply Run.record_run | apply Run.wr_keeps | exact Run.replay_keeps _ (by assumption) (by assumption) | refine KeepsRun.bindRun (Run.record_run _ (by first | assumption | exact Run.ldaTouch_keeps _ (by assumption))) (fun _ _ => ?_) | refine KeepsRun.bind (fun _ _ => ?_)) | split | dsimp only

theorem opQrdw_run (gd : Fin 32) (q : Fin 32) (k : Fin 32) {s : State} {r : Run} (h : Keeps s r.s) : KeepsRun s (opQrdw gd q k r) := by
  unfold opQrdw
  try dsimp only
  repeat' first | (with_reducible first | assumption | exact KeepsRun.error | apply KeepsRun.ok | apply KeepsRun.ret | apply Run.record_run | apply Run.ldaTouch_keeps | apply Run.wr_keeps | exact Run.replay_keeps _ (by assumption) (by assumption) | refine KeepsRun.bindRun (Run.record_run _ (by first | assumption | exact Run.ldaTouch_keeps _ (by assumption))) (fun _ _ => ?_) | refine KeepsRun.bind (fun _ _ => ?_)) | split | dsimp only

theorem opQpop_run (q : Fin 32) {s : State} {r : Run} (h : Keeps s r.s) : KeepsRun s (opQpop q r) := by
  unfold opQpop
  try dsimp only
  repeat' first | (with_reducible first | assumption | exact KeepsRun.error | apply KeepsRun.ok | apply KeepsRun.ret | apply Run.outAbs_run | refine KeepsRun.bind (fun _ _ => ?_)) | split | dsimp only

theorem opQwrw_run (q : Fin 32) (k : Fin 32) (ga : Fin 32) {s : State} {r : Run} (h : Keeps s r.s) : KeepsRun s (opQwrw q k ga r) := by
  unfold opQwrw
  try dsimp only
  repeat' first | (with_reducible first | assumption | exact KeepsRun.error | apply KeepsRun.ok | apply KeepsRun.ret | apply Run.outAbs_run | refine KeepsRun.bind (fun _ _ => ?_)) | split | dsimp only

theorem opQpush_run (q : Fin 32) {s : State} {r : Run} (h : Keeps s r.s) : KeepsRun s (opQpush q r) := by
  unfold opQpush
  try dsimp only
  repeat' first | (with_reducible first | assumption | exact KeepsRun.error | apply KeepsRun.ok | apply KeepsRun.ret | apply Run.outAbs_run | refine KeepsRun.bind (fun _ _ => ?_)) | split | dsimp only

theorem opBranch_run (f : Int → Int → Bool) (f' : Int → Int → Bool) (ga : Fin 32) (gb : Fin 32) (off : BitVec 16) {s : State} {r : Run} (h : Keeps s r.s) : KeepsRun s (opBranch f f' ga gb off r) := by
  unfold opBranch
  try dsimp only
  repeat' first | (with_reducible first | assumption | exact KeepsRun.error | apply KeepsRun.ok | apply KeepsRun.ret | apply Run.jumpTo_run | apply Run.flag_keeps | refine KeepsRun.bindRun (Run.jumpTo_run _ (by first | assumption | exact Run.ldaTouch_keeps _ (by assumption))) (fun _ _ => ?_) | refine KeepsRun.bind (fun _ _ => ?_)) | split | dsimp only

theorem opBranchU_run (f : Nat → Nat → Bool) (ga : Fin 32) (gb : Fin 32) (off : BitVec 16) {s : State} {r : Run} (h : Keeps s r.s) : KeepsRun s (opBranchU f ga gb off r) := by
  unfold opBranchU
  try dsimp only
  repeat' first | (with_reducible first | assumption | exact KeepsRun.error | apply KeepsRun.ok | apply KeepsRun.ret | apply Run.jumpTo_run | refine KeepsRun.bindRun (Run.jumpTo_run _ (by first | assumption | exact Run.ldaTouch_keeps _ (by assumption))) (fun _ _ => ?_) | refine KeepsRun.bind (fun _ _ => ?_)) | split | dsimp only

theorem opBzc_run (ga : Fin 32) (cc : Nat) (off : BitVec 16) {s : State} {r : Run} (h : Keeps s r.s) : KeepsRun s (opBzc ga cc off r) := by
  unfold opBzc
  try dsimp only
  repeat' first | (with_reducible first | assumption | exact KeepsRun.error | apply KeepsRun.ok | apply KeepsRun.ret | apply Run.jumpTo_run | apply Run.flag_keeps | refine KeepsRun.bindRun (Run.jumpTo_run _ (by first | assumption | exact Run.ldaTouch_keeps _ (by assumption))) (fun _ _ => ?_) | refine KeepsRun.bind (fun _ _ => ?_)) | split | dsimp only

theorem opJmp_run (off : BitVec 26) {s : State} {r : Run} (h : Keeps s r.s) : KeepsRun s (opJmp off r) := by
  unfold opJmp
  try dsimp only
  repeat' first | (with_reducible first | assumption | exact KeepsRun.error | apply KeepsRun.ok | apply KeepsRun.ret | apply Run.jumpTo_run | refine KeepsRun.bindRun (Run.jumpTo_run _ (by first | assumption | exact Run.ldaTouch_keeps _ (by assumption))) (fun _ _ => ?_) | refine KeepsRun.bind (fun _ _ => ?_)) | split | dsimp only

theorem opCall_run (off : BitVec 26) {s : State} {r : Run} (h : Keeps s r.s) : KeepsRun s (opCall off r) := by
  unfold opCall
  try dsimp only
  repeat' first | (with_reducible first | assumption | exact KeepsRun.error | apply KeepsRun.ok | apply KeepsRun.ret | apply Run.jumpTo_run | apply Run.wr_keeps | refine KeepsRun.bindRun (Run.jumpTo_run _ (by first | assumption | exact Run.ldaTouch_keeps _ (by assumption))) (fun _ _ => ?_) | refine KeepsRun.bind (fun _ _ => ?_)) | split | dsimp only

theorem opJr_run (ga : Fin 32) {s : State} {r : Run} (h : Keeps s r.s) : KeepsRun s (opJr ga r) := by
  unfold opJr
  try dsimp only
  repeat' first | (with_reducible first | assumption | exact KeepsRun.error | apply KeepsRun.ok | apply KeepsRun.ret | apply Run.jumpTo_run | refine KeepsRun.bindRun (Run.jumpTo_run _ (by first | assumption | exact Run.ldaTouch_keeps _ (by assumption))) (fun _ _ => ?_) | refine KeepsRun.bind (fun _ _ => ?_)) | split | dsimp only

theorem opLoop_run (lv : Bool) (cnt : LoopCount) (len : BitVec 12) {s : State} {r : Run} (h : Keeps s r.s) : KeepsRun s (opLoop lv cnt len r) := by
  unfold opLoop
  try dsimp only
  repeat' first | (with_reducible first | assumption | exact KeepsRun.error | apply KeepsRun.ok | apply KeepsRun.ret | apply Run.setP_keeps | refine KeepsRun.bind (fun _ _ => ?_)) | split | dsimp only

theorem opMfs_run (gd : Fin 32) (gc : Fin 32) {s : State} {r : Run} (h : Keeps s r.s) : KeepsRun s (opMfs gd gc r) := by
  unfold opMfs
  try dsimp only
  repeat' first | (with_reducible first | assumption | exact KeepsRun.error | apply KeepsRun.ok | apply KeepsRun.ret | apply Run.wr_keeps | refine KeepsRun.bind (fun _ _ => ?_)) | split | dsimp only

theorem opMts_run (gc : Fin 32) (ga : Fin 32) {s : State} {r : Run} (h : Keeps s r.s) : KeepsRun s (opMts gc ga r) := by
  unfold opMts
  try dsimp only
  repeat' first | (with_reducible first | assumption | exact KeepsRun.error | apply KeepsRun.ok | apply KeepsRun.ret | apply Run.putStw_keeps | refine KeepsRun.bind (fun _ _ => ?_)) | split | dsimp only

theorem opStwclr_run (gc : Fin 32) {s : State} {r : Run} (h : Keeps s r.s) : KeepsRun s (opStwclr gc r) := by
  unfold opStwclr
  try dsimp only
  repeat' first | (with_reducible first | assumption | exact KeepsRun.error | apply KeepsRun.ok | apply KeepsRun.ret | apply Run.putStw_keeps | refine KeepsRun.bind (fun _ _ => ?_)) | split | dsimp only

theorem opTrap_run (gc : Fin 32) {s : State} {r : Run} (_h : Keeps s r.s) : KeepsRun s (opTrap gc r) := by
  unfold opTrap
  try dsimp only
  repeat' first | (with_reducible first | assumption | exact KeepsRun.error | apply KeepsRun.ok | apply KeepsRun.ret | refine KeepsRun.bind (fun _ _ => ?_)) | split | dsimp only

theorem opStepend_run {s : State} {r : Run} (h : Keeps s r.s) : KeepsRun s (opStepend  r) := by
  unfold opStepend
  try dsimp only
  repeat' first | (with_reducible first | assumption | exact KeepsRun.error | apply KeepsRun.ok | apply KeepsRun.ret | apply Run.setP_keeps | refine KeepsRun.bind (fun _ _ => ?_)) | split | dsimp only

theorem opLinear_run (n : Nat) (m : Nat) (f : List Int → List Int) (gd : Fin 32) (ga : Fin 32) {s : State} {r : Run} (h : Keeps s r.s) : KeepsRun s (opLinear n m f gd ga r) := by
  unfold opLinear
  try dsimp only
  repeat' first | (with_reducible first | assumption | exact KeepsRun.error | apply KeepsRun.ok | apply KeepsRun.ret | apply Run.flag_keeps | apply Run.wrGroup_keeps | refine KeepsRun.bind (fun _ _ => ?_)) | split | dsimp only

theorem opPark_run (inverse : Bool) (gd : Fin 32) (ga : Fin 32) (gb : Fin 32) {s : State} {r : Run} (h : Keeps s r.s) : KeepsRun s (opPark inverse gd ga gb r) := by
  unfold opPark
  try dsimp only
  repeat' first | (with_reducible first | assumption | exact KeepsRun.error | apply KeepsRun.ok | apply KeepsRun.ret | apply Run.flag_keeps | apply Run.wrGroup_keeps | refine KeepsRun.bind (fun _ _ => ?_)) | split | dsimp only

theorem opSincos_run (gd : Fin 32) (ga : Fin 32) {s : State} {r : Run} (h : Keeps s r.s) : KeepsRun s (opSincos gd ga r) := by
  unfold opSincos
  try dsimp only
  repeat' first | (with_reducible first | assumption | exact KeepsRun.error | apply KeepsRun.ok | apply KeepsRun.ret | apply Run.wrI_keeps | refine KeepsRun.bind (fun _ _ => ?_)) | split | dsimp only

theorem opVec_run (gd : Fin 32) (ga : Fin 32) {s : State} {r : Run} (h : Keeps s r.s) : KeepsRun s (opVec gd ga r) := by
  unfold opVec
  try dsimp only
  repeat' first | (with_reducible first | assumption | exact KeepsRun.error | apply KeepsRun.ok | apply KeepsRun.ret | apply Run.wr_keeps | apply Run.wrI_keeps | apply Run.flag_keeps | refine KeepsRun.bind (fun _ _ => ?_)) | split | dsimp only

theorem opAngadd_run (gd : Fin 32) (ga : Fin 32) (gb : Fin 32) {s : State} {r : Run} (h : Keeps s r.s) : KeepsRun s (opAngadd gd ga gb r) := by
  unfold opAngadd
  try dsimp only
  repeat' first | (with_reducible first | assumption | exact KeepsRun.error | apply KeepsRun.ok | apply KeepsRun.ret | apply Run.wr_keeps | refine KeepsRun.bind (fun _ _ => ?_)) | split | dsimp only

theorem opSvm_run (five : Bool) (gd : Fin 32) (ga : Fin 32) {s : State} {r : Run} (h : Keeps s r.s) : KeepsRun s (opSvm five gd ga r) := by
  unfold opSvm
  try dsimp only
  repeat' first | (with_reducible first | assumption | exact KeepsRun.error | apply KeepsRun.ok | apply KeepsRun.ret | apply Run.flag_keeps | apply Run.wrGroup_keeps | refine KeepsRun.bind (fun _ _ => ?_)) | split | dsimp only

theorem opLim2_run (dFirst : Bool) (gd : Fin 32) (ga : Fin 32) (gb : Fin 32) {s : State} {r : Run} (h : Keeps s r.s) : KeepsRun s (opLim2 dFirst gd ga gb r) := by
  unfold opLim2
  try dsimp only
  repeat' first | (with_reducible first | assumption | exact KeepsRun.error | apply KeepsRun.ok | apply KeepsRun.ret | apply Run.flag_keeps | apply Run.wrGroup_keeps | refine KeepsRun.bind (fun _ _ => ?_)) | split | dsimp only

theorem opPidq_run (gd : Fin 32) (ga : Fin 32) (gb : Fin 32) (ad : Fin 8) (sh : BitVec 2) {s : State} {r : Run} (h : Keeps s r.s) : KeepsRun s (opPidq gd ga gb ad sh r) := by
  unfold opPidq
  try dsimp only
  repeat' first | (with_reducible first | assumption | exact KeepsRun.error | apply KeepsRun.ok | apply KeepsRun.ret | apply Run.wrI_keeps | apply Run.wrA_keeps | apply Run.flag_keeps | refine KeepsRun.bind (fun _ _ => ?_)) | split | dsimp only

theorem opSmpget_run (gd : Fin 32) (k : Fin 32) {s : State} {r : Run} (h : Keeps s r.s) : KeepsRun s (opSmpget gd k r) := by
  unfold opSmpget
  try dsimp only
  repeat' first | (with_reducible first | assumption | exact KeepsRun.error | apply KeepsRun.ok | apply KeepsRun.ret | apply Run.wr_keeps | refine KeepsRun.bind (fun _ _ => ?_)) | split | dsimp only

theorem opSmpflg_run (gd : Fin 32) (k : Fin 32) {s : State} {r : Run} (h : Keeps s r.s) : KeepsRun s (opSmpflg gd k r) := by
  unfold opSmpflg
  try dsimp only
  repeat' first | (with_reducible first | assumption | exact KeepsRun.error | apply KeepsRun.ok | apply KeepsRun.ret | apply Run.wr_keeps | refine KeepsRun.bind (fun _ _ => ?_)) | split | dsimp only

theorem opSmpstmp_run (gd : Fin 32) (k : Fin 32) {s : State} {r : Run} (h : Keeps s r.s) : KeepsRun s (opSmpstmp gd k r) := by
  unfold opSmpstmp
  try dsimp only
  repeat' first | (with_reducible first | assumption | exact KeepsRun.error | apply KeepsRun.ok | apply KeepsRun.ret | apply Run.wr_keeps | refine KeepsRun.bind (fun _ _ => ?_)) | split | dsimp only

theorem opPwm3_run (ga : Fin 32) (k : Fin 32) {s : State} {r : Run} (h : Keeps s r.s) : KeepsRun s (opPwm3 ga k r) := by
  unfold opPwm3
  try dsimp only
  repeat' first | (with_reducible first | assumption | exact KeepsRun.error | apply KeepsRun.ok | apply KeepsRun.ret | apply Run.pwmOut_run | refine KeepsRun.bind (fun _ _ => ?_)) | split | dsimp only

theorem opPwm1_run (ga : Fin 32) (k : Fin 32) (leg : Fin 32) {s : State} {r : Run} (h : Keeps s r.s) : KeepsRun s (opPwm1 ga k leg r) := by
  unfold opPwm1
  try dsimp only
  repeat' first | (with_reducible first | assumption | exact KeepsRun.error | apply KeepsRun.ok | apply KeepsRun.ret | apply Run.pwmOut_run | refine KeepsRun.bind (fun _ _ => ?_)) | split | dsimp only

theorem opPwmoff_run (k : Fin 32) {s : State} {r : Run} (h : Keeps s r.s) : KeepsRun s (opPwmoff k r) := by
  unfold opPwmoff
  try dsimp only
  repeat' first | (with_reducible first | assumption | exact KeepsRun.error | apply KeepsRun.ok | apply KeepsRun.ret | apply Run.pwmOut_run | refine KeepsRun.bind (fun _ _ => ?_)) | split | dsimp only

theorem opPwmtrim_run (ga : Fin 32) (k : Fin 32) (sw : Fin 32) {s : State} {r : Run} (h : Keeps s r.s) : KeepsRun s (opPwmtrim ga k sw r) := by
  unfold opPwmtrim
  try dsimp only
  repeat' first | (with_reducible first | assumption | exact KeepsRun.error | apply KeepsRun.ok | apply KeepsRun.ret | apply Run.pwmOut_run | refine KeepsRun.bind (fun _ _ => ?_)) | split | dsimp only

theorem opFltset_run (ga : Fin 32) (k : Fin 32) (code : Fin 32) {s : State} {r : Run} (h : Keeps s r.s) : KeepsRun s (opFltset ga k code r) := by
  unfold opFltset
  try dsimp only
  repeat' first | (with_reducible first | assumption | exact KeepsRun.error | apply KeepsRun.ok | apply KeepsRun.ret | apply Run.out_keeps | refine KeepsRun.bind (fun _ _ => ?_)) | split | dsimp only

theorem opEvraise_run (ga : Fin 32) (k : Fin 32) {s : State} {r : Run} (h : Keeps s r.s) : KeepsRun s (opEvraise ga k r) := by
  unfold opEvraise
  try dsimp only
  repeat' first | (with_reducible first | assumption | exact KeepsRun.error | apply KeepsRun.ok | apply KeepsRun.ret | apply Run.out_keeps | refine KeepsRun.bind (fun _ _ => ?_)) | split | dsimp only

theorem opTlmput_run (ga : Fin 32) (k : Fin 32) {s : State} {r : Run} (h : Keeps s r.s) : KeepsRun s (opTlmput ga k r) := by
  unfold opTlmput
  try dsimp only
  repeat' first | (with_reducible first | assumption | exact KeepsRun.error | apply KeepsRun.ok | apply KeepsRun.ret | apply Run.out_keeps | refine KeepsRun.bind (fun _ _ => ?_)) | split | dsimp only

/-- An instruction keeps everything. -/
def Op.Keeping (f : Op) : Prop := ∀ (s : State) (r : Run), Keeps s r.s → KeepsRun s (f r)

/-- What a decoder gives keeps everything. -/
def KeepsOp (o : Option Op) : Prop := ∀ f, o = some f → Op.Keeping f

theorem KeepsOp.none : KeepsOp none := fun _ h => absurd h (by simp)

theorem KeepsOp.some {f : Op} (h : Op.Keeping f) : KeepsOp (some f) := fun g e => by cases e; exact h

theorem KeepsOp.when (b : Bool) {f : Op} (h : Op.Keeping f) : KeepsOp (when b f) := by
  unfold Machine.when
  split
  · exact .some h
  · exact .none

theorem KeepsOp.ite {c : Prop} [Decidable c] {o p : Option Op} (ho : KeepsOp o) (hp : KeepsOp p) :
    KeepsOp (if c then o else p) := by split <;> assumption

theorem longOp_keeps (fn : Nat) (gd : Fin 32) (a : Fin 32) (gx : Fin 32) (imm : Word) : KeepsOp (longOp fn gd a gx imm) := by
  unfold longOp
  dsimp only
  repeat' first | (with_reducible first | exact KeepsOp.none | refine KeepsOp.some (fun s r hr => ?_) | refine KeepsOp.when _ (fun s r hr => ?_) | apply KeepsOp.ite | exact opAdds_run _ _ _ hr | exact opSubs_run _ _ _ hr | exact opNegs_run _ _ hr | exact opAbss_run _ _ hr | exact opMulq_run _ _ _ hr | exact opDivq_run _ _ _ hr | exact opMin_run _ _ _ hr | exact opMax_run _ _ _ hr | exact opClips_run _ _ _ hr | exact opClipr_run _ _ _ _ hr | exact opShls_run _ _ _ hr | exact opShrq_run _ _ _ hr | exact opSqrtq_run _ _ hr | exact opAddw_run _ _ _ hr | exact opSubw_run _ _ _ hr | exact opMulw_run _ _ _ hr | exact opDivw_run _ _ _ hr | exact opAnd_run _ _ _ hr | exact opOr_run _ _ _ hr | exact opXor_run _ _ _ hr | exact opShl_run _ _ _ hr | exact opShr_run _ _ _ hr | exact opShra_run _ _ _ hr | exact opClz_run _ _ hr | exact opMov_run _ _ hr | exact opCsel_run _ _ _ _ hr | exact opSeq_run _ _ _ hr | exact opSlt_run _ _ _ hr | exact opSle_run _ _ _ hr | exact opSltu_run _ _ _ hr) | exact KeepsRun.ok hr | exact KeepsRun.error | split | dsimp only

theorem decAlu_keeps (f : Fields) : KeepsOp (decAlu f) := by
  unfold decAlu
  dsimp only
  repeat' first | (with_reducible first | exact KeepsOp.none | refine KeepsOp.some (fun s r hr => ?_) | refine KeepsOp.when _ (fun s r hr => ?_) | apply KeepsOp.ite | exact opAdds_run _ _ _ hr | exact opSubs_run _ _ _ hr | exact opNegs_run _ _ hr | exact opAbss_run _ _ hr | exact opMulq_run _ _ _ hr | exact opDivq_run _ _ _ hr | exact opMin_run _ _ _ hr | exact opMax_run _ _ _ hr | exact opClips_run _ _ _ hr | exact opClipr_run _ _ _ _ hr | exact opShls_run _ _ _ hr | exact opShrq_run _ _ _ hr | exact opSqrtq_run _ _ hr | exact opAddw_run _ _ _ hr | exact opSubw_run _ _ _ hr | exact opMulw_run _ _ _ hr | exact opDivw_run _ _ _ hr | exact opAnd_run _ _ _ hr | exact opOr_run _ _ _ hr | exact opXor_run _ _ _ hr | exact opShl_run _ _ _ hr | exact opShr_run _ _ _ hr | exact opShra_run _ _ _ hr | exact opClz_run _ _ hr | exact opMov_run _ _ hr | exact opCsel_run _ _ _ _ hr | exact opSeq_run _ _ _ hr | exact opSlt_run _ _ _ hr | exact opSle_run _ _ _ hr | exact opSltu_run _ _ _ hr) | exact KeepsRun.ok hr | exact KeepsRun.error | split | dsimp only

theorem decAcc_keeps (w : Nat) : KeepsOp (decAcc w) := by
  unfold decAcc
  dsimp only
  repeat' first | (with_reducible first | exact KeepsOp.none | refine KeepsOp.some (fun s r hr => ?_) | refine KeepsOp.when _ (fun s r hr => ?_) | apply KeepsOp.ite | exact opAclr_run _ hr | exact opMula_run _ _ _ hr | exact opMac_run _ _ _ _ hr | exact opAmov_run _ _ hr | exact opAadd_run _ _ hr | exact opAneg_run _ _ hr | exact opExt_run _ _ _ hr | exact opAldq_run _ _ hr) | exact KeepsRun.ok hr | exact KeepsRun.error | split | dsimp only

theorem decFpu_keeps (f : Fields) : KeepsOp (decFpu f) := by
  unfold decFpu
  dsimp only
  repeat' first | (with_reducible first | exact KeepsOp.none | refine KeepsOp.some (fun s r hr => ?_) | refine KeepsOp.when _ (fun s r hr => ?_) | apply KeepsOp.ite | exact opFaddsub_run _ _ _ _ hr | exact opFmul_run _ _ _ hr | exact opFdiv_run _ _ _ hr | exact opFma_run _ _ _ hr | exact opFneg_run _ _ hr | exact opFabs_run _ _ hr | exact opFminmax_run _ _ _ _ hr | exact opFsqrt_run _ _ hr | exact opFtest_run _ _ _ _ _ hr | exact opFtoq_run _ _ hr | exact opQtof_run _ _ hr | exact opFtoi_run _ _ hr | exact opItof_run _ _ hr) | exact KeepsRun.ok hr | exact KeepsRun.error | split | dsimp only

theorem decImm_keeps (f : Fields) : KeepsOp (decImm f) := by
  unfold decImm
  dsimp only
  repeat' first | (with_reducible first | exact KeepsOp.none | refine KeepsOp.some (fun s r hr => ?_) | refine KeepsOp.when _ (fun s r hr => ?_) | apply KeepsOp.ite | exact opAdds_run _ _ _ hr | exact opAddw_run _ _ _ hr | exact opAnd_run _ _ _ hr | exact opOr_run _ _ _ hr | exact opXor_run _ _ _ hr | exact opImm_run _ _ hr | exact opSlt_run _ _ _ hr | exact opLd_run _ _ _ _ hr | exact opSt32_run _ _ _ hr | exact opLdSub_run _ _ _ _ _ hr | exact opLdacc_run _ _ _ hr | exact opStacc_run _ _ _ hr | exact opLdaAt_run _ _ hr | exact opStaAt_run _ _ hr) | exact KeepsRun.ok hr | exact KeepsRun.error | split | dsimp only

theorem decBranch_keeps (f : Fields) (w : Nat) : KeepsOp (decBranch f w) := by
  unfold decBranch
  dsimp only
  repeat' first | (with_reducible first | exact KeepsOp.none | refine KeepsOp.some (fun s r hr => ?_) | refine KeepsOp.when _ (fun s r hr => ?_) | apply KeepsOp.ite | exact opBranch_run _ _ _ _ _ hr | exact opBranchU_run _ _ _ _ hr | exact opBzc_run _ _ _ hr | exact opJmp_run _ hr | exact opCall_run _ hr | exact opLoop_run _ _ _ hr) | exact KeepsRun.ok hr | exact KeepsRun.error | split | dsimp only

theorem decSys_keeps (f : Fields) : KeepsOp (decSys f) := by
  unfold decSys
  dsimp only
  repeat' first | (with_reducible first | exact KeepsOp.none | refine KeepsOp.some (fun s r hr => ?_) | refine KeepsOp.when _ (fun s r hr => ?_) | apply KeepsOp.ite | exact opStepend_run hr | exact opMfs_run _ _ hr | exact opMts_run _ _ hr | exact opStwclr_run _ hr | exact opTrap_run _ hr | exact opJr_run _ hr | exact opQlen_run _ _ hr | exact opQrdw_run _ _ _ hr | exact opQpop_run _ hr | exact opQwrw_run _ _ _ hr | exact opQpush_run _ hr) | exact KeepsRun.ok hr | exact KeepsRun.error | split | dsimp only

theorem decField_keeps (f : Fields) : KeepsOp (decField f) := by
  unfold decField
  dsimp only
  repeat' first | (with_reducible first | exact KeepsOp.none | refine KeepsOp.some (fun s r hr => ?_) | refine KeepsOp.when _ (fun s r hr => ?_) | apply KeepsOp.ite | exact opLinear_run _ _ _ _ _ hr | exact opPark_run _ _ _ _ hr | exact opSincos_run _ _ hr | exact opVec_run _ _ hr | exact opAngadd_run _ _ _ hr | exact opSvm_run _ _ _ hr | exact opLim2_run _ _ _ _ hr | exact opPidq_run _ _ _ _ _ hr) | exact KeepsRun.ok hr | exact KeepsRun.error | split | dsimp only

theorem decIo_keeps (f : Fields) : KeepsOp (decIo f) := by
  unfold decIo
  dsimp only
  repeat' first | (with_reducible first | exact KeepsOp.none | refine KeepsOp.some (fun s r hr => ?_) | refine KeepsOp.when _ (fun s r hr => ?_) | apply KeepsOp.ite | exact opSmpget_run _ _ hr | exact opSmpflg_run _ _ hr | exact opSmpstmp_run _ _ hr | exact opPwm3_run _ _ hr | exact opPwm1_run _ _ _ hr | exact opPwmoff_run _ hr | exact opPwmtrim_run _ _ _ hr | exact opFltset_run _ _ _ hr | exact opEvraise_run _ _ hr | exact opTlmput_run _ _ hr) | exact KeepsRun.ok hr | exact KeepsRun.error | split | dsimp only

theorem decShort_keeps (w : Word) : KeepsOp (decShort w) := by
  unfold decShort
  dsimp only
  repeat' first | with_reducible first | apply KeepsOp.ite | apply decAlu_keeps | apply decAcc_keeps | apply decFpu_keeps | apply decImm_keeps | apply decBranch_keeps | apply decSys_keeps | apply decField_keeps | apply decIo_keeps | exact KeepsOp.none

theorem decLong_keeps (f : Fields) (imm : Word) : KeepsOp (decLong f imm) := by
  unfold decLong
  repeat' first | (with_reducible first | exact KeepsOp.none | apply longOp_keeps | refine KeepsOp.when _ (fun s r hr => ?_) | exact opLdaAt_run _ _ hr | exact opStaAt_run _ _ hr | exact opImm_run _ _ hr) | split

theorem Task.fetch_keeps (t : Task) (pc : Nat) {n : Nat} {f : Op} (h : t.fetch pc = .ok (n, f)) : Op.Keeping f := by
  unfold Task.fetch at h
  repeat' split at h
  all_goals first | (cases h; exact decLong_keeps _ _ _ (by assumption)) | (cases h; exact decShort_keeps _ _ (by assumption)) | cases h

end Sys2Proof.Machine
end

