-- ==== Sys2Proof/Laws/KeepsRest.lean ====
section
/-! SUPPORT. What the operations of the host ports, the registers and the blocks keep. -/

namespace Sys2Proof.Machine

set_option linter.unusedTactic false
set_option linter.unreachableTactic false

theorem State.instr_keeps (e len : Nat) {f : Op} (hf : f.Keeping) {s0 s : State} (h : Keeps s0 s) :
    Keeps s0 (State.instr e len f s) := by
  have hl : Keeps s0 (State.localTouch e s) := State.localTouch_keeps e h
  have hk : ∀ t st r, f ⟨State.localTouch e s, e, t, st, none, none⟩ = .ok r → Keeps s0 r.s := by
    intro t st r hr
    have k := hf s0 ⟨State.localTouch e s, e, t, st, none, none⟩ hl
    rw [hr] at k
    exact k
  unfold State.instr
  dsimp only
  repeat' first
    | (with_reducible first | assumption | apply State.localFails_keeps | apply State.passFault_keeps | apply State.sramTouch_keeps | apply State.judge_keeps | apply State.passEnd_keeps | apply State.setStep_keeps)
    | exact hk _ _ _ (by assumption)
    | split

theorem State.pumpStep_keeps {s0 s : State} (h : Keeps s0 s) : Keeps s0 s.pumpStep := by
  have h1 : Keeps s0 s.dbgRelease := State.dbgRelease_keeps h
  unfold State.pumpStep
  generalize s.dbgRelease = u at h1
  dsimp only
  split
  · exact h1
  have k : ∀ e, Keeps s0 (State.modEng e (fun x => { x with stepReq := false }) u) := fun e => State.modEng_keeps _ _ h1
  split
  · exact k _
  · apply Keeps.put
    split
    · exact State.instr_keeps _ _ (Task.fetch_keeps _ _ (by assumption)) (k _)
    · exact State.instr_keeps _ _ (fun _ _ _ => KeepsRun.error) (k _)

theorem State.opWrite_keeps (n : Fin 4) (f : Frame) {s0 s : State} (h : Keeps s0 s) :
    Keeps s0 (State.opWrite n f s) := by
  unfold State.opWrite
  try dsimp only
  repeat' first | (with_reducible first | assumption | exact Keeps.refl _ | apply Keeps.ite | apply State.orReject_keeps | apply State.reply_keeps | apply State.pumpStep_keeps | refine (State.writeWords_keeps _ _ _ ?_ (ht := by assumption))) | (intro _ _ _ _; try dsimp only) | (intro _ _ _; try dsimp only) | split

theorem State.opDoorbell_keeps (n : Fin 4) (f : Frame) {s0 s : State} (h : Keeps s0 s) :
    Keeps s0 (State.opDoorbell n f s) := by
  unfold State.opDoorbell
  try dsimp only
  repeat' first | (with_reducible first | assumption | exact Keeps.refl _ | apply Keeps.ite | apply State.orReject_keeps | apply State.reply_keeps | apply State.ring_keeps) | (intro _ _ _ _; try dsimp only) | (intro _ _ _; try dsimp only) | split

theorem State.stageOpen_keeps (n : Fin 4) (f : Frame) {s0 s : State} (h : Keeps s0 s) :
    Keeps s0 (State.stageOpen n f s) := by
  unfold State.stageOpen
  try dsimp only
  repeat' first | (with_reducible first | assumption | exact Keeps.refl _ | apply Keeps.ite | apply State.reply_keeps | apply State.sramPut_keeps) | (intro _ _ _ _; try dsimp only) | (intro _ _ _; try dsimp only) | split | (with_reducible first | apply Keeps.put | refine Keeps.putNv rfl ?_)

theorem State.stageMore_keeps (n : Fin 4) (f : Frame) {s0 s : State} (h : Keeps s0 s) :
    Keeps s0 (State.stageMore n f s) := by
  unfold State.stageMore
  try dsimp only
  repeat' first | (with_reducible first | assumption | exact Keeps.refl _ | apply Keeps.ite | apply State.reply_keeps | apply State.sramPut_keeps) | (intro _ _ _ _; try dsimp only) | (intro _ _ _; try dsimp only) | split

theorem State.opImgLoad_keeps (n : Fin 4) (f : Frame) {s0 s : State} (h : Keeps s0 s) :
    Keeps s0 (State.opImgLoad n f s) := by
  unfold State.opImgLoad
  try dsimp only
  repeat' first | (with_reducible first | assumption | exact Keeps.refl _ | apply Keeps.ite | apply State.orReject_keeps | apply State.reply_keeps | apply State.stageOpen_keeps | apply State.stageMore_keeps) | (intro _ _ _ _; try dsimp only) | (intro _ _ _; try dsimp only) | split

theorem State.opBegin_keeps (n : Fin 4) (f : Frame) (o : LongOp) {s0 s : State} (h : Keeps s0 s) :
    Keeps s0 (State.opBegin n f o s) := by
  unfold State.opBegin
  try dsimp only
  repeat' first | (with_reducible first | assumption | exact Keeps.refl _ | apply Keeps.ite | apply State.reply_keeps) | (intro _ _ _ _; try dsimp only) | (intro _ _ _; try dsimp only) | split | (with_reducible first | apply Keeps.put | refine Keeps.putNv rfl ?_)

theorem State.opImgCommit_keeps (n : Fin 4) (f : Frame) {s0 s : State} (h : Keeps s0 s) :
    Keeps s0 (State.opImgCommit n f s) := by
  unfold State.opImgCommit
  try dsimp only
  repeat' first | (with_reducible first | assumption | exact Keeps.refl _ | apply Keeps.ite | apply State.orReject_keeps | apply State.opBegin_keeps) | (intro _ _ _ _; try dsimp only) | (intro _ _ _; try dsimp only) | split

theorem State.admitTask_keeps (n : Fin 4) (d : Descr) (mailbox : List Word) {s0 s : State} (h : Keeps s0 s)
    {id : Nat} {t : State} (ht : s.admitTask n d mailbox = .ok (id, t)) : Keeps s0 t := by
  unfold State.admitTask at ht
  dsimp only at ht
  repeat' split at ht
  all_goals cases ht
  all_goals
    repeat' first
      | (with_reducible first | assumption | apply State.plc_keeps | apply State.loadUpdate_keeps | apply Keeps.ite | apply State.setEst_keeps | apply State.p_keeps | apply State.pb_keeps | apply State.mboxPut_keeps | apply State.segZero_keeps | apply State.constStore_keeps | apply State.taskRegs_keeps | apply State.used_keeps)
      | apply Keeps.put

theorem State.opTaskAdmit_keeps (n : Fin 4) (f : Frame) {s0 s : State} (h : Keeps s0 s) :
    Keeps s0 (State.opTaskAdmit n f s) := by
  unfold State.opTaskAdmit
  try dsimp only
  repeat' first | (with_reducible first | assumption | exact Keeps.refl _ | apply Keeps.ite | apply State.orReject_keeps | apply State.reply_keeps | refine (State.admitTask_keeps _ _ _ ?_ (ht := by assumption))) | (intro _ _ _ _; try dsimp only) | (intro _ _ _; try dsimp only) | split

theorem State.hold_keeps (n : Fin 4) (f : Frame) (w : Waiting) {s0 s : State} (h : Keeps s0 s) :
    Keeps s0 (State.hold n f w s) := by
  unfold State.hold
  try dsimp only
  repeat' first | (with_reducible first | assumption | exact Keeps.refl _ | apply Keeps.ite) | (intro _ _ _ _; try dsimp only) | (intro _ _ _; try dsimp only) | split | (with_reducible first | apply Keeps.put | refine Keeps.putNv rfl ?_)

theorem State.opTaskRetire_keeps (n : Fin 4) (f : Frame) {s0 s : State} (h : Keeps s0 s) :
    Keeps s0 (State.opTaskRetire n f s) := by
  unfold State.opTaskRetire
  try dsimp only
  repeat' first | (with_reducible first | assumption | exact Keeps.refl _ | apply Keeps.ite | apply State.orReject_keeps | apply State.reply_keeps | apply State.hold_keeps | apply State.cancelMove_keeps | apply State.modTask_keeps) | (intro _ _ _ _; try dsimp only) | (intro _ _ _; try dsimp only) | split

theorem State.opTaskMailbox_keeps (n : Fin 4) (f : Frame) {s0 s : State} (h : Keeps s0 s) :
    Keeps s0 (State.opTaskMailbox n f s) := by
  unfold State.opTaskMailbox
  try dsimp only
  repeat' first | (with_reducible first | assumption | exact Keeps.refl _ | apply Keeps.ite | apply State.orReject_keeps | apply State.reply_keeps | apply State.modTask_keeps | apply State.hold_keeps) | (intro _ _ _ _; try dsimp only) | (intro _ _ _; try dsimp only) | split

theorem State.benchOff_keeps {s0 s : State} (h : Keeps s0 s) :
    Keeps s0 (State.benchOff s) := by
  unfold State.benchOff
  try dsimp only
  repeat' first | (with_reducible first | assumption | exact Keeps.refl _ | apply Keeps.ite | apply overL_keeps | apply State.setPat_keeps | apply State.unitOff_keeps) | (intro _ _ _ _; try dsimp only) | (intro _ _ _; try dsimp only) | split

theorem State.leaveSafe_keeps {s0 s : State} (h : Keeps s0 s) :
    Keeps s0 (State.leaveSafe s) := by
  unfold State.leaveSafe
  try dsimp only
  repeat' first | (with_reducible first | assumption | exact Keeps.refl _ | apply Keeps.ite | apply overL_keeps | apply State.releaseDemand_keeps) | (intro _ _ _ _; try dsimp only) | (intro _ _ _; try dsimp only) | split

theorem State.modeDone_keeps (n : Fin 4) (f : Frame) (new : Nat) {s0 s : State} (h : Keeps s0 s) :
    Keeps s0 (State.modeDone n f new s) := by
  unfold State.modeDone
  try dsimp only
  repeat' first | (with_reducible first | assumption | exact Keeps.refl _ | apply Keeps.ite | apply State.benchOff_keeps | apply State.leaveSafe_keeps | apply State.transition_keeps | apply overL_keeps | apply State.axesFree_keeps | apply State.reply_keeps | apply State.pb_keeps) | (intro _ _ _ _; try dsimp only) | (intro _ _ _; try dsimp only) | split

theorem State.modeSleep_keeps (n : Fin 4) (f : Frame) {s0 s : State} (h : Keeps s0 s) :
    Keeps s0 (State.modeSleep n f s) := by
  unfold State.modeSleep
  try dsimp only
  repeat' first | (with_reducible first | assumption | exact Keeps.refl _ | apply Keeps.ite | apply State.pb_keeps | apply State.reply_keeps | apply State.hold_keeps) | (intro _ _ _ _; try dsimp only) | (intro _ _ _; try dsimp only) | split | (with_reducible first | apply Keeps.put | refine Keeps.putNv rfl ?_)

theorem State.modeGo_keeps (n : Fin 4) (f : Frame) (tgt : Nat) {s0 s : State} (h : Keeps s0 s) :
    Keeps s0 (State.modeGo n f tgt s) := by
  unfold State.modeGo
  try dsimp only
  repeat' first | (with_reducible first | assumption | exact Keeps.refl _ | apply Keeps.ite | apply State.modeSleep_keeps | apply State.orReject_keeps | apply State.modeDone_keeps | apply State.hold_keeps | apply State.reply_keeps) | (intro _ _ _ _; try dsimp only) | (intro _ _ _; try dsimp only) | split

theorem State.opModeReq_keeps (n : Fin 4) (f : Frame) {s0 s : State} (h : Keeps s0 s) :
    Keeps s0 (State.opModeReq n f s) := by
  unfold State.opModeReq
  try dsimp only
  repeat' first | (with_reducible first | assumption | exact Keeps.refl _ | apply Keeps.ite | apply State.orReject_keeps | apply State.reply_keeps | apply State.enterSafe_keeps | apply State.modeDone_keeps | apply State.modeGo_keeps) | (intro _ _ _ _; try dsimp only) | (intro _ _ _; try dsimp only) | split

theorem State.opNvCommit_keeps (n : Fin 4) (f : Frame) {s0 s : State} (h : Keeps s0 s) :
    Keeps s0 (State.opNvCommit n f s) := by
  unfold State.opNvCommit
  try dsimp only
  repeat' first | (with_reducible first | assumption | exact Keeps.refl _ | apply Keeps.ite | apply State.orReject_keeps | apply State.opBegin_keeps) | (intro _ _ _ _; try dsimp only) | (intro _ _ _; try dsimp only) | split

theorem State.bistTake_keeps (isl : Nat) {s0 s : State} (h : Keeps s0 s) :
    Keeps s0 (State.bistTake isl s) := by
  unfold State.bistTake
  try dsimp only
  repeat' first | (with_reducible first | assumption | exact Keeps.refl _ | apply Keeps.ite | apply State.plc_keeps | apply State.setEst_keeps | refine (State.drainTo_keeps _ _ ?_ (ht := by assumption))) | (intro _ _ _ _; try dsimp only) | (intro _ _ _; try dsimp only) | split

theorem State.opBistRun_keeps (n : Fin 4) (f : Frame) {s0 s : State} (h : Keeps s0 s) :
    Keeps s0 (State.opBistRun n f s) := by
  unfold State.opBistRun
  try dsimp only
  repeat' first | (with_reducible first | assumption | exact Keeps.refl _ | apply Keeps.ite | apply State.orReject_keeps | apply State.bistTake_keeps | apply State.opBegin_keeps) | (intro _ _ _ _; try dsimp only) | (intro _ _ _; try dsimp only) | split

theorem State.opCalRun_keeps (n : Fin 4) (f : Frame) {s0 s : State} (h : Keeps s0 s) :
    Keeps s0 (State.opCalRun n f s) := by
  unfold State.opCalRun
  try dsimp only
  repeat' first | (with_reducible first | assumption | exact Keeps.refl _ | apply Keeps.ite | apply State.orReject_keeps | apply State.opBegin_keeps) | (intro _ _ _ _; try dsimp only) | (intro _ _ _; try dsimp only) | split

theorem State.sessOpen_keeps (n : Fin 4) (f : Frame) (unlock : Bool) {s0 s : State} (h : Keeps s0 s) :
    Keeps s0 (State.sessOpen n f unlock s) := by
  unfold State.sessOpen
  try dsimp only
  repeat' first | (with_reducible first | assumption | exact Keeps.refl _ | apply Keeps.ite | apply State.orReject_keeps | apply State.used_keeps | apply State.reply_keeps | apply State.raise_keeps | apply State.sessRegs_keeps) | (intro _ _ _ _; try dsimp only) | (intro _ _ _; try dsimp only) | split | (with_reducible first | apply Keeps.put | refine Keeps.putNv rfl ?_)

theorem State.sessClose_keeps (n : Fin 4) (f : Frame) {s0 s : State} (h : Keeps s0 s) :
    Keeps s0 (State.sessClose n f s) := by
  unfold State.sessClose
  try dsimp only
  repeat' first | (with_reducible first | assumption | exact Keeps.refl _ | apply Keeps.ite | apply State.orReject_keeps | apply State.reply_keeps | apply State.sessEnd_keeps) | (intro _ _ _ _; try dsimp only) | (intro _ _ _; try dsimp only) | split

theorem State.sessSeed_keeps (n : Fin 4) (f : Frame) {s0 s : State} (h : Keeps s0 s) :
    Keeps s0 (State.sessSeed n f s) := by
  unfold State.sessSeed
  try dsimp only
  repeat' first | (with_reducible first | assumption | exact Keeps.refl _ | apply Keeps.ite | apply State.orReject_keeps | apply State.reply_keeps | apply State.sessRegs_keeps) | (intro _ _ _ _; try dsimp only) | (intro _ _ _; try dsimp only) | split | (with_reducible first | apply Keeps.put | refine Keeps.putNv rfl ?_)

theorem State.opSafeOpen_keeps (n : Fin 4) (f : Frame) {s0 s : State} (h : Keeps s0 s) :
    Keeps s0 (State.opSafeOpen n f s) := by
  unfold State.opSafeOpen
  try dsimp only
  repeat' first | (with_reducible first | assumption | exact Keeps.refl _ | apply Keeps.ite | apply State.orReject_keeps | apply State.sessOpen_keeps | apply State.sessClose_keeps | apply State.sessSeed_keeps) | (intro _ _ _ _; try dsimp only) | (intro _ _ _; try dsimp only) | split

theorem State.confirmFails_keeps (x : Session) {s0 s : State} (h : Keeps s0 s) :
    Keeps s0 (State.confirmFails x s) := by
  unfold State.confirmFails
  try dsimp only
  repeat' first | (with_reducible first | assumption | exact Keeps.refl _ | apply Keeps.ite | apply State.sessEnd_keeps | apply State.sessRegs_keeps) | (intro _ _ _ _; try dsimp only) | (intro _ _ _; try dsimp only) | split | (with_reducible first | apply Keeps.put | refine Keeps.putNv rfl ?_)

theorem State.opSafeConfirm_keeps (n : Fin 4) (f : Frame) {s0 s : State} (h : Keeps s0 s) :
    Keeps s0 (State.opSafeConfirm n f s) := by
  unfold State.opSafeConfirm
  try dsimp only
  repeat' first | (with_reducible first | assumption | exact Keeps.refl _ | apply Keeps.ite | apply State.orReject_keeps | apply State.reply_keeps | apply State.raise_keeps | apply State.sessRegs_keeps | apply State.confirmFails_keeps) | (intro _ _ _ _; try dsimp only) | (intro _ _ _; try dsimp only) | split | (with_reducible first | apply Keeps.put | refine Keeps.putNv rfl ?_)

theorem State.opSafeCommit_keeps (n : Fin 4) (f : Frame) {s0 s : State} (h : Keeps s0 s) :
    Keeps s0 (State.opSafeCommit n f s) := by
  unfold State.opSafeCommit
  try dsimp only
  repeat' first | (with_reducible first | assumption | exact Keeps.refl _ | apply Keeps.ite | apply State.orReject_keeps | apply State.reply_keeps | apply State.sessEnd_keeps | apply State.opBegin_keeps) | (intro _ _ _ _; try dsimp only) | (intro _ _ _; try dsimp only) | split

theorem State.opTelemSub_keeps (n : Fin 4) (f : Frame) {s0 s : State} (h : Keeps s0 s) :
    Keeps s0 (State.opTelemSub n f s) := by
  unfold State.opTelemSub
  try dsimp only
  repeat' first | (with_reducible first | assumption | exact Keeps.refl _ | apply Keeps.ite | apply State.orReject_keeps | apply State.reply_keeps) | (intro _ _ _ _; try dsimp only) | (intro _ _ _; try dsimp only) | split | (with_reducible first | apply Keeps.put | refine Keeps.putNv rfl ?_)

theorem State.opTelemUnsub_keeps (n : Fin 4) (f : Frame) {s0 s : State} (h : Keeps s0 s) :
    Keeps s0 (State.opTelemUnsub n f s) := by
  unfold State.opTelemUnsub
  try dsimp only
  repeat' first | (with_reducible first | assumption | exact Keeps.refl _ | apply Keeps.ite | apply State.orReject_keeps | apply State.reply_keeps) | (intro _ _ _ _; try dsimp only) | (intro _ _ _; try dsimp only) | split | (with_reducible first | apply Keeps.put | refine Keeps.putNv rfl ?_)

theorem State.opOpStatus_keeps (n : Fin 4) (f : Frame) {s0 s : State} (h : Keeps s0 s) :
    Keeps s0 (State.opOpStatus n f s) := by
  unfold State.opOpStatus
  try dsimp only
  repeat' first | (with_reducible first | assumption | exact Keeps.refl _ | apply Keeps.ite | apply State.orReject_keeps | apply State.reply_keeps) | (intro _ _ _ _; try dsimp only) | (intro _ _ _; try dsimp only) | split

theorem State.opOpAbort_keeps (n : Fin 4) (f : Frame) {s0 s : State} (h : Keeps s0 s) :
    Keeps s0 (State.opOpAbort n f s) := by
  unfold State.opOpAbort
  try dsimp only
  repeat' first | (with_reducible first | assumption | exact Keeps.refl _ | apply Keeps.ite | apply State.orReject_keeps | apply State.reply_keeps | apply State.hold_keeps) | (intro _ _ _ _; try dsimp only) | (intro _ _ _; try dsimp only) | split | (with_reducible first | apply Keeps.put | refine Keeps.putNv rfl ?_)

theorem State.dispatch_keeps (n : Fin 4) (f : Frame) {s0 s : State} (h : Keeps s0 s) :
    Keeps s0 (State.dispatch n f s) := by
  unfold State.dispatch
  try dsimp only
  repeat' first | (with_reducible first | assumption | exact Keeps.refl _ | apply Keeps.ite | apply State.opStatusWords_keeps | apply State.opRead_keeps | apply State.opWrite_keeps | apply State.opDoorbell_keeps | apply State.opImgLoad_keeps | apply State.opImgCommit_keeps | apply State.opTaskAdmit_keeps | apply State.opTaskRetire_keeps | apply State.opTaskMailbox_keeps | apply State.opModeReq_keeps | apply State.opNvCommit_keeps | apply State.opBistRun_keeps | apply State.opCalRun_keeps | apply State.opSafeOpen_keeps | apply State.opSafeConfirm_keeps | apply State.opSafeCommit_keeps | apply State.opTelemSub_keeps | apply State.opTelemUnsub_keeps | apply State.opOpStatus_keeps | apply State.opOpAbort_keeps | apply State.reply_keeps) | (intro _ _ _ _; try dsimp only) | (intro _ _ _; try dsimp only) | split

theorem State.serveOne_keeps (n : Fin 4) (f : Frame) (l : List Frame) {s0 s : State} (h : Keeps s0 s) :
    Keeps s0 (State.serveOne n f l s) := by
  unfold State.serveOne
  try dsimp only
  repeat' first | (with_reducible first | assumption | exact Keeps.refl _ | apply Keeps.ite | apply State.takeFrame_keeps | apply State.dispatch_keeps | apply State.reply_keeps) | (intro _ _ _ _; try dsimp only) | (intro _ _ _; try dsimp only) | split

theorem State.serve_keeps (k : Nat) {s0 s : State} (h : Keeps s0 s) : Keeps s0 (State.serve k s) := by
  induction k generalizing s with
  | zero => exact h
  | succ k ih =>
    unfold State.serve
    split
    · exact h
    · split
      · exact h
      · exact ih (State.serveOne_keeps _ _ _ h)

theorem State.serveAll_keeps {s0 s : State} (h : Keeps s0 s) :
    Keeps s0 (State.serveAll s) := by
  unfold State.serveAll
  try dsimp only
  repeat' first | (with_reducible first | assumption | exact Keeps.refl _ | apply Keeps.ite | apply State.serve_keeps) | (intro _ _ _ _; try dsimp only) | (intro _ _ _; try dsimp only) | split

theorem State.boundary_keeps (t : Nat) {s0 s : State} (h : Keeps s0 s) :
    Keeps s0 (State.boundary t s) := by
  unfold State.boundary
  try dsimp only
  repeat' first | (with_reducible first | assumption | exact Keeps.refl _ | apply Keeps.ite | apply State.retireDue_keeps | apply State.mailboxAll_keeps | apply State.modTask_keeps | apply overL_keeps | apply State.axisBoundary_keeps | apply State.serveAll_keeps | apply State.boundaryStep_keeps) | (intro _ _ _ _; try dsimp only) | (intro _ _ _; try dsimp only) | split

theorem State.keepCapture_keeps (x : Nat × Nat) (c : Capture) {s0 s : State} (h : Keeps s0 s) :
    Keeps s0 (State.keepCapture x c s) := by
  unfold State.keepCapture
  try dsimp only
  repeat' first | (with_reducible first | assumption | exact Keeps.refl _ | apply Keeps.ite | apply State.modDsm_keeps | apply State.modConv_keeps) | (intro _ _ _ _; try dsimp only) | (intro _ _ _; try dsimp only) | split

theorem State.deliver_keeps (x : Nat × Nat) (tick : Nat) (raw : Option Int) {s0 s : State} (h : Keeps s0 s) :
    Keeps s0 (State.deliver x tick raw s).1 := by
  unfold State.deliver
  split
  · exact h
  · exact State.keepCapture_keeps _ _ h
  · exact h

theorem State.memberCapture_keeps (m : Nat) (raw : Option Int) {s0 s : State} (h : Keeps s0 s) :
    Keeps s0 (State.memberCapture m raw s).1 := by
  have k : Keeps s0 (if m < 64 then (s, some m) else State.capture (m - 64) s).1 := by
    split
    · exact h
    · exact State.capture_keeps _ h
  unfold State.memberCapture
  generalize (if m < 64 then (s, some m) else State.capture (m - 64) s) = y at k
  dsimp only
  split
  · exact k
  · exact State.deliver_keeps _ _ _ k

theorem State.keepFrame_keeps (t : Machine.Task) (b : Boundary) (arr : List (Option Int)) {s0 s : State} (h : Keeps s0 s) :
    Keeps s0 (State.keepFrame t b arr s) := by
  unfold State.keepFrame
  try dsimp only
  repeat' first | (with_reducible first | assumption | exact Keeps.refl _ | apply Keeps.ite | apply overL_keeps | apply State.deliver_keeps) | (intro _ _ _ _; try dsimp only) | (intro _ _ _; try dsimp only) | split

theorem State.startStep_keeps (t : Machine.Task) (b : Boundary) (frame : List FrameVal) {s0 s : State} (h : Keeps s0 s) :
    Keeps s0 (State.startStep t b frame s) := by
  unfold State.startStep
  try dsimp only
  repeat' first | (with_reducible first | assumption | exact Keeps.refl _ | apply Keeps.ite | apply State.modTask_keeps | apply State.modEng_keeps) | (intro _ _ _ _; try dsimp only) | (intro _ _ _; try dsimp only) | split | (with_reducible first | apply Keeps.put | refine Keeps.putNv rfl ?_)

theorem State.release_keeps (t : Nat) (arr : List (Option Int)) (late : Bool) {s0 s : State} (h : Keeps s0 s) :
    Keeps s0 (State.release t arr late s) := by
  unfold State.release
  try dsimp only
  repeat' first | (with_reducible first | assumption | exact Keeps.refl _ | apply Keeps.ite | apply State.startStep_keeps | apply State.keepFrame_keeps) | (intro _ _ _ _; try dsimp only) | (intro _ _ _; try dsimp only) | split

theorem State.moveRestart_keeps (t : Machine.Task) (st : Step) {s0 s : State} (h : Keeps s0 s) :
    Keeps s0 (State.moveRestart t st s) := by
  unfold State.moveRestart
  try dsimp only
  repeat' first | (with_reducible first | assumption | exact Keeps.refl _ | apply Keeps.ite | apply State.commitMove_keeps | apply State.endStep_keeps | apply State.rollback_keeps | apply State.modEng_keeps) | (intro _ _ _ _; try dsimp only) | (intro _ _ _; try dsimp only) | split

theorem State.preCopied_keeps (t : Nat) {s0 s : State} (h : Keeps s0 s) :
    Keeps s0 (State.preCopied t s) := by
  unfold State.preCopied
  try dsimp only
  repeat' first | (with_reducible first | assumption | exact Keeps.refl _ | apply Keeps.ite | apply State.modTask_keeps | apply State.localNew_keeps) | (intro _ _ _ _; try dsimp only) | (intro _ _ _; try dsimp only) | split

theorem State.precopy_keeps (t : Nat) {s0 s : State} (h : Keeps s0 s) :
    Keeps s0 (State.precopy t s) := by
  unfold State.precopy
  try dsimp only
  repeat' first | (with_reducible first | assumption | exact Keeps.refl _ | apply Keeps.ite | apply State.moveRestart_keeps | apply State.preCopied_keeps) | (intro _ _ _ _; try dsimp only) | (intro _ _ _; try dsimp only) | split

theorem State.moveCommit_keeps (t : Nat) {s0 s : State} (h : Keeps s0 s) :
    Keeps s0 (State.moveCommit t s) := by
  unfold State.moveCommit
  try dsimp only
  repeat' first | (with_reducible first | assumption | exact Keeps.refl _ | apply Keeps.ite | apply State.serveAll_keeps | apply State.commitMove_keeps) | (intro _ _ _ _; try dsimp only) | (intro _ _ _; try dsimp only) | split

theorem State.islandFails_keeps (i : Nat) {s0 s : State} (h : Keeps s0 s) :
    Keeps s0 (State.islandFails i s) := by
  unfold State.islandFails
  try dsimp only
  repeat' first | (with_reducible first | assumption | exact Keeps.refl _ | apply Keeps.ite | apply State.pb_keeps | apply overL_keeps | apply State.forcePad_keeps | apply State.faultSafe_keeps | apply State.engineFailed_keeps | apply State.enterSafe_keeps | apply State.guarUpdate_keeps) | (intro _ _ _ _; try dsimp only) | (intro _ _ _; try dsimp only) | split | (with_reducible first | apply Keeps.put | refine Keeps.putNv rfl ?_)

theorem State.noteFault_keeps (i : Nat) {s0 s : State} (h : Keeps s0 s) :
    Keeps s0 (State.noteFault i s) := by
  unfold State.noteFault
  try dsimp only
  repeat' first | (with_reducible first | assumption | exact Keeps.refl _ | apply Keeps.ite) | (intro _ _ _ _; try dsimp only) | (intro _ _ _; try dsimp only) | split | (with_reducible first | apply Keeps.put | refine Keeps.putNv rfl ?_)

theorem State.clockFails_keeps (i : Nat) {s0 s : State} (h : Keeps s0 s) :
    Keeps s0 (State.clockFails i s) := by
  unfold State.clockFails
  try dsimp only
  repeat' first | (with_reducible first | assumption | exact Keeps.refl _ | apply Keeps.ite | apply State.raise_keeps | apply State.pbit_keeps | apply State.afterCause_keeps | apply State.islandFails_keeps | apply State.noteFault_keeps) | (intro _ _ _ _; try dsimp only) | (intro _ _ _; try dsimp only) | split

theorem State.xferIn_keeps (src : Nat) (dst : Nat) (t : Transfer) {s0 s : State} (h : Keeps s0 s) :
    Keeps s0 (State.xferIn src dst t s) := by
  unfold State.xferIn
  try dsimp only
  repeat' first | (with_reducible first | assumption | exact Keeps.refl _ | apply Keeps.ite) | (intro _ _ _ _; try dsimp only) | (intro _ _ _; try dsimp only) | split | (with_reducible first | apply Keeps.put | refine Keeps.putNv rfl ?_)

theorem State.crossingFails_keeps (src : Nat) (dst : Nat) {s0 s : State} (h : Keeps s0 s) :
    Keeps s0 (State.crossingFails src dst s) := by
  unfold State.crossingFails
  try dsimp only
  repeat' first | (with_reducible first | assumption | exact Keeps.refl _ | apply Keeps.ite | apply State.p_keeps | apply State.pb_keeps | apply State.raise_keeps | apply State.afterCause_keeps | apply State.islandFails_keeps | apply State.noteFault_keeps) | (intro _ _ _ _; try dsimp only) | (intro _ _ _; try dsimp only) | split

theorem State.transfer_keeps (src : Nat) (dst : Nat) (first : Transfer) (resent : Transfer) {s0 s : State} (h : Keeps s0 s) :
    Keeps s0 (State.transfer src dst first resent s) := by
  unfold State.transfer
  try dsimp only
  repeat' first | (with_reducible first | assumption | exact Keeps.refl _ | apply Keeps.ite | apply State.xferIn_keeps | apply State.inc_keeps | apply State.crossingFails_keeps) | (intro _ _ _ _; try dsimp only) | (intro _ _ _; try dsimp only) | split

theorem State.refLoss_keeps {s0 s : State} (h : Keeps s0 s) :
    Keeps s0 (State.refLoss s) := by
  unfold State.refLoss
  try dsimp only
  repeat' first | (with_reducible first | assumption | exact Keeps.refl _ | apply Keeps.ite | apply State.raise_keeps | apply State.pb_keeps | apply State.afterCause_keeps | apply State.enterSafe_keeps | apply State.guarUpdate_keeps) | (intro _ _ _ _; try dsimp only) | (intro _ _ _; try dsimp only) | split | (with_reducible first | apply Keeps.put | refine Keeps.putNv rfl ?_)

theorem State.tbaseFault_keeps (i : Nat) {s0 s : State} (h : Keeps s0 s) :
    Keeps s0 (State.tbaseFault i s) := by
  unfold State.tbaseFault
  try dsimp only
  repeat' first | (with_reducible first | assumption | exact Keeps.refl _ | apply Keeps.ite | apply State.raise_keeps | apply State.pb_keeps | apply State.afterCause_keeps | apply State.enterSafe_keeps) | (intro _ _ _ _; try dsimp only) | (intro _ _ _; try dsimp only) | split | (with_reducible first | apply Keeps.put | refine Keeps.putNv rfl ?_)

theorem State.modSafe_keeps (a : Nat) (f : SafeAxis → SafeAxis) {s0 s : State} (h : Keeps s0 s) :
    Keeps s0 (State.modSafe a f s) := by
  unfold State.modSafe
  try dsimp only
  repeat' first | (with_reducible first | assumption | exact Keeps.refl _ | apply Keeps.ite) | (intro _ _ _ _; try dsimp only) | (intro _ _ _; try dsimp only) | split | (with_reducible first | apply Keeps.put | refine Keeps.putNv rfl ?_)

theorem State.modSout_keeps (j : Nat) (f : Sout → Sout) {s0 s : State} (h : Keeps s0 s) :
    Keeps s0 (State.modSout j f s) := by
  unfold State.modSout
  try dsimp only
  repeat' first | (with_reducible first | assumption | exact Keeps.refl _ | apply Keeps.ite) | (intro _ _ _ _; try dsimp only) | (intro _ _ _; try dsimp only) | split | (with_reducible first | apply Keeps.put | refine Keeps.putNv rfl ?_)

theorem State.stoInput_keeps (b : Bool) {s0 s : State} (h : Keeps s0 s) :
    Keeps s0 (State.stoInput b s) := by
  unfold State.stoInput
  try dsimp only
  repeat' first | (with_reducible first | assumption | exact Keeps.refl _ | apply Keeps.ite | apply State.raise_keeps | apply State.pb_keeps | apply overL_keeps | apply State.forceSto_keeps | apply State.relink_keeps | apply State.enterSafe_keeps) | (intro _ _ _ _; try dsimp only) | (intro _ _ _; try dsimp only) | split | (with_reducible first | apply Keeps.put | refine Keeps.putNv rfl ?_)

theorem State.stoOpen_keeps (b : Bool) {s0 s : State} (h : Keeps s0 s) :
    Keeps s0 (State.stoOpen b s) := by
  unfold State.stoOpen
  try dsimp only
  repeat' first | (with_reducible first | assumption | exact Keeps.refl _ | apply Keeps.ite | apply State.pb_keeps) | (intro _ _ _ _; try dsimp only) | (intro _ _ _; try dsimp only) | split | (with_reducible first | apply Keeps.put | refine Keeps.putNv rfl ?_)

theorem State.stoDisc_keeps (b : Bool) {s0 s : State} (h : Keeps s0 s) :
    Keeps s0 (State.stoDisc b s) := by
  unfold State.stoDisc
  try dsimp only
  repeat' first | (with_reducible first | assumption | exact Keeps.refl _ | apply Keeps.ite | apply State.raise_keeps | apply State.pb_keeps) | (intro _ _ _ _; try dsimp only) | (intro _ _ _; try dsimp only) | split | (with_reducible first | apply Keeps.put | refine Keeps.putNv rfl ?_)

theorem State.modSin_keeps (ch : Nat) (f : SinCh → SinCh) {s0 s : State} (h : Keeps s0 s) :
    Keeps s0 (State.modSin ch f s) := by
  unfold State.modSin
  try dsimp only
  repeat' first | (with_reducible first | assumption | exact Keeps.refl _ | apply Keeps.ite) | (intro _ _ _ _; try dsimp only) | (intro _ _ _; try dsimp only) | split | (with_reducible first | apply Keeps.put | refine Keeps.putNv rfl ?_)

theorem State.sinLevel_keeps (ch : Nat) (level : Bool) {s0 s : State} (h : Keeps s0 s) :
    Keeps s0 (State.sinLevel ch level s) := by
  unfold State.sinLevel
  try dsimp only
  repeat' first | (with_reducible first | assumption | exact Keeps.refl _ | apply Keeps.ite | apply State.modSin_keeps | apply State.pairUpdate_keeps | apply State.pb_keeps) | (intro _ _ _ _; try dsimp only) | (intro _ _ _; try dsimp only) | split

theorem State.tpoPulse_keeps (k : Nat) {s0 s : State} (h : Keeps s0 s) :
    Keeps s0 (State.tpoPulse k s) := by
  unfold State.tpoPulse
  try dsimp only
  repeat' first | (with_reducible first | assumption | exact Keeps.refl _ | apply Keeps.ite | apply overL_keeps | apply State.modSin_keeps) | (intro _ _ _ _; try dsimp only) | (intro _ _ _; try dsimp only) | split

theorem State.pairFault_keeps (i : Nat) (cause : Nat) {s0 s : State} (h : Keeps s0 s) :
    Keeps s0 (State.pairFault i cause s) := by
  unfold State.pairFault
  try dsimp only
  repeat' first | (with_reducible first | assumption | exact Keeps.refl _ | apply Keeps.ite | apply State.p_keeps | apply State.pb_keeps | apply State.raise_keeps | apply State.pairUpdate_keeps) | (intro _ _ _ _; try dsimp only) | (intro _ _ _; try dsimp only) | split | (with_reducible first | apply Keeps.put | refine Keeps.putNv rfl ?_)

theorem State.windowEnd_keeps (ch : Nat) (wentLow : Bool) {s0 s : State} (h : Keeps s0 s) :
    Keeps s0 (State.windowEnd ch wentLow s) := by
  unfold State.windowEnd
  try dsimp only
  repeat' first | (with_reducible first | assumption | exact Keeps.refl _ | apply Keeps.ite | apply State.modSin_keeps | apply State.pairFault_keeps) | (intro _ _ _ _; try dsimp only) | (intro _ _ _; try dsimp only) | split

theorem State.stoUnits_keeps (a : Nat) {s0 s : State} (h : Keeps s0 s) :
    Keeps s0 (State.stoUnits a s) := by
  unfold State.stoUnits
  try dsimp only
  repeat' first | (with_reducible first | assumption | exact Keeps.refl _ | apply Keeps.ite | apply overL_keeps | apply State.forceSto_keeps | apply State.armLink_keeps) | (intro _ _ _ _; try dsimp only) | (intro _ _ _; try dsimp only) | split

theorem State.stoAxis_keeps (a : Nat) {s0 s : State} (h : Keeps s0 s) :
    Keeps s0 (State.stoAxis a s) := by
  unfold State.stoAxis
  try dsimp only
  repeat' first | (with_reducible first | assumption | exact Keeps.refl _ | apply Keeps.ite | apply State.stoUnits_keeps | apply overL_keeps | apply State.modSout_keeps | apply State.modSafe_keeps | apply State.pb_keeps | apply State.raise_keeps | apply State.pbit_keeps) | (intro _ _ _ _; try dsimp only) | (intro _ _ _; try dsimp only) | split

theorem State.soutTest_keeps (j : Nat) {s0 s : State} (h : Keeps s0 s) :
    Keeps s0 (State.soutTest j s) := by
  unfold State.soutTest
  try dsimp only
  repeat' first | (with_reducible first | assumption | exact Keeps.refl _ | apply Keeps.ite | apply State.modSout_keeps) | (intro _ _ _ _; try dsimp only) | (intro _ _ _; try dsimp only) | split

theorem State.soutFault_keeps (j : Nat) (cause : Nat) {s0 s : State} (h : Keeps s0 s) :
    Keeps s0 (State.soutFault j cause s) := by
  unfold State.soutFault
  try dsimp only
  repeat' first | (with_reducible first | assumption | exact Keeps.refl _ | apply Keeps.ite | apply State.raise_keeps | apply State.p_keeps | apply State.pb_keeps | apply State.stoAxis_keeps | apply State.modSout_keeps) | (intro _ _ _ _; try dsimp only) | (intro _ _ _; try dsimp only) | split

theorem State.soutTestEnd_keeps (j : Nat) (r : SoutReadback) {s0 s : State} (h : Keeps s0 s) :
    Keeps s0 (State.soutTestEnd j r s) := by
  unfold State.soutTestEnd
  try dsimp only
  repeat' first | (with_reducible first | assumption | exact Keeps.refl _ | apply Keeps.ite | apply State.modSout_keeps | apply State.soutFault_keeps) | (intro _ _ _ _; try dsimp only) | (intro _ _ _; try dsimp only) | split

theorem State.ethDrop_keeps (m : Nat) {s0 s : State} (h : Keeps s0 s) :
    Keeps s0 (State.ethDrop m s) := by
  unfold State.ethDrop
  try dsimp only
  repeat' first | (with_reducible first | assumption | exact Keeps.refl _ | apply Keeps.ite | apply State.inc_keeps) | (intro _ _ _ _; try dsimp only) | (intro _ _ _; try dsimp only) | split

theorem State.ethBell_keeps (m : Nat) (v : Word) {s0 s : State} (h : Keeps s0 s) :
    Keeps s0 (State.ethBell m v s) := by
  unfold State.ethBell
  try dsimp only
  repeat' first | (with_reducible first | assumption | exact Keeps.refl _ | apply Keeps.ite | apply State.raiseFull_keeps | apply State.ethDrop_keeps) | (intro _ _ _ _; try dsimp only) | (intro _ _ _; try dsimp only) | split

theorem State.discardFrame_keeps (n : Fin 4) (f : Frame) {s0 s : State} (h : Keeps s0 s) :
    Keeps s0 (State.discardFrame n f s) := by
  unfold State.discardFrame
  try dsimp only
  repeat' first | (with_reducible first | assumption | exact Keeps.refl _ | apply Keeps.ite | apply State.inc_keeps | apply State.pb_keeps) | (intro _ _ _ _; try dsimp only) | (intro _ _ _; try dsimp only) | split | (with_reducible first | apply Keeps.put | refine Keeps.putNv rfl ?_)

theorem State.enqueue_keeps (n : Fin 4) (f : Frame) {s0 s : State} (h : Keeps s0 s) :
    Keeps s0 (State.enqueue n f s) := by
  unfold State.enqueue
  try dsimp only
  repeat' first | (with_reducible first | assumption | exact Keeps.refl _ | apply Keeps.ite | apply State.discardFrame_keeps | apply State.setWord_keeps) | (intro _ _ _ _; try dsimp only) | (intro _ _ _; try dsimp only) | split | (with_reducible first | apply Keeps.put | refine Keeps.putNv rfl ?_)

theorem State.cmdArrive_keeps (n : Fin 4) (f : Frame) {s0 s : State} (h : Keeps s0 s) :
    Keeps s0 (State.cmdArrive n f s) := by
  unfold State.cmdArrive
  try dsimp only
  repeat' first | (with_reducible first | assumption | exact Keeps.refl _ | apply Keeps.ite | apply State.serveAll_keeps | apply State.enqueue_keeps) | (intro _ _ _ _; try dsimp only) | (intro _ _ _; try dsimp only) | split

theorem State.hostEth_keeps (m : Nat) (b : List Byte) (pay : List Byte) {s0 s : State} (h : Keeps s0 s) :
    Keeps s0 (State.hostEth m b pay s) := by
  unfold State.hostEth
  try dsimp only
  repeat' first | (with_reducible first | assumption | exact Keeps.refl _ | apply Keeps.ite | apply State.ethDrop_keeps | apply State.cmdArrive_keeps | apply State.ethBell_keeps) | (intro _ _ _ _; try dsimp only) | (intro _ _ _; try dsimp only) | split

theorem State.connBad_keeps (c : Nat) {s0 s : State} (h : Keeps s0 s) :
    Keeps s0 (State.connBad c s) := by
  unfold State.connBad
  try dsimp only
  repeat' first | (with_reducible first | assumption | exact Keeps.refl _ | apply Keeps.ite | apply State.inc_keeps) | (intro _ _ _ _; try dsimp only) | (intro _ _ _; try dsimp only) | split

theorem State.pduDischarge_keeps (old : List Byte) (new : List Byte) {s0 s : State} (h : Keeps s0 s) :
    Keeps s0 (State.pduDischarge old new s) := by
  unfold State.pduDischarge
  try dsimp only
  repeat' first | (with_reducible first | assumption | exact Keeps.refl _ | apply Keeps.ite | apply overL_keeps | apply State.dscGo_keeps) | (intro _ _ _ _; try dsimp only) | (intro _ _ _; try dsimp only) | split

theorem State.connAccept_keeps (c : Nat) (seq : Nat) (bytes : List Byte) (both : Bool) {s0 s : State} (h : Keeps s0 s) :
    Keeps s0 (State.connAccept c seq bytes both s) := by
  unfold State.connAccept
  try dsimp only
  repeat' first | (with_reducible first | assumption | exact Keeps.refl _ | apply Keeps.ite | apply State.modConn_keeps | apply State.p_keeps | apply State.pb_keeps | apply State.pduDischarge_keeps | apply State.raise_keeps) | (intro _ _ _ _; try dsimp only) | (intro _ _ _; try dsimp only) | split

theorem State.connFault_keeps (c : Nat) (cause : Nat) {s0 s : State} (h : Keeps s0 s) :
    Keeps s0 (State.connFault c cause s) := by
  unfold State.connFault
  try dsimp only
  repeat' first | (with_reducible first | assumption | exact Keeps.refl _ | apply Keeps.ite | apply State.raise_keeps | apply State.p_keeps | apply State.pb_keeps | apply State.pduDischarge_keeps | apply State.modConn_keeps) | (intro _ _ _ _; try dsimp only) | (intro _ _ _; try dsimp only) | split

theorem State.connWindowEnd_keeps (c : Nat) {s0 s : State} (h : Keeps s0 s) :
    Keeps s0 (State.connWindowEnd c s) := by
  unfold State.connWindowEnd
  try dsimp only
  repeat' first | (with_reducible first | assumption | exact Keeps.refl _ | apply Keeps.ite | apply State.connAccept_keeps) | (intro _ _ _ _; try dsimp only) | (intro _ _ _; try dsimp only) | split

theorem State.connOpen_keeps (c : Nat) (seq : Nat) (second : Bool) (bytes : List Byte) {s0 s : State} (h : Keeps s0 s) :
    Keeps s0 (State.connOpen c seq second bytes s) := by
  unfold State.connOpen
  try dsimp only
  repeat' first | (with_reducible first | assumption | exact Keeps.refl _ | apply Keeps.ite | apply State.pduDischarge_keeps | apply State.modConn_keeps) | (intro _ _ _ _; try dsimp only) | (intro _ _ _; try dsimp only) | split

theorem State.pduIn_keeps (c : Nat) (second : Bool) (bytes : List Byte) {s0 s : State} (h : Keeps s0 s) :
    Keeps s0 (State.pduIn c second bytes s) := by
  unfold State.pduIn
  try dsimp only
  repeat' first | (with_reducible first | assumption | exact Keeps.refl _ | apply Keeps.ite | apply State.connBad_keeps | apply State.connAccept_keeps | apply State.connFault_keeps | apply State.connWindowEnd_keeps | apply State.connOpen_keeps) | (intro _ _ _ _; try dsimp only) | (intro _ _ _; try dsimp only) | split

theorem State.ethPdu_keeps (m : Nat) (pay : List Byte) {s0 s : State} (h : Keeps s0 s) :
    Keeps s0 (State.ethPdu m pay s) := by
  unfold State.ethPdu
  try dsimp only
  repeat' first | (with_reducible first | assumption | exact Keeps.refl _ | apply Keeps.ite | apply overL_keeps | apply State.pduIn_keeps | apply State.connBad_keeps) | (intro _ _ _ _; try dsimp only) | (intro _ _ _; try dsimp only) | split

theorem State.netPush_keeps (q : Nat) (entry : List Word) (buf : List Byte) {s0 s : State} (h : Keeps s0 s) :
    Keeps s0 (State.netPush q entry buf s) := by
  unfold State.netPush
  try dsimp only
  repeat' first | (with_reducible first | assumption | exact Keeps.refl _ | apply Keeps.ite | apply State.inc_keeps | apply State.qPush_keeps | apply State.sramPut_keeps) | (intro _ _ _ _; try dsimp only) | (intro _ _ _; try dsimp only) | split

theorem State.ethIn_keeps (m : Nat) (f : EthFrame) {s0 s : State} (h : Keeps s0 s) : Keeps s0 (State.ethIn m f s) := by
  have k : Keeps s0 (State.ethCheck m f s).1 := by
    unfold State.ethCheck
    split
    · exact State.ethDrop_keeps _ (State.pb_keeps _ _ _ h)
    · split
      · exact State.inc_keeps _ _ _ h
      · split
        · exact State.ethDrop_keeps _ h
        · exact h
  unfold State.ethIn
  dsimp only
  repeat' first
    | (with_reducible first | assumption | apply Keeps.ite | apply State.ethPdu_keeps | apply State.hostEth_keeps | apply State.netPush_keeps)
    | split

theorem State.eventsOut_keeps (n : Fin 4) (cnt : Nat) {s0 s : State} (h : Keeps s0 s) :
    Keeps s0 (State.eventsOut n cnt s) := by
  unfold State.eventsOut
  try dsimp only
  repeat' first | (with_reducible first | assumption | exact Keeps.refl _ | apply Keeps.ite | apply State.setWord_keeps) | (intro _ _ _ _; try dsimp only) | (intro _ _ _; try dsimp only) | split

theorem State.respOut_keeps (n : Fin 4) (words : Nat) {s0 s : State} (h : Keeps s0 s) :
    Keeps s0 (State.respOut n words s) := by
  unfold State.respOut
  try dsimp only
  repeat' first | (with_reducible first | assumption | exact Keeps.refl _ | apply Keeps.ite | apply State.setWord_keeps) | (intro _ _ _ _; try dsimp only) | (intro _ _ _; try dsimp only) | split | (with_reducible first | apply Keeps.put | refine Keeps.putNv rfl ?_)

theorem State.transportSent_keeps (n : Fin 4) (events : Bool) (cnt : Nat) {s0 s : State} (h : Keeps s0 s) :
    Keeps s0 (State.transportSent n events cnt s) := by
  unfold State.transportSent
  try dsimp only
  repeat' first | (with_reducible first | assumption | exact Keeps.refl _ | apply Keeps.ite | apply State.eventsOut_keeps | apply State.respOut_keeps) | (intro _ _ _ _; try dsimp only) | (intro _ _ _; try dsimp only) | split | (with_reducible first | apply Keeps.put | refine Keeps.putNv rfl ?_)

theorem State.spiFrame_keeps (n : Fin 4) (f : Frame) {s0 s : State} (h : Keeps s0 s) :
    Keeps s0 (State.spiFrame n f s) := by
  unfold State.spiFrame
  try dsimp only
  repeat' first | (with_reducible first | assumption | exact Keeps.refl _ | apply Keeps.ite | apply State.pb_keeps | apply State.cmdArrive_keeps) | (intro _ _ _ _; try dsimp only) | (intro _ _ _; try dsimp only) | split

theorem State.host_keeps (n : Fin 4) (opc : Nat) (tag : BitVec 8) (arg : Word) (pl : List Word) {s0 s : State} (h : Keeps s0 s) :
    Keeps s0 (State.host n opc tag arg pl s) := by
  unfold State.host
  try dsimp only
  repeat' first | (with_reducible first | assumption | exact Keeps.refl _ | apply Keeps.ite | apply State.spiFrame_keeps) | (intro _ _ _ _; try dsimp only) | (intro _ _ _; try dsimp only) | split

theorem State.clockOut_keeps (n : Fin 4) (frame : List Word) (words : Nat) {s0 s : State} (h : Keeps s0 s) :
    Keeps s0 (State.clockOut n frame words s) := by
  unfold State.clockOut
  try dsimp only
  repeat' first | (with_reducible first | assumption | exact Keeps.refl _ | apply Keeps.ite) | (intro _ _ _ _; try dsimp only) | (intro _ _ _; try dsimp only) | split | (with_reducible first | apply Keeps.put | refine Keeps.putNv rfl ?_)

theorem State.rhax_keeps (e : Fin 16) (len : Nat) {f : Op} (hf : f.Keeping) {s0 s : State} (h : Keeps s0 s) :
    Keeps s0 (State.rhax e len f s) := by
  unfold State.rhax
  split
  · exact h
  · exact State.instr_keeps _ _ hf h

theorem State.dieTemp_keeps (j : DieJudgement) {s0 s : State} (h : Keeps s0 s) :
    Keeps s0 (State.dieTemp j s) := by
  unfold State.dieTemp
  try dsimp only
  repeat' first | (with_reducible first | assumption | exact Keeps.refl _ | apply Keeps.ite | apply State.guarUpdate_keeps | apply State.raise_keeps | apply State.faultSafe_keeps) | (intro _ _ _ _; try dsimp only) | (intro _ _ _; try dsimp only) | split | (with_reducible first | apply Keeps.put | refine Keeps.putNv rfl ?_)

theorem State.axesIdle_keeps {s0 s : State} (h : Keeps s0 s) :
    Keeps s0 (State.axesIdle s) := by
  unfold State.axesIdle
  try dsimp only
  repeat' first | (with_reducible first | assumption | exact Keeps.refl _ | apply Keeps.ite | apply overL_keeps | apply State.modAxis_keeps | apply State.setAxis_keeps) | (intro _ _ _ _; try dsimp only) | (intro _ _ _; try dsimp only) | split

theorem State.runToReadyDone_keeps {s0 s : State} (h : Keeps s0 s) :
    Keeps s0 (State.runToReadyDone s) := by
  unfold State.runToReadyDone
  try dsimp only
  repeat' first | (with_reducible first | assumption | exact Keeps.refl _ | apply Keeps.ite | apply State.finish_keeps | apply State.transition_keeps | apply State.axesIdle_keeps) | (intro _ _ _ _; try dsimp only) | (intro _ _ _; try dsimp only) | split | (with_reducible first | apply Keeps.put | refine Keeps.putNv rfl ?_)

theorem State.chargeO_keeps (e : Nat) (t : Nat) (x : Option Machine.Task) {s0 s : State} (h : Keeps s0 s) :
    Keeps s0 (State.chargeO e t x s) := by
  unfold State.chargeO
  try dsimp only
  repeat' first | (with_reducible first | assumption | exact Keeps.refl _ | apply Keeps.ite | apply State.taskSafe_keeps | apply State.dropTask_keeps | apply State.raise_keeps | apply State.inc_keeps | apply State.charge_keeps) | (intro _ _ _ _; try dsimp only) | (intro _ _ _; try dsimp only) | split | (with_reducible first | apply Keeps.put | refine Keeps.putNv rfl ?_)

theorem State.classO_keeps (e : Nat) (st : Step) (cause : Nat) (item : Nat) {s0 s : State} (h : Keeps s0 s) :
    Keeps s0 (State.classO e st cause item s) := by
  unfold State.classO
  try dsimp only
  repeat' first | (with_reducible first | assumption | exact Keeps.refl _ | apply Keeps.ite | apply State.raise_keeps | apply State.inc_keeps | apply State.lastVerdict_keeps | apply State.withdrawn_keeps | apply State.chargeO_keeps | apply State.rejected_keeps) | (intro _ _ _ _; try dsimp only) | (intro _ _ _; try dsimp only) | split

theorem State.canaryFailed_keeps {s0 s : State} (h : Keeps s0 s) :
    Keeps s0 (State.canaryFailed s) := by
  unfold State.canaryFailed
  try dsimp only
  repeat' first | (with_reducible first | assumption | exact Keeps.refl _ | apply Keeps.ite | apply State.faultSafe_keeps | apply State.raise_keeps | apply State.pb_keeps) | (intro _ _ _ _; try dsimp only) | (intro _ _ _; try dsimp only) | split | (with_reducible first | apply Keeps.put | refine Keeps.putNv rfl ?_)

theorem State.canaryNext_keeps {s0 s : State} (h : Keeps s0 s) :
    Keeps s0 (State.canaryNext s) := by
  unfold State.canaryNext
  try dsimp only
  repeat' first | (with_reducible first | assumption | exact Keeps.refl _ | apply Keeps.ite | apply State.p_keeps) | (intro _ _ _ _; try dsimp only) | (intro _ _ _; try dsimp only) | split

theorem State.verdict_keeps (e : Nat) (st : Step) (lines : List BufLine) (canaryOk : Bool) {s0 s : State} (h : Keeps s0 s) :
    Keeps s0 (State.verdict e st lines canaryOk s) := by
  unfold State.verdict
  try dsimp only
  repeat' first | (with_reducible first | assumption | exact Keeps.refl _ | apply Keeps.ite | apply State.inc_keeps | apply State.classP_keeps | apply State.classO_keeps | apply State.faultTold_keeps | apply State.canaryNext_keeps | apply State.canaryFailed_keeps | apply State.classPStep_keeps | apply State.charge_keeps | apply State.acceptStep_keeps | apply State.raise_keeps | apply State.lastVerdict_keeps) | (intro _ _ _ _; try dsimp only) | (intro _ _ _; try dsimp only) | split | (with_reducible first | apply Keeps.put | refine Keeps.putNv rfl ?_)

theorem State.pyryaVerdict_keeps (e : Nat) (lines : List BufLine) (canaryOk : Bool) {s0 s : State} (h : Keeps s0 s) :
    Keeps s0 (State.pyryaVerdict e lines canaryOk s) := by
  unfold State.pyryaVerdict
  try dsimp only
  repeat' first | (with_reducible first | assumption | exact Keeps.refl _ | apply Keeps.ite | apply State.verdict_keeps) | (intro _ _ _ _; try dsimp only) | (intro _ _ _; try dsimp only) | split

theorem State.verdictTimeout_keeps (e : Nat) (t : Nat) {s0 s : State} (h : Keeps s0 s) :
    Keeps s0 (State.verdictTimeout e t s) := by
  unfold State.verdictTimeout
  try dsimp only
  repeat' first | (with_reducible first | assumption | exact Keeps.refl _ | apply Keeps.ite | apply State.classO_keeps | apply State.modTask_keeps) | (intro _ _ _ _; try dsimp only) | (intro _ _ _; try dsimp only) | split

theorem State.putChk_keeps (bank : Nat) (v : Nat) {s0 s : State} (h : Keeps s0 s) :
    Keeps s0 (State.putChk bank v s) := by
  unfold State.putChk
  try dsimp only
  repeat' first | (with_reducible first | assumption | exact Keeps.refl _ | apply Keeps.ite | apply State.p_keeps) | (intro _ _ _ _; try dsimp only) | (intro _ _ _; try dsimp only) | split

theorem State.killHeader_keeps (o : LongOp) {s0 s : State} (h : Keeps s0 s) :
    Keeps s0 (State.killHeader o s) := by
  unfold State.killHeader
  try dsimp only
  repeat' first | (with_reducible first | assumption | exact Keeps.refl _ | apply Keeps.ite | apply State.nvPut_keeps | apply State.putChk_keeps | apply State.pbit_keeps) | (intro _ _ _ _; try dsimp only) | (intro _ _ _; try dsimp only) | split

theorem State.writeBody_keeps (o : LongOp) {s0 s : State} (h : Keeps s0 s) :
    Keeps s0 (State.writeBody o s) := by
  unfold State.writeBody
  try dsimp only
  repeat' first | (with_reducible first | assumption | exact Keeps.refl _ | apply Keeps.ite | apply State.nvPut_keeps) | (intro _ _ _ _; try dsimp only) | (intro _ _ _; try dsimp only) | split

theorem State.writeHeader_keeps (o : LongOp) {s0 s : State} (h : Keeps s0 s) :
    Keeps s0 (State.writeHeader o s) := by
  unfold State.writeHeader
  try dsimp only
  repeat' first | (with_reducible first | assumption | exact Keeps.refl _ | apply Keeps.ite | apply State.putChk_keeps | apply State.nvPut_keeps | apply State.setWord_keeps | apply State.p_keeps | apply State.pbit_keeps) | (intro _ _ _ _; try dsimp only) | (intro _ _ _; try dsimp only) | split | (with_reducible first | apply Keeps.put | refine Keeps.putNv rfl ?_)

theorem State.sessDone_keeps (o : LongOp) (tag : Nat) {s0 s : State} (h : Keeps s0 s) :
    Keeps s0 (State.sessDone o tag s) := by
  unfold State.sessDone
  try dsimp only
  repeat' first | (with_reducible first | assumption | exact Keeps.refl _ | apply Keeps.ite | apply State.sessEnd_keeps) | (intro _ _ _ _; try dsimp only) | (intro _ _ _; try dsimp only) | split

theorem State.lockApply_keeps (o : LongOp) {s0 s : State} (h : Keeps s0 s) :
    Keeps s0 (State.lockApply o s) := by
  unfold State.lockApply
  try dsimp only
  repeat' first | (with_reducible first | assumption | exact Keeps.refl _ | apply Keeps.ite | apply State.sessDone_keeps | apply State.guarUpdate_keeps | apply State.pb_keeps) | (intro _ _ _ _; try dsimp only) | (intro _ _ _; try dsimp only) | split

theorem State.calDone_keeps (tg : BitVec 2) (new : List Word) {s0 s : State} (h : Keeps s0 s) :
    Keeps s0 (State.calDone tg new s) := by
  unfold State.calDone
  try dsimp only
  repeat' first | (with_reducible first | assumption | exact Keeps.refl _ | apply Keeps.ite | apply State.pb_keeps) | (intro _ _ _ _; try dsimp only) | (intro _ _ _; try dsimp only) | split | (with_reducible first | apply Keeps.put | refine Keeps.putNv rfl ?_)

theorem State.burnRepairs_keeps (isl : Nat) {s0 s : State} (h : Keeps s0 s) : Keeps s0 (State.burnRepairs isl s) :=
  State.p_keeps _ _ _ (h.trans ⟨fun w => ⟨w.sram, w.nv, w.regs⟩, rfl,
    ⟨Nat.le_refl _, by simp, fun _ x => x, rfl⟩⟩)

theorem State.bistGive_keeps (isl : Nat) {s0 s : State} (h : Keeps s0 s) :
    Keeps s0 (State.bistGive isl s) := by
  unfold State.bistGive
  try dsimp only
  repeat' first | (with_reducible first | assumption | exact Keeps.refl _ | apply Keeps.ite | apply State.plc_keeps | apply State.setEst_keeps) | (intro _ _ _ _; try dsimp only) | (intro _ _ _; try dsimp only) | split

theorem State.opEnd_keeps (o : LongOp) (st : Nat) (c : Code) {s0 s : State} (h : Keeps s0 s) :
    Keeps s0 (State.opEnd o st c s) := by
  unfold State.opEnd
  try dsimp only
  repeat' first | (with_reducible first | assumption | exact Keeps.refl _ | apply Keeps.ite | apply State.raiseFull_keeps | apply State.finish_keeps) | (intro _ _ _ _; try dsimp only) | (intro _ _ _; try dsimp only) | split | (with_reducible first | apply Keeps.put | refine Keeps.putNv rfl ?_)

theorem rising_filter {α : Type} {p : Nat × α → Bool} {l : List (Nat × α)} {b : Option Nat} (w : rising b l = true) :
    rising b (l.filter p) = true := by
  induction l generalizing b with
  | nil => simp [rising]
  | cons c l ih =>
    rw [List.filter_cons]
    split
    · cases b <;> simp_all [rising]
    · cases b with
      | none => exact rising_none (ih (by simpa [rising] using w))
      | some a =>
        have : a < c.1 := by simp [rising] at w; omega
        exact rising_mono (Nat.le_of_lt this) (ih (by simp [rising] at w; exact w.2))

theorem Memory.wf_filter {m : List Host.Cell} (p : Host.Cell → Bool) (h : Memory.wf 0 m = true) : Memory.wf 0 (m.filter p) = true := by
  simp only [Memory.wf, Bool.and_eq_true] at *
  exact ⟨rising_filter h.1, List.all_eq_true.2 fun c hc => List.all_eq_true.1 h.2 c (List.mem_filter.1 hc).1⟩

theorem Memory.wf_putAll (l : List Host.Cell) {m : List Host.Cell} (h : Memory.wf 0 m = true) :
    Memory.wf 0 (l.foldl (fun m c => putByte m c.1 c.2) m) = true := by
  induction l generalizing m with
  | nil => exact h
  | cons c l ih => exact ih (Memory.wf_putByte h _ _)

theorem State.undoBank_keeps (o : LongOp) {s0 s : State} (h : Keeps s0 s) : Keeps s0 (State.undoBank o s) := by
  unfold State.undoBank
  split
  · exact h
  · exact State.p_keeps _ _ _ (h.trans
      ⟨fun w => ⟨w.sram, Memory.wf_putAll _ (Memory.wf_filter _ w.nv), w.regs⟩, rfl, Fuses.Le.refl _⟩)

theorem State.opRelease_keeps (o : LongOp) {s0 s : State} (h : Keeps s0 s) :
    Keeps s0 (State.opRelease o s) := by
  unfold State.opRelease
  try dsimp only
  repeat' first | (with_reducible first | assumption | exact Keeps.refl _ | apply Keeps.ite | apply State.bistGive_keeps) | (intro _ _ _ _; try dsimp only) | (intro _ _ _; try dsimp only) | split

theorem State.failRecord_keeps (addr : Word) (kind : Nat) (st : Nat) (isl : Nat) (bit : Nat) {s0 s : State} (h : Keeps s0 s) :
    Keeps s0 (State.failRecord addr kind st isl bit s) := by
  unfold State.failRecord
  try dsimp only
  repeat' first | (with_reducible first | assumption | exact Keeps.refl _ | apply Keeps.ite | apply State.inc_keeps | apply State.setWord_keeps | apply State.logEntry_keeps) | (intro _ _ _ _; try dsimp only) | (intro _ _ _; try dsimp only) | split

theorem State.mapSpare_keeps (m : SpareMem) {s0 s : State} (h : Keeps s0 s) :
    Keeps s0 (State.mapSpare m s) := by
  unfold State.mapSpare
  try dsimp only
  repeat' first | (with_reducible first | assumption | exact Keeps.refl _ | apply Keeps.ite | apply State.raise_keeps) | (intro _ _ _ _; try dsimp only) | (intro _ _ _; try dsimp only) | split | (with_reducible first | apply Keeps.put | refine Keeps.putNv rfl ?_)

theorem State.repairCell_keeps (isl : Nat) (addr : Word) (kind : Nat) (bit : Nat) {s0 s : State} (h : Keeps s0 s) :
    Keeps s0 (State.repairCell isl addr kind bit s) := by
  unfold State.repairCell
  try dsimp only
  repeat' first | (with_reducible first | assumption | exact Keeps.refl _ | apply Keeps.ite | apply State.failRecord_keeps | apply State.mapSpare_keeps) | (intro _ _ _ _; try dsimp only) | (intro _ _ _; try dsimp only) | split

theorem State.sliceFailed_keeps (b : SliceBlock) (r : SliceResult) {s0 s : State} (h : Keeps s0 s) :
    Keeps s0 (State.sliceFailed b r s) := by
  unfold State.sliceFailed
  try dsimp only
  repeat' first | (with_reducible first | assumption | exact Keeps.refl _ | apply Keeps.ite | apply State.raise_keeps | apply State.repairCell_keeps | apply State.retireEngine_keeps | apply State.failRecord_keeps | apply State.islandFails_keeps) | (intro _ _ _ _; try dsimp only) | (intro _ _ _; try dsimp only) | split

theorem State.bankStep_keeps (o : LongOp) {s0 s : State} (h : Keeps s0 s) : Keeps s0 (State.bankStep o s).2 := by
  unfold State.bankStep
  repeat' first
    | (with_reducible first | assumption | apply State.killHeader_keeps | apply State.writeBody_keeps | apply State.lockApply_keeps | apply State.writeHeader_keeps)
    | split

theorem State.kindStep_keeps (o : LongOp) (r : OpStepResult) {s0 s : State} (h : Keeps s0 s) :
    Keeps s0 (State.kindStep o r s).2 := by
  unfold State.kindStep
  dsimp only
  repeat' first
    | (with_reducible first | assumption | apply Keeps.ite | apply State.sliceFailed_keeps | apply State.burnRepairs_keeps | apply State.calDone_keeps | apply State.lockApply_keeps | apply State.bankStep_keeps)
    | split

theorem State.readAhead_keeps (o : LongOp) {s0 s : State} (h : Keeps s0 s) : Keeps s0 (State.readAhead o s).2 := by
  unfold State.readAhead
  dsimp only
  repeat' first | (with_reducible assumption) | split | apply Keeps.put

theorem State.opStep_keeps (o : LongOp) (r : OpStepResult) {s0 s : State} (h : Keeps s0 s) :
    Keeps s0 (State.opStep o r s) := by
  have k := State.kindStep_keeps o r h
  unfold State.opStep
  generalize State.kindStep o r s = x at k
  extract_lets waits x' src o1 s1
  split
  · exact h
  have k1 : Keeps s0 s1 := k
  clear_value s1 o1
  repeat' first
    | (with_reducible first | assumption | apply State.opEnd_keeps | apply State.opRelease_keeps | apply State.undoBank_keeps)
    | split
    | exact Keeps.put (State.readAhead_keeps _ k1)

theorem State.porKeep_keeps {s0 s : State} (h : Keeps s0 s) : Keeps s0 s.porKeep :=
  h.trans ⟨fun w => ⟨(rfl : Memory.wf 0 [] = true), w.nv, (rfl : rising (α := Word) none [] = true)⟩, rfl, Fuses.Le.refl _⟩

theorem State.keyKeep_keeps (was : Machine.State) {s0 s : State} (h : Keeps s0 s) :
    Keeps s0 (State.keyKeep was s) := by
  unfold State.keyKeep
  try dsimp only
  repeat' first | (with_reducible first | assumption | exact Keeps.refl _ | apply Keeps.ite | apply State.pb_keeps) | (intro _ _ _ _; try dsimp only) | (intro _ _ _; try dsimp only) | split

theorem State.dipKeep_keeps (was : Machine.State) {s0 s : State} (h : Keeps s0 s) :
    Keeps s0 (State.dipKeep was s) := by
  unfold State.dipKeep
  try dsimp only
  repeat' first | (with_reducible first | assumption | exact Keeps.refl _ | apply Keeps.ite) | (intro _ _ _ _; try dsimp only) | (intro _ _ _; try dsimp only) | split | (with_reducible first | apply Keeps.put | refine Keeps.putNv rfl ?_)

theorem State.canopyKeep_keeps {s0 s : State} (h : Keeps s0 s) : Keeps s0 s.canopyKeep := by
  unfold State.canopyKeep
  apply State.dipKeep_keeps
  exact State.keyKeep_keeps _ (h.trans
    ⟨fun w => ⟨(rfl : Memory.wf 0 [] = true), w.nv, rising_filter w.regs⟩, rfl, Fuses.Le.refl _⟩)

theorem State.vddcReset_keeps {s0 s : State} (h : Keeps s0 s) : Keeps s0 s.vddcReset := by
  unfold State.vddcReset
  dsimp only
  repeat' first
    | with_reducible first | apply State.guarUpdate_keeps | apply State.p_keeps | apply State.pb_keeps | apply State.setWord_keeps | apply State.dipKeep_keeps | apply State.keyKeep_keeps
  exact h.trans ⟨fun w => ⟨(rfl : Memory.wf 0 [] = true), w.nv, rising_filter w.regs⟩, rfl, Fuses.Le.refl _⟩

theorem State.wakeRecord_keeps {s0 s : State} (h : Keeps s0 s) :
    Keeps s0 (State.wakeRecord s) := by
  unfold State.wakeRecord
  try dsimp only
  repeat' first | (with_reducible first | assumption | exact Keeps.refl _ | apply Keeps.ite) | (intro _ _ _ _; try dsimp only) | (intro _ _ _; try dsimp only) | split | (with_reducible first | apply Keeps.put | refine Keeps.putNv rfl ?_)

theorem State.bootBegin_keeps {s0 s : State} (h : Keeps s0 s) :
    Keeps s0 (State.bootBegin s) := by
  unfold State.bootBegin
  try dsimp only
  repeat' first | (with_reducible first | assumption | exact Keeps.refl _ | apply Keeps.ite | apply overL_keeps | apply State.raise_keeps | apply State.wakeRecord_keeps | apply State.setWord_keeps | apply State.pb_keeps) | (intro _ _ _ _; try dsimp only) | (intro _ _ _; try dsimp only) | split | (with_reducible first | apply Keeps.put | refine Keeps.putNv rfl ?_)

theorem State.releaseSeq_keeps {s0 s : State} (h : Keeps s0 s) :
    Keeps s0 (State.releaseSeq s) := by
  unfold State.releaseSeq
  try dsimp only
  repeat' first | (with_reducible first | assumption | exact Keeps.refl _ | apply Keeps.ite | apply State.bootBegin_keeps) | (intro _ _ _ _; try dsimp only) | (intro _ _ _; try dsimp only) | split | (with_reducible first | apply Keeps.put | refine Keeps.putNv rfl ?_)

theorem State.suppliesGood_keeps (refinOk : Bool) (xtal : Bool) {s0 s : State} (h : Keeps s0 s) :
    Keeps s0 (State.suppliesGood refinOk xtal s) := by
  unfold State.suppliesGood
  try dsimp only
  repeat' first | (with_reducible first | assumption | exact Keeps.refl _ | apply Keeps.ite | apply State.releaseSeq_keeps | apply State.pb_keeps | apply State.vddcReset_keeps) | (intro _ _ _ _; try dsimp only) | (intro _ _ _; try dsimp only) | split | (with_reducible first | apply Keeps.put | refine Keeps.putNv rfl ?_)

theorem State.refinRetry_keeps (ok : Bool) {s0 s : State} (h : Keeps s0 s) :
    Keeps s0 (State.refinRetry ok s) := by
  unfold State.refinRetry
  try dsimp only
  repeat' first | (with_reducible first | assumption | exact Keeps.refl _ | apply Keeps.ite | apply State.bootBegin_keeps) | (intro _ _ _ _; try dsimp only) | (intro _ _ _; try dsimp only) | split | (with_reducible first | apply Keeps.put | refine Keeps.putNv rfl ?_)

theorem State.stoAll_keeps {s0 s : State} (h : Keeps s0 s) :
    Keeps s0 (State.stoAll s) := by
  unfold State.stoAll
  try dsimp only
  repeat' first | (with_reducible first | assumption | exact Keeps.refl _ | apply Keeps.ite | apply overL_keeps | apply State.demand_keeps | apply State.takePattern_keeps) | (intro _ _ _ _; try dsimp only) | (intro _ _ _; try dsimp only) | split

theorem State.vddfReset_keeps (k : Nat) {s0 s : State} (h : Keeps s0 s) :
    Keeps s0 (State.vddfReset k s) := by
  unfold State.vddfReset
  try dsimp only
  repeat' first | (with_reducible first | assumption | exact Keeps.refl _ | apply Keeps.ite | apply State.canopyKeep_keeps) | (intro _ _ _ _; try dsimp only) | (intro _ _ _; try dsimp only) | split | (with_reducible first | apply Keeps.put | refine Keeps.putNv rfl ?_)

theorem State.supplyLost_keeps (k : Nat) {s0 s0' : State} (h : Keeps s0 s0') :
    Keeps s0 (State.supplyLost k s0') := by
  unfold State.supplyLost
  try dsimp only
  repeat' first | (with_reducible first | assumption | exact Keeps.refl _ | apply Keeps.ite | apply State.pbit_keeps | apply State.vddfReset_keeps | apply State.raise_keeps | apply State.afterCause_keeps | apply State.enterSafe_keeps | apply State.stoAll_keeps | apply State.demandAll_keeps) | (intro _ _ _ _; try dsimp only) | (intro _ _ _; try dsimp only) | split | (with_reducible first | apply Keeps.put | refine Keeps.putNv rfl ?_)

theorem State.supplyFail_keeps (k : Nat) {s0 s : State} (h : Keeps s0 s) :
    Keeps s0 (State.supplyFail k s) := by
  unfold State.supplyFail
  try dsimp only
  repeat' first | (with_reducible first | assumption | exact Keeps.refl _ | apply Keeps.ite | apply State.porKeep_keeps | apply State.supplyLost_keeps) | (intro _ _ _ _; try dsimp only) | (intro _ _ _; try dsimp only) | split

theorem State.wakeUp_keeps (i : Fin 23) {s0 s : State} (h : Keeps s0 s) :
    Keeps s0 (State.wakeUp i s) := by
  unfold State.wakeUp
  try dsimp only
  repeat' first | (with_reducible first | assumption | exact Keeps.refl _ | apply Keeps.ite | apply State.used_keeps | apply State.canopyKeep_keeps | apply State.pb_keeps | apply State.p_keeps | apply State.setWord_keeps) | (intro _ _ _ _; try dsimp only) | (intro _ _ _; try dsimp only) | split | (with_reducible first | apply Keeps.put | refine Keeps.putNv rfl ?_)

theorem State.logPage_keeps {s0 s : State} (h : Keeps s0 s) :
    Keeps s0 (State.logPage s) := by
  unfold State.logPage
  try dsimp only
  repeat' first | (with_reducible first | assumption | exact Keeps.refl _ | apply Keeps.ite | apply State.nvPut_keeps) | (intro _ _ _ _; try dsimp only) | (intro _ _ _; try dsimp only) | split | (with_reducible first | apply Keeps.put | refine Keeps.putNv rfl ?_)

theorem State.logFlush_keeps (n : Nat) {s0 s : State} (h : Keeps s0 s) : Keeps s0 (State.logFlush n s) := by
  induction n generalizing s with
  | zero => exact h
  | succ n ih => exact ih (State.logPage_keeps h)

theorem State.wearSave_keeps {s0 s : State} (h : Keeps s0 s) :
    Keeps s0 (State.wearSave s) := by
  unfold State.wearSave
  try dsimp only
  repeat' first | (with_reducible first | assumption | exact Keeps.refl _ | apply Keeps.ite | apply State.nvPut_keeps) | (intro _ _ _ _; try dsimp only) | (intro _ _ _; try dsimp only) | split | (with_reducible first | apply Keeps.put | refine Keeps.putNv rfl ?_)

theorem State.sleepAnswer_keeps {s0 s : State} (h : Keeps s0 s) :
    Keeps s0 (State.sleepAnswer s) := by
  unfold State.sleepAnswer
  try dsimp only
  repeat' first | (with_reducible first | assumption | exact Keeps.refl _ | apply Keeps.ite | apply State.logFlush_keeps | apply State.wearSave_keeps | apply overL_keeps | apply State.finish_keeps) | (intro _ _ _ _; try dsimp only) | (intro _ _ _; try dsimp only) | split | (with_reducible first | apply Keeps.put | refine Keeps.putNv rfl ?_)

theorem State.sleepNow_keeps {s0 s : State} (h : Keeps s0 s) :
    Keeps s0 (State.sleepNow s) := by
  unfold State.sleepNow
  try dsimp only
  repeat' first | (with_reducible first | assumption | exact Keeps.refl _ | apply Keeps.ite | apply State.canopyKeep_keeps | apply State.p_keeps | apply State.wakeUp_keeps) | (intro _ _ _ _; try dsimp only) | (intro _ _ _; try dsimp only) | split | (with_reducible first | apply Keeps.put | refine Keeps.putNv rfl ?_)

theorem State.wakeSource_keeps (i : Fin 23) (input : WakeInput) {s0 s0' : State} (h : Keeps s0 s0') :
    Keeps s0 (State.wakeSource i input s0') := by
  unfold State.wakeSource
  try dsimp only
  repeat' first | (with_reducible first | assumption | exact Keeps.refl _ | apply Keeps.ite | apply State.wakeUp_keeps) | (intro _ _ _ _; try dsimp only) | (intro _ _ _; try dsimp only) | split | (with_reducible first | apply Keeps.put | refine Keeps.putNv rfl ?_)

theorem State.monSpeed_keeps (a : Nat) {s0 s : State} (h : Keeps s0 s) :
    Keeps s0 (State.monSpeed a s) := by
  unfold State.monSpeed
  try dsimp only
  repeat' first | (with_reducible first | assumption | exact Keeps.refl _ | apply Keeps.ite | apply State.modSafe_keeps | apply State.p_keeps | apply State.pb_keeps) | (intro _ _ _ _; try dsimp only) | (intro _ _ _; try dsimp only) | split

theorem State.monWatch_keeps (a : Nat) (d : SafeDem) {s0 s : State} (h : Keeps s0 s) :
    Keeps s0 (State.monWatch a d s) := by
  unfold State.monWatch
  try dsimp only
  repeat' first | (with_reducible first | assumption | exact Keeps.refl _ | apply Keeps.ite | apply State.modSafe_keeps | apply State.pb_keeps) | (intro _ _ _ _; try dsimp only) | (intro _ _ _; try dsimp only) | split

theorem State.ss1Begin_keeps (a : Nat) (ramp : Bool) {s0 s : State} (h : Keeps s0 s) :
    Keeps s0 (State.ss1Begin a ramp s) := by
  unfold State.ss1Begin
  try dsimp only
  repeat' first | (with_reducible first | assumption | exact Keeps.refl _ | apply Keeps.ite | apply State.modSafe_keeps | apply State.pb_keeps | apply State.axStop_keeps) | (intro _ _ _ _; try dsimp only) | (intro _ _ _; try dsimp only) | split

theorem State.monRamp_keeps (a : Nat) {s0 s : State} (h : Keeps s0 s) :
    Keeps s0 (State.monRamp a s) := by
  unfold State.monRamp
  try dsimp only
  repeat' first | (with_reducible first | assumption | exact Keeps.refl _ | apply Keeps.ite | apply State.modSafe_keeps) | (intro _ _ _ _; try dsimp only) | (intro _ _ _; try dsimp only) | split

theorem State.violate_keeps (a : Nat) {s0 s : State} (h : Keeps s0 s) :
    Keeps s0 (State.violate a s) := by
  unfold State.violate
  try dsimp only
  repeat' first | (with_reducible first | assumption | exact Keeps.refl _ | apply Keeps.ite | apply State.raise_keeps | apply State.p_keeps | apply State.pb_keeps | apply State.stoAxis_keeps | apply State.ss1Begin_keeps) | (intro _ _ _ _; try dsimp only) | (intro _ _ _; try dsimp only) | split

theorem State.noteChange_keeps (a : Nat) (was : Bool) (f : FRef) {s0 s : State} (h : Keeps s0 s) :
    Keeps s0 (State.noteChange a was f s) := by
  unfold State.noteChange
  try dsimp only
  repeat' first | (with_reducible first | assumption | exact Keeps.refl _ | apply Keeps.ite | apply State.raise_keeps) | (intro _ _ _ _; try dsimp only) | (intro _ _ _; try dsimp only) | split

theorem State.monAxis_keeps (a : Nat) {s0 s : State} (h : Keeps s0 s) :
    Keeps s0 (State.monAxis a s) := by
  unfold State.monAxis
  try dsimp only
  repeat' first | (with_reducible first | assumption | exact Keeps.refl _ | apply Keeps.ite | apply State.monWatch_keeps | apply State.monSpeed_keeps | apply State.ss1Begin_keeps | apply State.violate_keeps | apply State.monRamp_keeps | apply State.stoAxis_keeps | apply State.noteChange_keeps | apply State.pbit_keeps) | (intro _ _ _ _; try dsimp only) | (intro _ _ _; try dsimp only) | split

theorem State.devSafe_keeps {s0 s : State} (h : Keeps s0 s) :
    Keeps s0 (State.devSafe s) := by
  unfold State.devSafe
  try dsimp only
  repeat' first | (with_reducible first | assumption | exact Keeps.refl _ | apply Keeps.ite | apply State.enterSafe_keeps) | (intro _ _ _ _; try dsimp only) | (intro _ _ _; try dsimp only) | split

theorem State.monitor_keeps {s0 s : State} (h : Keeps s0 s) :
    Keeps s0 (State.monitor s) := by
  unfold State.monitor
  try dsimp only
  repeat' first | (with_reducible first | assumption | exact Keeps.refl _ | apply Keeps.ite | apply State.devSafe_keeps | apply overL_keeps | apply State.monAxis_keeps | apply State.guarUpdate_keeps) | (intro _ _ _ _; try dsimp only) | (intro _ _ _; try dsimp only) | split

theorem State.resetAxis_keeps (a : Nat) {s0 s : State} (h : Keeps s0 s) :
    Keeps s0 (State.resetAxis a s) := by
  unfold State.resetAxis
  try dsimp only
  repeat' first | (with_reducible first | assumption | exact Keeps.refl _ | apply Keeps.ite | apply State.pb_keeps | apply State.p_keeps | apply State.pbit_keeps | apply State.modSafe_keeps | apply State.noteChange_keeps) | (intro _ _ _ _; try dsimp only) | (intro _ _ _; try dsimp only) | split

theorem State.stoFree_keeps {s0 s : State} (h : Keeps s0 s) :
    Keeps s0 (State.stoFree s) := by
  unfold State.stoFree
  try dsimp only
  repeat' first | (with_reducible first | assumption | exact Keeps.refl _ | apply Keeps.ite | apply overL_keeps | apply State.unitFree_keeps) | (intro _ _ _ _; try dsimp only) | (intro _ _ _; try dsimp only) | split | (with_reducible first | apply Keeps.put | refine Keeps.putNv rfl ?_)

theorem State.safetyReset_keeps {s0 s : State} (h : Keeps s0 s) :
    Keeps s0 (State.safetyReset s) := by
  unfold State.safetyReset
  try dsimp only
  repeat' first | (with_reducible first | assumption | exact Keeps.refl _ | apply Keeps.ite | apply overL_keeps | apply State.modSout_keeps | apply State.p_keeps | apply State.pb_keeps | apply State.pairUpdate_keeps | apply State.relink_keeps | apply State.stoFree_keeps | apply State.resetAxis_keeps | apply State.raise_keeps) | (intro _ _ _ _; try dsimp only) | (intro _ _ _; try dsimp only) | split | (with_reducible first | apply Keeps.put | refine Keeps.putNv rfl ?_)

theorem State.srst_keeps (held : Nat) {s0 s : State} (h : Keeps s0 s) :
    Keeps s0 (State.srst held s) := by
  unfold State.srst
  try dsimp only
  repeat' first | (with_reducible first | assumption | exact Keeps.refl _ | apply Keeps.ite | apply State.safetyReset_keeps | apply State.raise_keeps | apply State.pb_keeps) | (intro _ _ _ _; try dsimp only) | (intro _ _ _; try dsimp only) | split

theorem State.srstStick_keeps {s0 s : State} (h : Keeps s0 s) :
    Keeps s0 (State.srstStick s) := by
  unfold State.srstStick
  try dsimp only
  repeat' first | (with_reducible first | assumption | exact Keeps.refl _ | apply Keeps.ite | apply State.raise_keeps | apply State.pb_keeps) | (intro _ _ _ _; try dsimp only) | (intro _ _ _; try dsimp only) | split

theorem State.modCan_keeps (c : Nat) (f : Can → Can) {s0 s : State} (h : Keeps s0 s) :
    Keeps s0 (State.modCan c f s) := by
  unfold State.modCan
  try dsimp only
  repeat' first | (with_reducible first | assumption | exact Keeps.refl _ | apply Keeps.ite) | (intro _ _ _ _; try dsimp only) | (intro _ _ _; try dsimp only) | split | (with_reducible first | apply Keeps.put | refine Keeps.putNv rfl ?_)

theorem State.canErr_keeps (c : Nat) (kind : Nat) {s0 s : State} (h : Keeps s0 s) :
    Keeps s0 (State.canErr c kind s) := by
  unfold State.canErr
  try dsimp only
  repeat' first | (with_reducible first | assumption | exact Keeps.refl _ | apply Keeps.ite | apply State.raise_keeps) | (intro _ _ _ _; try dsimp only) | (intro _ _ _; try dsimp only) | split

theorem State.netDone_keeps (q : Nat) (i : Nat) (w : Nat) (lo : Nat) (txst : Nat) (stamp : Option Nat) {s0 s : State} (h : Keeps s0 s) :
    Keeps s0 (State.netDone q i w lo txst stamp s) := by
  unfold State.netDone
  try dsimp only
  repeat' first | (with_reducible first | assumption | exact Keeps.refl _ | apply Keeps.ite | apply State.sramPut_keeps | apply State.qDrop_keeps) | (intro _ _ _ _; try dsimp only) | (intro _ _ _; try dsimp only) | split

theorem State.canHp_keeps (c : Nat) (k : Nat) (f : CanFrame) {s0 s : State} (h : Keeps s0 s) :
    Keeps s0 (State.canHp c k f s) := by
  unfold State.canHp
  try dsimp only
  repeat' first | (with_reducible first | assumption | exact Keeps.refl _ | apply Keeps.ite | apply overL_keeps | apply State.setWord_keeps | apply State.pb_keeps | apply State.raise_keeps | apply State.p_keeps) | (intro _ _ _ _; try dsimp only) | (intro _ _ _; try dsimp only) | split

theorem State.netBell_keeps (net : Nat) (off : Nat) (tag : Nat) (data : Word) {s0 s : State} (h : Keeps s0 s) :
    Keeps s0 (State.netBell net off tag data s) := by
  unfold State.netBell
  try dsimp only
  repeat' first | (with_reducible first | assumption | exact Keeps.refl _ | apply Keeps.ite | apply State.raiseFull_keeps) | (intro _ _ _ _; try dsimp only) | (intro _ _ _; try dsimp only) | split

theorem State.canPdu_keeps (k : Nat) (f : CanFrame) {s0 s : State} (h : Keeps s0 s) :
    Keeps s0 (State.canPdu k f s) := by
  unfold State.canPdu
  try dsimp only
  repeat' first | (with_reducible first | assumption | exact Keeps.refl _ | apply Keeps.ite | apply State.pduIn_keeps | apply State.connBad_keeps) | (intro _ _ _ _; try dsimp only) | (intro _ _ _; try dsimp only) | split

theorem State.refReceived_keeps (c : Nat) (f : CanFrame) {s0 s : State} (h : Keeps s0 s) :
    Keeps s0 (State.refReceived c f s) := by
  unfold State.refReceived
  try dsimp only
  repeat' first | (with_reducible first | assumption | exact Keeps.refl _ | apply Keeps.ite | apply State.modCan_keeps | apply State.raise_keeps | apply State.pb_keeps | apply State.setWord_keeps) | (intro _ _ _ _; try dsimp only) | (intro _ _ _; try dsimp only) | split

theorem State.canFilter_keeps (c : Nat) (f : CanFrame) {s0 s : State} (h : Keeps s0 s) :
    Keeps s0 (State.canFilter c f s) := by
  unfold State.canFilter
  try dsimp only
  repeat' first | (with_reducible first | assumption | exact Keeps.refl _ | apply Keeps.ite | apply State.netPush_keeps | apply State.netBell_keeps | apply State.canHp_keeps) | (intro _ _ _ _; try dsimp only) | (intro _ _ _; try dsimp only) | split

theorem State.canIn_keeps (c : Nat) (f : CanFrame) {s0 s : State} (h : Keeps s0 s) :
    Keeps s0 (State.canIn c f s) := by
  unfold State.canIn
  try dsimp only
  repeat' first | (with_reducible first | assumption | exact Keeps.refl _ | apply Keeps.ite | apply State.pb_keeps | apply State.canPdu_keeps | apply State.refReceived_keeps | apply State.canFilter_keeps) | (intro _ _ _ _; try dsimp only) | (intro _ _ _; try dsimp only) | split

theorem State.canRetry_keeps (c : Nat) (i : Nat) {s0 s : State} (h : Keeps s0 s) :
    Keeps s0 (State.canRetry c i s) := by
  unfold State.canRetry
  try dsimp only
  repeat' first | (with_reducible first | assumption | exact Keeps.refl _ | apply Keeps.ite | apply State.netDone_keeps) | (intro _ _ _ _; try dsimp only) | (intro _ _ _; try dsimp only) | split

theorem State.canTx_keeps (c : Nat) (r : CanTxResult) {s0 s : State} (h : Keeps s0 s) :
    Keeps s0 (State.canTx c r s) := by
  unfold State.canTx
  try dsimp only
  repeat' first | (with_reducible first | assumption | exact Keeps.refl _ | apply Keeps.ite | apply State.canErr_keeps | apply State.netDone_keeps | apply State.modCan_keeps | apply State.canFilter_keeps | apply State.canRetry_keeps | apply State.pb_keeps) | (intro _ _ _ _; try dsimp only) | (intro _ _ _; try dsimp only) | split

theorem State.canBusError_keeps (c : Nat) (k : CanError) {s0 s : State} (h : Keeps s0 s) :
    Keeps s0 (State.canBusError c k s) := by
  unfold State.canBusError
  try dsimp only
  repeat' first | (with_reducible first | assumption | exact Keeps.refl _ | apply Keeps.ite | apply State.p_keeps | apply State.pb_keeps | apply State.canErr_keeps) | (intro _ _ _ _; try dsimp only) | (intro _ _ _; try dsimp only) | split

theorem State.refSend_keeps (c : Nat) (sent : Option Nat) {s0 s : State} (h : Keeps s0 s) :
    Keeps s0 (State.refSend c sent s) := by
  unfold State.refSend
  try dsimp only
  repeat' first | (with_reducible first | assumption | exact Keeps.refl _ | apply Keeps.ite | apply State.modCan_keeps) | (intro _ _ _ _; try dsimp only) | (intro _ _ _; try dsimp only) | split

theorem State.ethLink_keeps (m : Nat) (upNow : Bool) (spd : Nat) {s0 s : State} (h : Keeps s0 s) :
    Keeps s0 (State.ethLink m upNow spd s) := by
  unfold State.ethLink
  try dsimp only
  repeat' first | (with_reducible first | assumption | exact Keeps.refl _ | apply Keeps.ite | apply State.p_keeps | apply State.pb_keeps | apply State.raise_keeps) | (intro _ _ _ _; try dsimp only) | (intro _ _ _; try dsimp only) | split

theorem State.ethTx_keeps (m : Nat) (r : EthTxResult) {s0 s : State} (h : Keeps s0 s) :
    Keeps s0 (State.ethTx m r s) := by
  unfold State.ethTx
  try dsimp only
  repeat' first | (with_reducible first | assumption | exact Keeps.refl _ | apply Keeps.ite | apply State.netDone_keeps | apply State.pb_keeps) | (intro _ _ _ _; try dsimp only) | (intro _ _ _; try dsimp only) | split | (with_reducible first | apply Keeps.put | refine Keeps.putNv rfl ?_)

theorem State.pduSend_keeps (c : Nat) {s0 s : State} (h : Keeps s0 s) :
    Keeps s0 (State.pduSend c s) := by
  unfold State.pduSend
  try dsimp only
  repeat' first | (with_reducible first | assumption | exact Keeps.refl _ | apply Keeps.ite | apply State.modConn_keeps) | (intro _ _ _ _; try dsimp only) | (intro _ _ _; try dsimp only) | split

theorem State.rowWrite_keeps (w : Who) (a : Nat) (v : Word) {s0 s : State} (h : Keeps s0 s) :
    Keeps s0 (State.rowWrite w a v s) := by
  unfold State.rowWrite
  split
  · exact h
  · split
    · exact Keeps.put (State.writeWords_keeps _ _ _ h (by assumption))
    · exact Keeps.put h

theorem State.sliceHad_keeps (b : SliceBlock) (targeted : Bool) {s0 s : State} (h : Keeps s0 s) :
    Keeps s0 (State.sliceHad b targeted s) := by
  unfold State.sliceHad
  try dsimp only
  repeat' first | (with_reducible first | assumption | exact Keeps.refl _ | apply Keeps.ite) | (intro _ _ _ _; try dsimp only) | (intro _ _ _; try dsimp only) | split | (with_reducible first | apply Keeps.put | refine Keeps.putNv rfl ?_)

theorem State.cycleCheck_keeps {s0 s : State} (h : Keeps s0 s) :
    Keeps s0 (State.cycleCheck s) := by
  unfold State.cycleCheck
  try dsimp only
  repeat' first | (with_reducible first | assumption | exact Keeps.refl _ | apply Keeps.ite | apply State.p_keeps) | (intro _ _ _ _; try dsimp only) | (intro _ _ _; try dsimp only) | split | (with_reducible first | apply Keeps.put | refine Keeps.putNv rfl ?_)

theorem State.sliceRegs_keeps {s0 s : State} (h : Keeps s0 s) :
    Keeps s0 (State.sliceRegs s) := by
  unfold State.sliceRegs
  try dsimp only
  repeat' first | (with_reducible first | assumption | exact Keeps.refl _ | apply Keeps.ite | apply State.p_keeps) | (intro _ _ _ _; try dsimp only) | (intro _ _ _; try dsimp only) | split

theorem State.sliceRun_keeps (b : SliceBlock) {s0 s : State} (h : Keeps s0 s) :
    Keeps s0 (State.sliceRun b s) := by
  unfold State.sliceRun
  try dsimp only
  repeat' first | (with_reducible first | assumption | exact Keeps.refl _ | apply Keeps.ite | apply State.pb_keeps | apply State.sliceRegs_keeps) | (intro _ _ _ _; try dsimp only) | (intro _ _ _; try dsimp only) | split | (with_reducible first | apply Keeps.put | refine Keeps.putNv rfl ?_)

theorem State.sliceEngine_keeps (e : Nat) {s0 s : State} (h : Keeps s0 s) :
    Keeps s0 (State.sliceEngine e s) := by
  unfold State.sliceEngine
  try dsimp only
  repeat' first | (with_reducible first | assumption | exact Keeps.refl _ | apply Keeps.ite | apply State.sliceRun_keeps | apply State.plc_keeps | apply State.setEst_keeps | refine (State.drainTo_keeps _ _ ?_ (ht := by assumption))) | (intro _ _ _ _; try dsimp only) | (intro _ _ _; try dsimp only) | split

theorem State.sliceStart_keeps (b : SliceBlock) {s0 s : State} (h : Keeps s0 s) :
    Keeps s0 (State.sliceStart b s) := by
  unfold State.sliceStart
  try dsimp only
  repeat' first | (with_reducible first | assumption | exact Keeps.refl _ | apply Keeps.ite | apply State.sliceEngine_keeps | apply State.sliceRun_keeps) | (intro _ _ _ _; try dsimp only) | (intro _ _ _; try dsimp only) | split

theorem State.offsetDrift_keeps (c : Nat) (r : SliceResult) {s0 s : State} (h : Keeps s0 s) :
    Keeps s0 (State.offsetDrift c r s) := by
  unfold State.offsetDrift
  try dsimp only
  repeat' first | (with_reducible first | assumption | exact Keeps.refl _ | apply Keeps.ite | apply State.raise_keeps | apply State.pb_keeps) | (intro _ _ _ _; try dsimp only) | (intro _ _ _; try dsimp only) | split | (with_reducible first | apply Keeps.put | refine Keeps.putNv rfl ?_)

theorem State.sliceEnd_keeps (b : SliceBlock) (r : SliceResult) {s0 s : State} (h : Keeps s0 s) :
    Keeps s0 (State.sliceEnd b r s) := by
  unfold State.sliceEnd
  try dsimp only
  repeat' first | (with_reducible first | assumption | exact Keeps.refl _ | apply Keeps.ite | apply State.sliceHad_keeps | apply State.sliceRegs_keeps | apply State.pb_keeps | apply State.offsetDrift_keeps | apply State.sliceFailed_keeps | apply State.plc_keeps | apply State.setEst_keeps | apply State.modEng_keeps | apply State.cycleCheck_keeps) | (intro _ _ _ _; try dsimp only) | (intro _ _ _; try dsimp only) | split | (with_reducible first | apply Keeps.put | refine Keeps.putNv rfl ?_)

theorem State.strike_keeps (struck : List (MemLoc × Nat)) {s0 s : State} (h : Keeps s0 s) :
    Keeps s0 (State.strike struck s) := by
  unfold State.strike
  try dsimp only
  repeat' first | (with_reducible first | assumption | exact Keeps.refl _ | apply Keeps.ite) | (intro _ _ _ _; try dsimp only) | (intro _ _ _; try dsimp only) | split | (with_reducible first | apply Keeps.put | refine Keeps.putNv rfl ?_)

theorem State.scrub_keeps (loc : MemLoc) (r : ScrubResult) {s0 s0' : State} (h : Keeps s0 s0') :
    Keeps s0 (State.scrub loc r s0') := by
  unfold State.scrub
  try dsimp only
  repeat' first | (with_reducible first | assumption | exact Keeps.refl _ | apply Keeps.ite | apply State.inc_keeps | apply State.repairCell_keeps | apply State.memUnc_keeps | apply State.afterCause_keeps | apply State.engineFailed_keeps) | (intro _ _ _ _; try dsimp only) | (intro _ _ _; try dsimp only) | split | (with_reducible first | apply Keeps.put | refine Keeps.putNv rfl ?_)

theorem State.scanRequest_keeps {s0 s : State} (h : Keeps s0 s) :
    Keeps s0 (State.scanRequest s) := by
  unfold State.scanRequest
  try dsimp only
  repeat' first | (with_reducible first | assumption | exact Keeps.refl _ | apply Keeps.ite | apply State.pb_keeps | apply State.enterSafe_keeps | apply overL_keeps | apply State.forceSto_keeps) | (intro _ _ _ _; try dsimp only) | (intro _ _ _; try dsimp only) | split

theorem State.wearEstimate_keeps (k : Nat) (iBar : Word) (iRms : Word) {s0 s : State} (h : Keeps s0 s) :
    Keeps s0 (State.wearEstimate k iBar iRms s) := by
  unfold State.wearEstimate
  try dsimp only
  repeat' first | (with_reducible first | assumption | exact Keeps.refl _ | apply Keeps.ite | apply State.used_keeps | apply State.setWord_keeps | apply State.raise_keeps) | (intro _ _ _ _; try dsimp only) | (intro _ _ _; try dsimp only) | split | (with_reducible first | apply Keeps.put | refine Keeps.putNv rfl ?_)

theorem State.telemetry_keeps (k : Nat) (sig : Nat) (v : Word) {s0 s : State} (h : Keeps s0 s) :
    Keeps s0 (State.telemetry k sig v s) := by
  unfold State.telemetry
  try dsimp only
  repeat' first | (with_reducible first | assumption | exact Keeps.refl _ | apply Keeps.ite | apply State.qPush_keeps) | (intro _ _ _ _; try dsimp only) | (intro _ _ _; try dsimp only) | split | (with_reducible first | apply Keeps.put | refine Keeps.putNv rfl ?_)

theorem State.dsmOutput_keeps (n : Nat) (sum : Nat) {s0 s : State} (h : Keeps s0 s) :
    Keeps s0 (State.dsmOutput n sum s) := by
  unfold State.dsmOutput
  try dsimp only
  repeat' first | (with_reducible first | assumption | exact Keeps.refl _ | apply Keeps.ite | apply State.modDsm_keeps | apply State.setWord_keeps | apply State.pb_keeps) | (intro _ _ _ _; try dsimp only) | (intro _ _ _; try dsimp only) | split

theorem State.escalate_keeps (n : Nat) {s0 s : State} (h : Keeps s0 s) :
    Keeps s0 (State.escalate n s) := by
  unfold State.escalate
  try dsimp only
  repeat' first | (with_reducible first | assumption | exact Keeps.refl _ | apply Keeps.ite | apply State.raise_keeps | apply State.demand_keeps) | (intro _ _ _ _; try dsimp only) | (intro _ _ _; try dsimp only) | split

theorem State.rechooseAt_keeps (n : Nat) {s0 s : State} (h : Keeps s0 s) :
    Keeps s0 (State.rechooseAt n s) := by
  unfold State.rechooseAt
  try dsimp only
  repeat' first | (with_reducible first | assumption | exact Keeps.refl _ | apply Keeps.ite | apply State.takePattern_keeps) | (intro _ _ _ _; try dsimp only) | (intro _ _ _; try dsimp only) | split

theorem State.latchFault_keeps (n : Nat) (cls : Nat) (lag : Nat) {s0 s : State} (h : Keeps s0 s) :
    Keeps s0 (State.latchFault n cls lag s) := by
  unfold State.latchFault
  try dsimp only
  repeat' first | (with_reducible first | assumption | exact Keeps.refl _ | apply Keeps.ite | apply State.raise_keeps | apply State.putClass_keeps | apply State.putLatch_keeps | apply State.windStop_keeps | apply State.escalate_keeps | apply State.rechooseAt_keeps | apply State.padLater_keeps) | (intro _ _ _ _; try dsimp only) | (intro _ _ _; try dsimp only) | split | (with_reducible first | apply Keeps.put | refine Keeps.putNv rfl ?_)

theorem State.sideTrip_keeps (b : Nat) (x : Nat) (high : Bool) (hard : Bool) {s0 s : State} (h : Keeps s0 s) :
    Keeps s0 (State.sideTrip b x high hard s) := by
  unfold State.sideTrip
  try dsimp only
  repeat' first | (with_reducible first | assumption | exact Keeps.refl _ | apply Keeps.ite | apply State.forcePad_keeps | apply State.latchFault_keeps) | (intro _ _ _ _; try dsimp only) | (intro _ _ _; try dsimp only) | split

theorem State.sourceTrip_keeps (src : Nat) (high : Bool) {s0 s : State} (h : Keeps s0 s) :
    Keeps s0 (State.sourceTrip src high s) := by
  unfold State.sourceTrip
  try dsimp only
  repeat' first | (with_reducible first | assumption | exact Keeps.refl _ | apply Keeps.ite | apply State.sideTrip_keeps) | (intro _ _ _ _; try dsimp only) | (intro _ _ _; try dsimp only) | split

theorem State.protPut_keeps (n : Nat) (high : Bool) (out : Bool) {s0 s : State} (h : Keeps s0 s) :
    Keeps s0 (State.protPut n high out s) := by
  unfold State.protPut
  try dsimp only
  repeat' first | (with_reducible first | assumption | exact Keeps.refl _ | apply Keeps.ite | apply State.modDsm_keeps | apply State.pb_keeps) | (intro _ _ _ _; try dsimp only) | (intro _ _ _; try dsimp only) | split

theorem State.protSide_keeps (n : Nat) (high : Bool) (p : Int) {s0 s : State} (h : Keeps s0 s) :
    Keeps s0 (State.protSide n high p s) := by
  unfold State.protSide
  try dsimp only
  repeat' first | (with_reducible first | assumption | exact Keeps.refl _ | apply Keeps.ite | apply State.protPut_keeps | apply State.sourceTrip_keeps) | (intro _ _ _ _; try dsimp only) | (intro _ _ _; try dsimp only) | split

theorem State.protFeed_keeps (n : Nat) (p : Int) {s0 s : State} (h : Keeps s0 s) :
    Keeps s0 (State.protFeed n p s) := by
  unfold State.protFeed
  try dsimp only
  repeat' first | (with_reducible first | assumption | exact Keeps.refl _ | apply Keeps.ite | apply State.modDsm_keeps | apply State.protSide_keeps) | (intro _ _ _ _; try dsimp only) | (intro _ _ _; try dsimp only) | split

theorem State.dsmStuck_keeps (n : Nat) (level : Bool) {s0 s : State} (h : Keeps s0 s) :
    Keeps s0 (State.dsmStuck n level s) := by
  unfold State.dsmStuck
  try dsimp only
  repeat' first | (with_reducible first | assumption | exact Keeps.refl _ | apply Keeps.ite | apply State.raise_keeps | apply State.pb_keeps | apply State.protFeed_keeps | apply State.modDsm_keeps) | (intro _ _ _ _; try dsimp only) | (intro _ _ _; try dsimp only) | split

theorem State.convPut_keeps (c : Nat) (x : Int) {s0 s : State} (h : Keeps s0 s) :
    Keeps s0 (State.convPut c x s) := by
  unfold State.convPut
  try dsimp only
  repeat' first | (with_reducible first | assumption | exact Keeps.refl _ | apply Keeps.ite | apply overL_keeps | apply State.pb_keeps | apply State.setWord_keeps | apply State.modConv_keeps) | (intro _ _ _ _; try dsimp only) | (intro _ _ _; try dsimp only) | split

theorem State.adcOutput_keeps (c : Nat) (x : Int) {s0 s : State} (h : Keeps s0 s) :
    Keeps s0 (State.adcOutput c x s) := by
  unfold State.adcOutput
  try dsimp only
  repeat' first | (with_reducible first | assumption | exact Keeps.refl _ | apply Keeps.ite | apply State.convPut_keeps | apply State.modConv_keeps) | (intro _ _ _ _; try dsimp only) | (intro _ _ _; try dsimp only) | split

theorem State.adcTrigger_keeps (c : Nat) (x : Int) {s0 s : State} (h : Keeps s0 s) : Keeps s0 (State.adcTrigger c x s) := by
  have k := State.capture_keeps c h
  unfold State.adcTrigger
  split
  · exact h
  · split
    · exact h
    · rename_i e
      rw [e] at k
      exact State.convPut_keeps _ _ (State.deliver_keeps _ _ _ k)

theorem State.modPlaus_keeps (g : Nat) (f : Plaus → Plaus) {s0 s : State} (h : Keeps s0 s) :
    Keeps s0 (State.modPlaus g f s) := by
  unfold State.modPlaus
  try dsimp only
  repeat' first | (with_reducible first | assumption | exact Keeps.refl _ | apply Keeps.ite) | (intro _ _ _ _; try dsimp only) | (intro _ _ _; try dsimp only) | split | (with_reducible first | apply Keeps.put | refine Keeps.putNv rfl ?_)

theorem State.plausJudge_keeps (g : Nat) (a : Option Int) (b : Option Int) (c : Option Int) {s0 s : State} (h : Keeps s0 s) :
    Keeps s0 (State.plausJudge g a b c s) := by
  unfold State.plausJudge
  try dsimp only
  repeat' first | (with_reducible first | assumption | exact Keeps.refl _ | apply Keeps.ite | apply State.modPlaus_keeps | apply State.raise_keeps | apply State.pbit_keeps) | (intro _ _ _ _; try dsimp only) | (intro _ _ _; try dsimp only) | split

theorem State.plausEval_keeps (g : Nat) (a : Option Int) (b : Option Int) (c : Option Int) {s0 s : State} (h : Keeps s0 s) :
    Keeps s0 (State.plausEval g a b c s) := by
  unfold State.plausEval
  try dsimp only
  repeat' first | (with_reducible first | assumption | exact Keeps.refl _ | apply Keeps.ite | apply State.plausJudge_keeps | apply State.memberCapture_keeps) | (intro _ _ _ _; try dsimp only) | (intro _ _ _; try dsimp only) | split

theorem State.ovTrip_keeps (l : Nat) {s0 s : State} (h : Keeps s0 s) :
    Keeps s0 (State.ovTrip l s) := by
  unfold State.ovTrip
  try dsimp only
  repeat' first | (with_reducible first | assumption | exact Keeps.refl _ | apply Keeps.ite | apply State.modLink_keeps | apply State.refuse_keeps | apply overL_keeps | apply State.demand_keeps | apply State.raise_keeps | apply State.pb_keeps) | (intro _ _ _ _; try dsimp only) | (intro _ _ _; try dsimp only) | split

theorem State.chopOff_keeps (l : Nat) {s0 s : State} (h : Keeps s0 s) :
    Keeps s0 (State.chopOff l s) := by
  unfold State.chopOff
  try dsimp only
  repeat' first | (with_reducible first | assumption | exact Keeps.refl _ | apply Keeps.ite | apply State.modLink_keeps) | (intro _ _ _ _; try dsimp only) | (intro _ _ _; try dsimp only) | split

theorem State.compTrip_keeps (n : Nat) (high : Bool) {s0 s : State} (h : Keeps s0 s) :
    Keeps s0 (State.compTrip n high s) := by
  unfold State.compTrip
  try dsimp only
  repeat' first | (with_reducible first | assumption | exact Keeps.refl _ | apply Keeps.ite | apply State.sourceTrip_keeps | apply overL_keeps | apply State.ovTrip_keeps | apply State.chopOff_keeps) | (intro _ _ _ _; try dsimp only) | (intro _ _ _; try dsimp only) | split

theorem State.compPut_keeps (n : Nat) (high : Bool) (x : CompSide) {s0 s : State} (h : Keeps s0 s) :
    Keeps s0 (State.compPut n high x s) := by
  unfold State.compPut
  try dsimp only
  repeat' first | (with_reducible first | assumption | exact Keeps.refl _ | apply Keeps.ite | apply State.raise_keeps | apply State.compTrip_keeps) | (intro _ _ _ _; try dsimp only) | (intro _ _ _; try dsimp only) | split | (with_reducible first | apply Keeps.put | refine Keeps.putNv rfl ?_)

theorem State.compFeed_keeps (n : Nat) (v : Int) {s0 s : State} (h : Keeps s0 s) :
    Keeps s0 (State.compFeed n v s) := by
  unfold State.compFeed
  try dsimp only
  repeat' first | (with_reducible first | assumption | exact Keeps.refl _ | apply Keeps.ite | apply State.compPut_keeps) | (intro _ _ _ _; try dsimp only) | (intro _ _ _; try dsimp only) | split

theorem State.rdbkDone_keeps (x : Int) {s0 s : State} (h : Keeps s0 s) :
    Keeps s0 (State.rdbkDone x s) := by
  unfold State.rdbkDone
  try dsimp only
  repeat' first | (with_reducible first | assumption | exact Keeps.refl _ | apply Keeps.ite | apply State.raise_keeps | apply State.pb_keeps | apply State.setWord_keeps | apply State.capture_keeps) | (intro _ _ _ _; try dsimp only) | (intro _ _ _; try dsimp only) | split

theorem State.posErr_keeps (p : Nat) (k : Nat) {s0 s : State} (h : Keeps s0 s) :
    Keeps s0 (State.posErr p k s) := by
  unfold State.posErr
  try dsimp only
  repeat' first | (with_reducible first | assumption | exact Keeps.refl _ | apply Keeps.ite | apply State.modPos_keeps | apply State.pb_keeps | apply overL_keeps | apply State.emuHold_keeps | apply State.raise_keeps) | (intro _ _ _ _; try dsimp only) | (intro _ _ _; try dsimp only) | split

theorem State.heldExpiry_keeps (p : Nat) (k : Nat) {s0 s : State} (h : Keeps s0 s) :
    Keeps s0 (State.heldExpiry p k s) := by
  unfold State.heldExpiry
  try dsimp only
  repeat' first | (with_reducible first | assumption | exact Keeps.refl _ | apply Keeps.ite | apply State.modPos_keeps | apply overL_keeps | apply State.emuResume_keeps) | (intro _ _ _ _; try dsimp only) | (intro _ _ _; try dsimp only) | split

theorem State.cmpRetest_keeps (p : Nat) {s0 s : State} (h : Keeps s0 s) :
    Keeps s0 (State.cmpRetest p s) := by
  unfold State.cmpRetest
  try dsimp only
  repeat' first | (with_reducible first | assumption | exact Keeps.refl _ | apply Keeps.ite | apply overL_keeps | apply State.pbit_keeps) | (intro _ _ _ _; try dsimp only) | (intro _ _ _; try dsimp only) | split

theorem State.emuEdge_keeps (e : Nat) {s0 s : State} (h : Keeps s0 s) :
    Keeps s0 (State.emuEdge e s) := by
  unfold State.emuEdge
  try dsimp only
  repeat' first | (with_reducible first | assumption | exact Keeps.refl _ | apply Keeps.ite | apply State.modEmu_keeps) | (intro _ _ _ _; try dsimp only) | (intro _ _ _; try dsimp only) | split

theorem State.indexReset_keeps (p : Nat) (down : Bool) {s0 s : State} (h : Keeps s0 s) :
    Keeps s0 (State.indexReset p down s) := by
  unfold State.indexReset
  try dsimp only
  repeat' first | (with_reducible first | assumption | exact Keeps.refl _ | apply Keeps.ite | apply State.edgeSpeed_keeps | apply State.setWord_keeps | apply State.raise_keeps | apply State.pb_keeps | apply State.modPos_keeps | apply State.cmpRetest_keeps | apply State.posErr_keeps | apply overL_keeps | apply State.modEmu_keeps | apply State.emuMove_keeps) | (intro _ _ _ _; try dsimp only) | (intro _ _ _; try dsimp only) | split

theorem State.encoderEdge_keeps (p : Nat) (a : Bool) (b : Bool) (z : Bool) {s0 s : State} (h : Keeps s0 s) :
    Keeps s0 (State.encoderEdge p a b z s) := by
  unfold State.encoderEdge
  try dsimp only
  repeat' first | (with_reducible first | assumption | exact Keeps.refl _ | apply Keeps.ite | apply State.modPos_keeps | apply State.posErr_keeps | apply State.indexReset_keeps | apply State.count_keeps) | (intro _ _ _ _; try dsimp only) | (intro _ _ _; try dsimp only) | split

theorem State.hall_keeps (p : Nat) (h' : Nat) {s0 s : State} (h : Keeps s0 s) :
    Keeps s0 (State.hall p h' s) := by
  unfold State.hall
  try dsimp only
  repeat' first | (with_reducible first | assumption | exact Keeps.refl _ | apply Keeps.ite | apply State.modPos_keeps | apply State.posErr_keeps | apply State.count_keeps) | (intro _ _ _ _; try dsimp only) | (intro _ _ _; try dsimp only) | split

theorem State.speedTimeout_keeps (p : Nat) {s0 s : State} (h : Keeps s0 s) :
    Keeps s0 (State.speedTimeout p s) := by
  unfold State.speedTimeout
  try dsimp only
  repeat' first | (with_reducible first | assumption | exact Keeps.refl _ | apply Keeps.ite | apply State.modPos_keeps | apply State.pb_keeps | apply State.setWord_keeps) | (intro _ _ _ _; try dsimp only) | (intro _ _ _; try dsimp only) | split

theorem State.advanceCount_keeps (p : Nat) (d : Int) (stamp : Nat) {s0 s : State} (h : Keeps s0 s) :
    Keeps s0 (State.advanceCount p d stamp s) := by
  unfold State.advanceCount
  try dsimp only
  repeat' first | (with_reducible first | assumption | exact Keeps.refl _ | apply Keeps.ite | apply State.pb_keeps | apply State.setWord_keeps | apply overL_keeps | apply State.emuMove_keeps | apply State.cmpUpdate_keeps) | (intro _ _ _ _; try dsimp only) | (intro _ _ _; try dsimp only) | split

theorem State.frameStart_keeps (p : Nat) {s0 s : State} (h : Keeps s0 s) :
    Keeps s0 (State.frameStart p s) := by
  unfold State.frameStart
  try dsimp only
  repeat' first | (with_reducible first | assumption | exact Keeps.refl _ | apply Keeps.ite | apply State.modPos_keeps) | (intro _ _ _ _; try dsimp only) | (intro _ _ _; try dsimp only) | split

theorem State.badFrame_keeps (p : Nat) {s0 s : State} (h : Keeps s0 s) :
    Keeps s0 (State.badFrame p s) := by
  unfold State.badFrame
  try dsimp only
  repeat' first | (with_reducible first | assumption | exact Keeps.refl _ | apply Keeps.ite | apply State.modPos_keeps | apply State.pb_keeps) | (intro _ _ _ _; try dsimp only) | (intro _ _ _; try dsimp only) | split

theorem State.frameSpeed_keeps (p : Nat) (d : Int) (ticks : Nat) {s0 s : State} (h : Keeps s0 s) :
    Keeps s0 (State.frameSpeed p d ticks s) := by
  unfold State.frameSpeed
  try dsimp only
  repeat' first | (with_reducible first | assumption | exact Keeps.refl _ | apply Keeps.ite | apply State.modPos_keeps | apply State.putSpeed_keeps) | (intro _ _ _ _; try dsimp only) | (intro _ _ _; try dsimp only) | split

theorem State.goodFrame_keeps (p : Nat) (v : Nat) (stamp : Nat) {s0 s : State} (h : Keeps s0 s) :
    Keeps s0 (State.goodFrame p v stamp s) := by
  unfold State.goodFrame
  try dsimp only
  repeat' first | (with_reducible first | assumption | exact Keeps.refl _ | apply Keeps.ite | apply State.modPos_keeps | apply State.setWord_keeps | apply overL_keeps | apply State.emuResume_keeps | apply State.frameSpeed_keeps | apply State.advanceCount_keeps) | (intro _ _ _ _; try dsimp only) | (intro _ _ _; try dsimp only) | split

theorem State.frameEnd_keeps (p : Nat) (f : SerialFrame) (late : Bool) {s0 s : State} (h : Keeps s0 s) :
    Keeps s0 (State.frameEnd p f late s) := by
  unfold State.frameEnd
  try dsimp only
  repeat' first | (with_reducible first | assumption | exact Keeps.refl _ | apply Keeps.ite | apply State.modPos_keeps | apply State.posErr_keeps | apply State.badFrame_keeps | apply State.goodFrame_keeps) | (intro _ _ _ _; try dsimp only) | (intro _ _ _; try dsimp only) | split

theorem State.resolver_keeps (p : Nat) (y : Int) (x : Int) {s0 s : State} (h : Keeps s0 s) :
    Keeps s0 (State.resolver p y x s) := by
  unfold State.resolver
  try dsimp only
  repeat' first | (with_reducible first | assumption | exact Keeps.refl _ | apply Keeps.ite | apply State.modPos_keeps | apply State.used_keeps | apply State.posErr_keeps | apply State.setWord_keeps | apply State.advanceCount_keeps | apply State.putSpeed_keeps) | (intro _ _ _ _; try dsimp only) | (intro _ _ _; try dsimp only) | split

theorem State.bootFuses_keeps {s0 s : State} (h : Keeps s0 s) :
    Keeps s0 (State.bootFuses s) := by
  unfold State.bootFuses
  try dsimp only
  repeat' first | (with_reducible first | assumption | exact Keeps.refl _ | apply Keeps.ite | apply State.p_keeps | apply State.zeroizeNow_keeps) | (intro _ _ _ _; try dsimp only) | (intro _ _ _; try dsimp only) | split | (with_reducible first | apply Keeps.put | refine Keeps.putNv rfl ?_)

theorem State.bootKeys_keeps {s0 s : State} (h : Keeps s0 s) :
    Keeps s0 (State.bootKeys s) := by
  unfold State.bootKeys
  try dsimp only
  repeat' first | (with_reducible first | assumption | exact Keeps.refl _ | apply Keeps.ite | apply State.zeroize_keeps | apply State.sessRegs_keeps) | (intro _ _ _ _; try dsimp only) | (intro _ _ _; try dsimp only) | split | (with_reducible first | apply Keeps.put | refine Keeps.putNv rfl ?_)

theorem State.bootMem_keeps (r : BootResult) {s0 s : State} (h : Keeps s0 s) :
    Keeps s0 (State.bootMem r s) := by
  unfold State.bootMem
  try dsimp only
  repeat' first | (with_reducible first | assumption | exact Keeps.refl _ | apply Keeps.ite | apply State.p_keeps | apply overL_keeps | apply State.mapSpare_keeps) | (intro _ _ _ _; try dsimp only) | (intro _ _ _; try dsimp only) | split | (with_reducible first | apply Keeps.put | refine Keeps.putNv rfl ?_)

theorem State.factoryTrims_keeps {s0 s : State} (h : Keeps s0 s) :
    Keeps s0 (State.factoryTrims s) := by
  unfold State.factoryTrims
  try dsimp only
  repeat' first | (with_reducible first | assumption | exact Keeps.refl _ | apply Keeps.ite | apply State.pb_keeps) | (intro _ _ _ _; try dsimp only) | (intro _ _ _; try dsimp only) | split | (with_reducible first | apply Keeps.put | refine Keeps.putNv rfl ?_)

theorem State.enginesOn_keeps {s0 s : State} (h : Keeps s0 s) :
    Keeps s0 (State.enginesOn s) := by
  unfold State.enginesOn
  try dsimp only
  repeat' first | (with_reducible first | assumption | exact Keeps.refl _ | apply Keeps.ite | apply State.spareFlags_keeps | apply overL_keeps | apply State.setEst_keeps) | (intro _ _ _ _; try dsimp only) | (intro _ _ _; try dsimp only) | split

theorem State.noImage_keeps {s0 s : State} (h : Keeps s0 s) :
    Keeps s0 (State.noImage s) := by
  unfold State.noImage
  try dsimp only
  repeat' first | (with_reducible first | assumption | exact Keeps.refl _ | apply Keeps.ite | apply State.p_keeps) | (intro _ _ _ _; try dsimp only) | (intro _ _ _; try dsimp only) | split

theorem State.bistFails_keeps (i : Nat) {s0 s : State} (h : Keeps s0 s) :
    Keeps s0 (State.bistFails i s) := by
  unfold State.bistFails
  try dsimp only
  repeat' first | (with_reducible first | assumption | exact Keeps.refl _ | apply Keeps.ite | apply State.raise_keeps | apply State.factoryTrims_keeps | apply State.noImage_keeps | apply State.p_keeps | apply State.pb_keeps | apply State.afterCause_keeps | apply State.guarUpdate_keeps | apply State.enterSafe_keeps) | (intro _ _ _ _; try dsimp only) | (intro _ _ _; try dsimp only) | split | (with_reducible first | apply Keeps.put | refine Keeps.putNv rfl ?_)

theorem State.bootLogic_keeps (r : BootResult) {s0 s : State} (h : Keeps s0 s) :
    Keeps s0 (State.bootLogic r s) := by
  unfold State.bootLogic
  try dsimp only
  repeat' first | (with_reducible first | assumption | exact Keeps.refl _ | apply Keeps.ite | apply State.p_keeps | apply State.bistFails_keeps) | (intro _ _ _ _; try dsimp only) | (intro _ _ _; try dsimp only) | split | (with_reducible first | apply Keeps.put | refine Keeps.putNv rfl ?_)

theorem State.bootImage_keeps {s0 s : State} (h : Keeps s0 s) :
    Keeps s0 (State.bootImage s) := by
  unfold State.bootImage
  try dsimp only
  repeat' first | (with_reducible first | assumption | exact Keeps.refl _ | apply Keeps.ite | apply State.noImage_keeps | apply State.p_keeps | apply State.raise_keeps | apply State.pb_keeps) | (intro _ _ _ _; try dsimp only) | (intro _ _ _; try dsimp only) | split | (with_reducible first | apply Keeps.put | refine Keeps.putNv rfl ?_)

theorem State.restoreWord_keeps (x : Nat × Word) {s0 s : State} (h : Keeps s0 s) :
    Keeps s0 (State.restoreWord x s) := by
  unfold State.restoreWord
  try dsimp only
  repeat' first | (with_reducible first | assumption | exact Keeps.refl _ | apply Keeps.ite | apply State.setWord_keeps | apply State.gateHook_keeps | apply State.motionHook_keeps | apply State.senseHook_keeps) | (intro _ _ _ _; try dsimp only) | (intro _ _ _; try dsimp only) | split

theorem State.sourcesRestart_keeps {s0 s : State} (h : Keeps s0 s) :
    Keeps s0 (State.sourcesRestart s) := by
  unfold State.sourcesRestart
  try dsimp only
  repeat' first | (with_reducible first | assumption | exact Keeps.refl _ | apply Keeps.ite | apply overL_keeps | apply State.dsmRestart_keeps | apply State.compRestart_keeps) | (intro _ _ _ _; try dsimp only) | (intro _ _ _; try dsimp only) | split

theorem State.bootPar_keeps {s0 s : State} (h : Keeps s0 s) :
    Keeps s0 (State.bootPar s) := by
  unfold State.bootPar
  try dsimp only
  repeat' first | (with_reducible first | assumption | exact Keeps.refl _ | apply Keeps.ite | apply State.p_keeps | apply State.setWord_keeps | apply State.pb_keeps | apply State.sourcesRestart_keeps | apply overL_keeps | apply State.restoreWord_keeps) | (intro _ _ _ _; try dsimp only) | (intro _ _ _; try dsimp only) | split

theorem State.bootCal_keeps {s0 s : State} (h : Keeps s0 s) :
    Keeps s0 (State.bootCal s) := by
  unfold State.bootCal
  try dsimp only
  repeat' first | (with_reducible first | assumption | exact Keeps.refl _ | apply Keeps.ite | apply State.p_keeps | apply State.factoryTrims_keeps | apply State.setWord_keeps | apply State.pb_keeps) | (intro _ _ _ _; try dsimp only) | (intro _ _ _; try dsimp only) | split | (with_reducible first | apply Keeps.put | refine Keeps.putNv rfl ?_)

theorem State.bootWear_keeps {s0 s : State} (h : Keeps s0 s) :
    Keeps s0 (State.bootWear s) := by
  unfold State.bootWear
  try dsimp only
  repeat' first | (with_reducible first | assumption | exact Keeps.refl _ | apply Keeps.ite | apply overL_keeps | apply State.setWord_keeps) | (intro _ _ _ _; try dsimp only) | (intro _ _ _; try dsimp only) | split | (with_reducible first | apply Keeps.put | refine Keeps.putNv rfl ?_)

theorem State.bootDone_keeps {s0 s : State} (h : Keeps s0 s) :
    Keeps s0 (State.bootDone s) := by
  unfold State.bootDone
  try dsimp only
  repeat' first | (with_reducible first | assumption | exact Keeps.refl _ | apply Keeps.ite | apply State.guarUpdate_keeps | apply State.pb_keeps | apply State.transition_keeps | apply State.raise_keeps | apply State.enginesOn_keeps) | (intro _ _ _ _; try dsimp only) | (intro _ _ _; try dsimp only) | split | (with_reducible first | apply Keeps.put | refine Keeps.putNv rfl ?_)

theorem State.bootStep_keeps (r : BootResult) {s0 s : State} (h : Keeps s0 s) :
    Keeps s0 (State.bootStep r s) := by
  unfold State.bootStep
  try dsimp only
  repeat' first | (with_reducible first | assumption | exact Keeps.refl _ | apply Keeps.ite | apply State.bootFuses_keeps | apply State.bootKeys_keeps | apply State.bootMem_keeps | apply State.bootLogic_keeps | apply State.bootImage_keeps | apply State.bootWear_keeps | apply State.bootCal_keeps | apply State.bootPar_keeps | apply State.serveAll_keeps | apply State.bootDone_keeps | apply State.srstStick_keeps) | (intro _ _ _ _; try dsimp only) | (intro _ _ _; try dsimp only) | split

theorem State.loseRaise_keeps {s0 s : State} (h : Keeps s0 s) :
    Keeps s0 (State.loseRaise s) := by
  unfold State.loseRaise
  try dsimp only
  repeat' first | (with_reducible first | assumption | exact Keeps.refl _ | apply Keeps.ite | apply State.inc_keeps) | (intro _ _ _ _; try dsimp only) | (intro _ _ _; try dsimp only) | split | (with_reducible first | apply Keeps.put | refine Keeps.putNv rfl ?_)

theorem State.eventIn_keeps (i : Nat) {s0 s : State} (h : Keeps s0 s) :
    Keeps s0 (State.eventIn i s) := by
  unfold State.eventIn
  try dsimp only
  repeat' first | (with_reducible first | assumption | exact Keeps.refl _ | apply Keeps.ite | apply State.loseRaise_keeps) | (intro _ _ _ _; try dsimp only) | (intro _ _ _; try dsimp only) | split | (with_reducible first | apply Keeps.put | refine Keeps.putNv rfl ?_)

theorem State.unpool_keeps (r : Raise) {s0 s : State} (h : Keeps s0 s) :
    Keeps s0 (State.unpool r s) := by
  unfold State.unpool
  try dsimp only
  repeat' first | (with_reducible first | assumption | exact Keeps.refl _ | apply Keeps.ite) | (intro _ _ _ _; try dsimp only) | (intro _ _ _; try dsimp only) | split | (with_reducible first | apply Keeps.put | refine Keeps.putNv rfl ?_)

theorem State.markDropped_keeps (r : Raise) {s0 s : State} (h : Keeps s0 s) :
    Keeps s0 (State.markDropped r s) := by
  unfold State.markDropped
  try dsimp only
  repeat' first | (with_reducible first | assumption | exact Keeps.refl _ | apply Keeps.ite) | (intro _ _ _ _; try dsimp only) | (intro _ _ _; try dsimp only) | split | (with_reducible first | apply Keeps.put | refine Keeps.putNv rfl ?_)

theorem State.writeRecord_keeps (r : Raise) (q : Nat) {s0 s : State} (h : Keeps s0 s) :
    Keeps s0 (State.writeRecord r q s) := by
  unfold State.writeRecord
  try dsimp only
  repeat' first | (with_reducible first | assumption | exact Keeps.refl _ | apply Keeps.ite | apply State.qPush_keeps | apply State.unpool_keeps | apply State.logEntry_keeps | apply State.pb_keeps) | (intro _ _ _ _; try dsimp only) | (intro _ _ _; try dsimp only) | split | (with_reducible first | apply Keeps.put | refine Keeps.putNv rfl ?_)

theorem State.writeSlot_keeps (n : Nat) {s0 s : State} (h : Keeps s0 s) : Keeps s0 (State.writeSlot n s) := by
  induction n generalizing s with
  | zero => exact h
  | succ n ih =>
    unfold State.writeSlot
    try dsimp only
    repeat' first
      | (with_reducible first | assumption | apply ih | apply Keeps.ite | apply State.writeRecord_keeps | apply State.inc_keeps | apply State.unpool_keeps | apply State.markDropped_keeps)
      | split
      | apply Keeps.put

theorem State.windowClose_keeps (q : Nat) {s0 s : State} (h : Keeps s0 s) :
    Keeps s0 (State.windowClose q s) := by
  unfold State.windowClose
  try dsimp only
  repeat' first | (with_reducible first | assumption | exact Keeps.refl _ | apply Keeps.ite) | (intro _ _ _ _; try dsimp only) | (intro _ _ _; try dsimp only) | split | (with_reducible first | apply Keeps.put | refine Keeps.putNv rfl ?_)

theorem State.chopOn_keeps (l : Nat) {s0 s : State} (h : Keeps s0 s) :
    Keeps s0 (State.chopOn l s) := by
  unfold State.chopOn
  try dsimp only
  repeat' first | (with_reducible first | assumption | exact Keeps.refl _ | apply Keeps.ite | apply State.modLink_keeps | apply State.refuse_keeps) | (intro _ _ _ _; try dsimp only) | (intro _ _ _; try dsimp only) | split

theorem State.hyst_keeps (l : Nat) {s0 s : State} (h : Keeps s0 s) :
    Keeps s0 (State.hyst l s) := by
  unfold State.hyst
  try dsimp only
  repeat' first | (with_reducible first | assumption | exact Keeps.refl _ | apply Keeps.ite | apply State.chopOn_keeps | apply State.chopOff_keeps) | (intro _ _ _ _; try dsimp only) | (intro _ _ _; try dsimp only) | split

theorem State.watchSafe_keeps (l : Nat) {s0 s : State} (h : Keeps s0 s) :
    Keeps s0 (State.watchSafe l s) := by
  unfold State.watchSafe
  try dsimp only
  repeat' first | (with_reducible first | assumption | exact Keeps.refl _ | apply Keeps.ite | apply State.modLink_keeps | apply State.linkWindStop_keeps) | (intro _ _ _ _; try dsimp only) | (intro _ _ _; try dsimp only) | split

theorem State.benchCheck_keeps (l : Nat) {s0 s : State} (h : Keeps s0 s) :
    Keeps s0 (State.benchCheck l s) := by
  unfold State.benchCheck
  try dsimp only
  repeat' first | (with_reducible first | assumption | exact Keeps.refl _ | apply Keeps.ite | apply overL_keeps | apply State.unitHold_keeps) | (intro _ _ _ _; try dsimp only) | (intro _ _ _; try dsimp only) | split

theorem State.dcLinkSample_keeps (l : Nat) (x : Int) (valid : Bool) {s0 s : State} (h : Keeps s0 s) :
    Keeps s0 (State.dcLinkSample l x valid s) := by
  unfold State.dcLinkSample
  try dsimp only
  repeat' first | (with_reducible first | assumption | exact Keeps.refl _ | apply Keeps.ite | apply State.benchCheck_keeps | apply State.modLink_keeps | apply State.ovTrip_keeps | apply State.watchSafe_keeps | apply State.hyst_keeps) | (intro _ _ _ _; try dsimp only) | (intro _ _ _; try dsimp only) | split

theorem State.chopperPeriod_keeps (l : Nat) {s0 s : State} (h : Keeps s0 s) :
    Keeps s0 (State.chopperPeriod l s) := by
  unfold State.chopperPeriod
  try dsimp only
  repeat' first | (with_reducible first | assumption | exact Keeps.refl _ | apply Keeps.ite | apply State.modLink_keeps | apply State.chopOn_keeps | apply State.chopOff_keeps) | (intro _ _ _ _; try dsimp only) | (intro _ _ _; try dsimp only) | split

theorem State.windStart_keeps (l : Nat) {s0 s : State} (h : Keeps s0 s) :
    Keeps s0 (State.windStart l s) := by
  unfold State.windStart
  try dsimp only
  repeat' first | (with_reducible first | assumption | exact Keeps.refl _ | apply Keeps.ite | apply State.pb_keeps | apply State.setPat_keeps | apply State.unitOff_keeps | apply overL_keeps | apply State.padLater_keeps | apply State.raise_keeps) | (intro _ _ _ _; try dsimp only) | (intro _ _ _; try dsimp only) | split

theorem State.dscSlow_keeps (l : Nat) {s0 s : State} (h : Keeps s0 s) :
    Keeps s0 (State.dscSlow l s) := by
  unfold State.dscSlow
  try dsimp only
  repeat' first | (with_reducible first | assumption | exact Keeps.refl _ | apply Keeps.ite | apply State.modLink_keeps | apply State.raise_keeps | apply State.pb_keeps | apply State.windStart_keeps) | (intro _ _ _ _; try dsimp only) | (intro _ _ _; try dsimp only) | split

theorem State.dscDone_keeps (l : Nat) {s0 s : State} (h : Keeps s0 s) :
    Keeps s0 (State.dscDone l s) := by
  unfold State.dscDone
  try dsimp only
  repeat' first | (with_reducible first | assumption | exact Keeps.refl _ | apply Keeps.ite | apply State.raise_keeps | apply State.pb_keeps | apply State.modLink_keeps) | (intro _ _ _ _; try dsimp only) | (intro _ _ _; try dsimp only) | split

theorem State.dscFail_keeps (l : Nat) {s0 s : State} (h : Keeps s0 s) :
    Keeps s0 (State.dscFail l s) := by
  unfold State.dscFail
  try dsimp only
  repeat' first | (with_reducible first | assumption | exact Keeps.refl _ | apply Keeps.ite | apply State.raise_keeps | apply State.pb_keeps | apply State.modLink_keeps) | (intro _ _ _ _; try dsimp only) | (intro _ _ _; try dsimp only) | split

theorem tick_keeps {s0 s0' : State} (h : Keeps s0 s0') :
    Keeps s0 (tick s0') := by
  unfold tick
  try dsimp only
  repeat' first | (with_reducible first | assumption | exact Keeps.refl _ | apply Keeps.ite | apply State.sleepNow_keeps | apply State.sleepAnswer_keeps | apply State.serveAll_keeps) | (intro _ _ _ _; try dsimp only) | (intro _ _ _; try dsimp only) | split | (with_reducible first | apply Keeps.put | refine Keeps.putNv rfl ?_)

theorem State.setWave_keeps (n : Nat) (l : Ons) (mid : Bool) {s0 s : State} (h : Keeps s0 s) :
    Keeps s0 (State.setWave n l mid s) := by
  unfold State.setWave
  try dsimp only
  repeat' first | (with_reducible first | assumption | exact Keeps.refl _ | apply Keeps.ite) | (intro _ _ _ _; try dsimp only) | (intro _ _ _; try dsimp only) | split | (with_reducible first | apply Keeps.put | refine Keeps.putNv rfl ?_)

theorem State.setPair_keeps (h' : Nat) (l : Nat) (mid : Bool) (x : Ons × Ons) {s0 s : State} (h : Keeps s0 s) :
    Keeps s0 (State.setPair h' l mid x s) := by
  unfold State.setPair
  try dsimp only
  repeat' first | (with_reducible first | assumption | exact Keeps.refl _ | apply Keeps.ite | apply State.setWave_keeps) | (intro _ _ _ _; try dsimp only) | (intro _ _ _; try dsimp only) | split

theorem State.share_keeps (m : Nat) (x : Nat) {s0 s : State} (h : Keeps s0 s) :
    Keeps s0 (State.share m x s) := by
  unfold State.share
  try dsimp only
  repeat' first | (with_reducible first | assumption | exact Keeps.refl _ | apply Keeps.ite | apply overL_keeps | apply State.p_keeps) | (intro _ _ _ _; try dsimp only) | (intro _ _ _; try dsimp only) | split

theorem State.shareUnit_keeps (u : Nat) {s0 s : State} (h : Keeps s0 s) :
    Keeps s0 (State.shareUnit u s) := by
  unfold State.shareUnit
  try dsimp only
  repeat' first | (with_reducible first | assumption | exact Keeps.refl _ | apply Keeps.ite | apply overL_keeps | apply State.share_keeps) | (intro _ _ _ _; try dsimp only) | (intro _ _ _; try dsimp only) | split

theorem State.drivePhase_keeps (u : Nat) (x : Nat) (peak : Bool) (both : Bool) {s0 s : State} (h : Keeps s0 s) :
    Keeps s0 (State.drivePhase u x peak both s) := by
  unfold State.drivePhase
  try dsimp only
  repeat' first | (with_reducible first | assumption | exact Keeps.refl _ | apply Keeps.ite | apply overL_keeps | apply State.setWave_keeps | apply State.setPair_keeps) | (intro _ _ _ _; try dsimp only) | (intro _ _ _; try dsimp only) | split

theorem State.windPulse_keeps (u : Nat) {s0 s : State} (h : Keeps s0 s) :
    Keeps s0 (State.windPulse u s) := by
  unfold State.windPulse
  try dsimp only
  repeat' first | (with_reducible first | assumption | exact Keeps.refl _ | apply Keeps.ite | apply State.setWave_keeps) | (intro _ _ _ _; try dsimp only) | (intro _ _ _; try dsimp only) | split

theorem State.unitReady_keeps (u : Nat) {s0 s : State} (h : Keeps s0 s) :
    Keeps s0 (State.unitReady u s) := by
  unfold State.unitReady
  try dsimp only
  repeat' first | (with_reducible first | assumption | exact Keeps.refl _ | apply Keeps.ite | apply State.windStop_keeps | apply State.takePattern_keeps | apply State.unitHold_keeps) | (intro _ _ _ _; try dsimp only) | (intro _ _ _; try dsimp only) | split | (with_reducible first | apply Keeps.put | refine Keeps.putNv rfl ?_)

theorem State.windUpdate_keeps (u : Nat) (peak : Bool) {s0 s : State} (h : Keeps s0 s) :
    Keeps s0 (State.windUpdate u peak s) := by
  unfold State.windUpdate
  try dsimp only
  repeat' first | (with_reducible first | assumption | exact Keeps.refl _ | apply Keeps.ite | apply State.windStop_keeps | apply State.windPulse_keeps) | (intro _ _ _ _; try dsimp only) | (intro _ _ _; try dsimp only) | split

theorem State.loadUnit_keeps (u : Nat) {s0 s : State} (h : Keeps s0 s) :
    Keeps s0 (State.loadUnit u s) := by
  unfold State.loadUnit
  try dsimp only
  repeat' first | (with_reducible first | assumption | exact Keeps.refl _ | apply Keeps.ite) | (intro _ _ _ _; try dsimp only) | (intro _ _ _; try dsimp only) | split | (with_reducible first | apply Keeps.put | refine Keeps.putNv rfl ?_)

theorem State.updatePoint_keeps (u : Nat) (peak : Bool) {s0 s : State} (h : Keeps s0 s) :
    Keeps s0 (State.updatePoint u peak s) := by
  unfold State.updatePoint
  try dsimp only
  repeat' first | (with_reducible first | assumption | exact Keeps.refl _ | apply Keeps.ite | apply State.windUpdate_keeps | apply State.loadUnit_keeps | apply State.unitReady_keeps | apply overL_keeps | apply State.drivePhase_keeps | apply State.setPat_keeps | apply State.shareUnit_keeps | apply State.unitHold_keeps) | (intro _ _ _ _; try dsimp only) | (intro _ _ _; try dsimp only) | split

theorem State.gflt_keeps (n : Nat) {s0 s : State} (h : Keeps s0 s) :
    Keeps s0 (State.gflt n s) := by
  unfold State.gflt
  try dsimp only
  repeat' first | (with_reducible first | assumption | exact Keeps.refl _ | apply Keeps.ite | apply State.latchFault_keeps | apply State.forcePad_keeps) | (intro _ _ _ _; try dsimp only) | (intro _ _ _; try dsimp only) | split | (with_reducible first | apply Keeps.put | refine Keeps.putNv rfl ?_)

theorem State.ascTurnOn_keeps (u : Nat) {s0 s : State} (h : Keeps s0 s) :
    Keeps s0 (State.ascTurnOn u s) := by
  unfold State.ascTurnOn
  try dsimp only
  repeat' first | (with_reducible first | assumption | exact Keeps.refl _ | apply Keeps.ite | apply overL_keeps | apply State.padLater_keeps) | (intro _ _ _ _; try dsimp only) | (intro _ _ _; try dsimp only) | split | (with_reducible first | apply Keeps.put | refine Keeps.putNv rfl ?_)

theorem State.rechoose_keeps (u : Nat) {s0 s : State} (h : Keeps s0 s) :
    Keeps s0 (State.rechoose u s) := by
  unfold State.rechoose
  try dsimp only
  repeat' first | (with_reducible first | assumption | exact Keeps.refl _ | apply Keeps.ite | apply State.takePattern_keeps) | (intro _ _ _ _; try dsimp only) | (intro _ _ _; try dsimp only) | split

theorem State.storeRaw_keeps (x : Nat × Word) {s0 s : State} (h : Keeps s0 s) :
    Keeps s0 (State.storeRaw x s) := by
  unfold State.storeRaw
  try dsimp only
  repeat' first | (with_reducible first | assumption | exact Keeps.refl _ | apply Keeps.ite | apply State.setWord_keeps) | (intro _ _ _ _; try dsimp only) | (intro _ _ _; try dsimp only) | split

theorem State.feedbackLoss_keeps (n : Nat) {s0 s : State} (h : Keeps s0 s) :
    Keeps s0 (State.feedbackLoss n s) := by
  unfold State.feedbackLoss
  try dsimp only
  repeat' first | (with_reducible first | assumption | exact Keeps.refl _ | apply Keeps.ite | apply State.raise_keeps | apply State.pb_keeps | apply State.modAxis_keeps | apply State.setAxis_keeps | apply State.axisToSafe_keeps) | (intro _ _ _ _; try dsimp only) | (intro _ _ _; try dsimp only) | split

theorem State.axCounters_keeps (n : Nat) {s0 s : State} (h : Keeps s0 s) :
    Keeps s0 (State.axCounters n s) := by
  unfold State.axCounters
  try dsimp only
  repeat' first | (with_reducible first | assumption | exact Keeps.refl _ | apply Keeps.ite | apply State.modAxis_keeps) | (intro _ _ _ _; try dsimp only) | (intro _ _ _; try dsimp only) | split

theorem State.axisEval_keeps (n : Nat) {s0 s : State} (h : Keeps s0 s) :
    Keeps s0 (State.axisEval n s) := by
  unfold State.axisEval
  try dsimp only
  repeat' first | (with_reducible first | assumption | exact Keeps.refl _ | apply Keeps.ite | apply State.modTask_keeps | apply State.axCounters_keeps | apply State.axGo_keeps | apply State.feedbackLoss_keeps | apply State.modAxis_keeps | apply State.setAxis_keeps | apply State.raise_keeps | apply State.pb_keeps | apply State.axStop_keeps) | (intro _ _ _ _; try dsimp only) | (intro _ _ _; try dsimp only) | split

theorem State.axTimeout_keeps (n : Nat) (f : FRef) {s0 s : State} (h : Keeps s0 s) :
    Keeps s0 (State.axTimeout n f s) := by
  unfold State.axTimeout
  try dsimp only
  repeat' first | (with_reducible first | assumption | exact Keeps.refl _ | apply Keeps.ite | apply State.axisToSafe_keeps | apply State.pb_keeps) | (intro _ _ _ _; try dsimp only) | (intro _ _ _; try dsimp only) | split

theorem State.cinCount_keeps (n : Nat) (good : Bool) {s0 s : State} (h : Keeps s0 s) :
    Keeps s0 (State.cinCount n good s) := by
  unfold State.cinCount
  try dsimp only
  repeat' first | (with_reducible first | assumption | exact Keeps.refl _ | apply Keeps.ite | apply State.cinValid_keeps) | (intro _ _ _ _; try dsimp only) | (intro _ _ _; try dsimp only) | split | (with_reducible first | apply Keeps.put | refine Keeps.putNv rfl ?_)

theorem State.cinRaw_keeps (n raw : Nat) {s0 s : State} (h : Keeps s0 s) : Keeps s0 (State.cinRaw n raw s).1 := by
  unfold State.cinRaw
  dsimp only
  apply Keeps.put
  exact State.pb_keeps _ _ _ (State.p_keeps _ _ _ h)

theorem State.cinSample_keeps (n : Nat) (code : BitVec 16) (high : Nat) (period : Nat) {s0 s : State} (h : Keeps s0 s) :
    Keeps s0 (State.cinSample n code high period s) := by
  unfold State.cinSample
  try dsimp only
  repeat' first | (with_reducible first | assumption | exact Keeps.refl _ | apply Keeps.ite | apply State.cinCount_keeps | apply State.used_keeps | apply State.cinRaw_keeps) | (intro _ _ _ _; try dsimp only) | (intro _ _ _; try dsimp only) | split

theorem State.cinTimeout_keeps (n : Nat) {s0 s : State} (h : Keeps s0 s) :
    Keeps s0 (State.cinTimeout n s) := by
  unfold State.cinTimeout
  try dsimp only
  repeat' first | (with_reducible first | assumption | exact Keeps.refl _ | apply Keeps.ite | apply State.cinCount_keeps | apply State.cinValid_keeps | apply State.cinRaw_keeps) | (intro _ _ _ _; try dsimp only) | (intro _ _ _; try dsimp only) | split

theorem State.taken_keeps (n : Fin 4) (opc : Nat) (tag : BitVec 8) (arg : Word) (pl : List Word) {s0 s : State} (h : Keeps s0 s) :
    Keeps s0 (State.taken n opc tag arg pl s) := by
  unfold State.taken
  try dsimp only
  repeat' first | (with_reducible first | assumption | exact Keeps.refl _ | apply Keeps.ite | apply State.takeFrame_keeps | apply State.enqueue_keeps) | (intro _ _ _ _; try dsimp only) | (intro _ _ _; try dsimp only) | split

end Sys2Proof.Machine
end

