-- ==== Sys2Proof/Laws/Rhaxel.lean ====
section
/-! SUPPORT. What an engine does with an instruction that succeeds, and with one that faults; what writes of a pass
change; and that the mirror keeps native values (R111 to R113). -/

namespace Sys2Proof.Machine

/-- The instruction as the engine presents it. -/
def Run.start (s : State) (e : Fin 16) (t : Task) (st : Step) : Run := ⟨s, e, t, st, none, none⟩

@[simp] theorem Run.p_setP (r : Run) (p : Pass) : (r.setP p).p = p := rfl
@[simp] theorem Run.s_setP (r : Run) (p : Pass) : (r.setP p).s = r.s := rfl
@[simp] theorem Run.t_setP (r : Run) (p : Pass) : (r.setP p).t = r.t := rfl
@[simp] theorem Run.e_setP (r : Run) (p : Pass) : (r.setP p).e = r.e := rfl
@[simp] theorem Run.st_setP (r : Run) (p : Pass) : (r.setP p).st = { r.st with cur := p } := rfl
@[simp] theorem Run.jump_setP (r : Run) (p : Pass) : (r.setP p).jump = r.jump := rfl
@[simp] theorem Run.goto_setP (r : Run) (p : Pass) : (r.setP p).goto = r.goto := rfl

@[simp] theorem Pass.outerEnd_ended (p : Pass) (n : Nat) : (p.outerEnd n).ended = p.ended := by
  unfold Pass.outerEnd
  repeat' split
  all_goals rfl

@[simp] theorem Pass.goOn_ended (p : Pass) (n : Nat) : (p.goOn n).ended = p.ended := by
  unfold Pass.goOn
  repeat' split
  all_goals simp

@[simp] theorem Pass.jumpTo_ended (p : Pass) (n : Nat) : (p.jumpTo n).ended = p.ended := rfl

@[simp] theorem Run.advance_ended (r : Run) (len : Nat) : (r.advance len).ended = r.p.ended := by
  unfold Run.advance
  repeat' split
  all_goals simp

/-- With no codeword of its local memories struck, the engine's reads change nothing. -/
theorem State.localTouch_sound {s : State} {e : Nat} (h : s.localUpsets e = []) : State.localTouch e s = s := by
  have hf : (s.upsets.filter fun x => !inLocal e x.1) = s.upsets := by
    rw [State.localUpsets, List.map_eq_nil_iff, List.filter_eq_nil_iff] at h
    rw [List.filter_eq_self]
    intro x hx
    simpa using h x hx
  rw [State.localTouch, h, hf]
  rfl

/-- An instruction that succeeds and does not end its pass. -/
theorem State.rhax_ok {s : State} {e : Fin 16} {t : Task} {st : Step} (h : Running s e t st) {len : Nat} {f : Op} {r : Run}
    (hf : f (Run.start s e t st) = .ok r) (hst : r.st = { st with cur := r.p, log := r.st.log }) (he : r.p.ended = false) :
    s.rhax e len f = State.setStep e { st with cur := r.advance len, log := r.st.log } r.s := by
  obtain ⟨up, go, hd, tk, op, mo, ag, snd⟩ := h
  simp only [Run.start] at hf
  have hag : (st.resA.bind (·.fault)).filter (fun x => st.passB && x.count == st.cur.count) = none := by
    cases hx : st.resA.bind (·.fault) with
    | none => rfl
    | some x => simpa [hx, Option.filter] using ag
  simp only [State.rhax, go, State.instr, State.localTouch_sound snd, snd, hd, tk, up, op, hf, hag]
  simp only [Run.advance_ended, he]
  rw [hst]
  simp [op]

/-- An instruction that faults in pass A: the record is kept and pass B starts. -/
theorem State.rhax_fault {s : State} {e : Fin 16} {t : Task} {st : Step} (h : Running s e t st) {len : Nat} {f : Op}
    {c r : Nat} (hf : f (Run.start s e t st) = .error ⟨c, r, none, none⟩) (hc : c ≠ 0) (hB : st.passB = false)
    (hD : st.debug = false) (hS : s.slotsUsed e < 4) :
    s.rhax e len f = State.setStep e { st with
      passB := true, cur := t.pass, resA := some { st.cur with fault := some ⟨c, r, st.cur.pc, st.cur.count⟩ } } s := by
  obtain ⟨up, go, hd, tk, op, mo, ag, snd⟩ := h
  simp only [Run.start] at hf
  simp only [State.rhax, go, State.instr, State.localTouch_sound snd, snd, hd, tk, up, op, hf, hc]
  simp only [State.passFault, hD, hB, State.recordA, if_neg (by omega : ¬4 ≤ s.slotsUsed e), State.setStep, Task.pass]
  simp [op]

/-! Writes. -/

theorem upd_get {α : Type} {n : Nat} (v : Vector α n) (i : Nat) (f : α → α) (j : Nat) (h : j < n) :
    (upd v i f)[j] = if i = j then f v[j] else v[j] := by
  unfold upd
  split
  · rw [Vector.getElem_set]; split <;> simp_all
  · rw [if_neg (by omega)]

@[simp] theorem Run.p_wr (r : Run) (i : Nat) (v : Word) (b c : Bool) : (r.wr i v b c).p =
    if i = 0 then r.p else { r.p with g := upd r.p.g i fun _ => ⟨v, b, c⟩ }.note i (if c then 1 else 0) (GReg.native ⟨v, b, c⟩).toNat 4 := by
  unfold Run.wr; split <;> rfl

@[simp] theorem Run.s_wr (r : Run) (i : Nat) (v : Word) (b c : Bool) : (r.wr i v b c).s = r.s := by unfold Run.wr; split <;> rfl
@[simp] theorem Run.jump_wr (r : Run) (i : Nat) (v : Word) (b c : Bool) : (r.wr i v b c).jump = r.jump := by unfold Run.wr; split <;> rfl
@[simp] theorem Run.goto_wr (r : Run) (i : Nat) (v : Word) (b c : Bool) : (r.wr i v b c).goto = r.goto := by unfold Run.wr; split <;> rfl
theorem Run.st_wr (r : Run) (i : Nat) (v : Word) (b c : Bool) : (r.wr i v b c).st = { r.st with cur := (r.wr i v b c).p } := by
  unfold Run.wr; split <;> rfl

@[simp] theorem Run.s_putStw (r : Run) (v : Word) : (r.putStw v).s = r.s := by simp only [Run.putStw]; split <;> rfl
@[simp] theorem Run.jump_putStw (r : Run) (v : Word) : (r.putStw v).jump = r.jump := by simp only [Run.putStw]; split <;> rfl
@[simp] theorem Run.goto_putStw (r : Run) (v : Word) : (r.putStw v).goto = r.goto := by simp only [Run.putStw]; split <;> rfl
theorem Run.st_putStw (r : Run) (v : Word) : (r.putStw v).st = { r.st with cur := (r.putStw v).p } := by
  simp only [Run.putStw]; split <;> rfl

/-- Writing STW changes STW, to the five flags of the word, and the write signature. -/
theorem Run.p_putStw (r : Run) (v : Word) :
    ∃ w, (r.putStw v).p = { r.p with stw := v &&& 0x1F, wsig := w } := by
  simp only [Run.putStw]
  split
  · rename_i h; exact ⟨r.p.wsig, by rw [h]⟩
  · exact ⟨_, rfl⟩

theorem Pass.goOn_same (p q : Pass) (h0 : q.lc0 = p.lc0) (h1 : q.lc1 = p.lc1) (n : Nat) :
    (q.goOn n).pc = (p.goOn n).pc ∧ (q.goOn n).lc0 = (p.goOn n).lc0 ∧ (q.goOn n).lc1 = (p.goOn n).lc1 := by
  cases h : p.lc1 <;> cases h' : p.lc0 <;> simp only [Pass.goOn, Pass.outerEnd, h0, h1, h, h'] <;> repeat' split
  all_goals simp_all

theorem Pass.goOn_rest (p : Pass) (n : Nat) : ∃ a b c, p.goOn n = { p with pc := a, lc0 := b, lc1 := c } := by
  unfold Pass.goOn Pass.outerEnd
  repeat' split
  all_goals exact ⟨_, _, _, rfl⟩

/-- A pass that has executed one more instruction of `len` words goes on to its successor. -/
theorem Run.advance_goes (r : Run) (len : Nat) (hj : r.jump = none) (hg : r.goto = none) :
    ∃ a b d, r.advance len = { r.p with count := r.p.count + 1, pc := a, lc0 := b, lc1 := d }
      ∧ a = (r.p.goOn (r.p.pc + len)).pc ∧ b = (r.p.goOn (r.p.pc + len)).lc0 ∧ d = (r.p.goOn (r.p.pc + len)).lc1 := by
  obtain ⟨a, b, d, h⟩ := Pass.goOn_rest { r.p with count := r.p.count + 1 } (r.p.pc + len)
  refine ⟨a, b, d, ?_, ?_⟩
  · simp only [Run.advance, hj, hg]; exact h
  · have k := Pass.goOn_same { r.p with count := r.p.count + 1 } r.p rfl rfl (r.p.pc + len)
    rw [h] at k; exact ⟨k.1.symm, k.2.1.symm, k.2.2.symm⟩

/-- An instruction that writes one register and sets flags. -/
theorem Writes.of_wr {i : Instr} {s : State} {e : Fin 16} {t : Task} {st : Step} {len : Nat} {f : Op} {gd : Fin 32} {v fl : Word}
    {b c : Bool} (h : Running s e t st) (hx : exec i s = .next (s.rhax e len f))
    (hf : f (Run.start s e t st) = .ok (((Run.start s e t st).wr gd v b c).flag fl)) :
    Writes i s e st len gd [GReg.native ⟨v, b, c⟩] c fl := by
  obtain ⟨w, hw⟩ := Run.p_putStw ((Run.start s e t st).wr gd v b c) (((Run.start s e t st).wr gd v b c).p.stw ||| fl)
  have hp : (((Run.start s e t st).wr gd v b c).flag fl).p = _ := hw
  have hj : (((Run.start s e t st).wr gd v b c).flag fl).jump = none := by unfold Run.flag; simp [Run.start]
  have hg : (((Run.start s e t st).wr gd v b c).flag fl).goto = none := by unfold Run.flag; simp [Run.start]
  obtain ⟨pc, l0, l1, ha, e1, e2, e3⟩ := Run.advance_goes _ len hj hg
  have hq : ((Run.start s e t st).wr gd v b c).p = { st.cur with
      g := if gd.val = 0 then st.cur.g else upd st.cur.g gd fun _ => ⟨v, b, c⟩, wsig := ((Run.start s e t st).wr gd v b c).p.wsig } := by
    rw [Run.p_wr]; split <;> rfl
  rw [hq] at hp
  have hk := Pass.goOn_same st.cur (((Run.start s e t st).wr gd v b c).flag fl).p (by rw [hp]) (by rw [hp]) (st.cur.pc + len)
  have hpc : (((Run.start s e t st).wr gd v b c).flag fl).p.pc = st.cur.pc := by rw [hp]
  rw [hpc] at e1 e2 e3
  refine ⟨(((Run.start s e t st).wr gd v b c).flag fl).advance len, ?_, ⟨⟨?_, ?_, ?_, ?_⟩, ⟨?_, ?_, ?_⟩, ⟨?_, ?_, ?_⟩⟩, ⟨?_, ?_, ?_⟩⟩
  · rw [hx, State.rhax_ok h hf]
    · unfold Run.flag; rw [Run.st_putStw, Run.st_wr]; simp [Run.start]
    · unfold Run.flag; rw [Run.st_putStw, Run.st_wr]; rfl
    · rw [hp]; exact h.more
  · rw [ha, hp]
  · rw [ha, hp]; simp only [BitVec.and_assoc, BitVec.and_self]
  · rw [ha, hp]; exact ⟨rfl, rfl⟩
  · rw [ha, hp]; exact ⟨rfl, rfl⟩
  · rw [ha]; exact e1.trans hk.1
  · rw [ha]; exact e2.trans hk.2.1
  · rw [ha]; exact e3.trans hk.2.2
  · rw [ha, hp]
  · rw [ha, hp]; exact ⟨rfl, rfl⟩
  · rw [ha, hp]; exact ⟨rfl, rfl⟩
  · intro k hk h0 h32
    have hk0 : k = 0 := by simpa using hk
    subst hk0
    rw [ha, hp]
    have hgd : gd.val ≠ 0 := by simpa using h0
    simp only [hgd, if_false, Nat.add_zero, List.getElem_cons_zero]
    rw [upd_get]; simp
  · intro i hi
    rw [ha, hp]
    simp only
    split
    · rfl
    · show (upd _ _ _)[i.val] = _
      rw [upd_get, if_neg]; · rfl
      simp at hi; omega
  · rw [ha, hp]

end Sys2Proof.Machine
end

