-- ==== Sys2Proof/Laws/Mirror.lean ====
section
/-! SUPPORT. The mirror keeps native values (R111 to R113): the operands of the classes, and the odd functions of class
L. -/

namespace Sys2Proof.Machine

/-- A magnitude of Q1.31. -/
def Q31 (x : Int) : Prop := -(2 ^ 31 - 1) ≤ x ∧ x ≤ 2 ^ 31 - 1

theorem qOf_range (w : Word) : Q31 (qOf w) := by
  unfold qOf Q31
  have h1 := BitVec.le_toInt w
  have h2 := BitVec.toInt_lt (x := w)
  split
  · omega
  · rename_i h
    have : w.toInt ≠ -2 ^ 31 := by
      intro hh; apply h; apply BitVec.eq_of_toInt_eq; rw [hh]; rfl
    simp at h1 h2; omega

theorem ofInt_neg (x : Int) : ofInt (-x) = -ofInt x := by unfold ofInt; exact BitVec.ofInt_neg

theorem mirrorWord_self (w : Word) : mirrorWord false (mirrorWord false w) = w := by simp [mirrorWord]

/-- The native value of a result of type I. -/
theorem native_ofInt (v : Int) (b : Bool) : GReg.native ⟨ofInt v, b, false⟩ = ofInt (if b then -v else v) := by
  cases b <;> simp [GReg.native, mirrorWord, ofInt_neg]

theorem neg_min (w : Word) : -w = 0x80000000 ↔ w = 0x80000000 := by
  constructor
  · intro h; rw [← neg_neg w, h]; decide
  · intro h; rw [h]; decide

theorem GReg.q_I (w : Word) (b : Bool) :
    (if (GReg.q ⟨w, b, false⟩).tag then -(GReg.q ⟨w, b, false⟩).v else (GReg.q ⟨w, b, false⟩).v) = qOf (if b then -w else w)
      ∧ (GReg.q ⟨w, b, false⟩).sat = ((if b then -w else w) == 0x80000000) := by
  have hq : GReg.q ⟨w, b, false⟩ = if w = 0x80000000 then ⟨if b then 2 ^ 31 - 1 else -(2 ^ 31 - 1), b, true⟩
      else ⟨sval w, b, false⟩ := rfl
  rw [hq]
  by_cases h : w = 0x80000000
  · rw [if_pos h, h]; cases b <;> decide
  · rw [if_neg h]
    have h' : ¬-w = 0x80000000 := by rwa [neg_min]
    cases b
    · simp only [Bool.false_eq_true, if_false, qOf, if_neg h, sval]
      exact ⟨trivial, (beq_eq_false_iff_ne.mpr h).symm⟩
    · simp only [if_true, qOf, if_neg h', sval]
      refine ⟨?_, (beq_eq_false_iff_ne.mpr h').symm⟩
      rw [BitVec.toInt_neg_of_ne_intMin]; exact h

/-- A Q1.31 operand stands for the operand's native value with its tag. -/
theorem GReg.q_spec (x : GReg) :
    (if x.q.tag then -x.q.v else x.q.v) = qOf x.native ∧ x.q.sat = (x.native == 0x80000000) := by
  obtain ⟨w, b, f⟩ := x
  cases f
  · have h := GReg.q_I w b
    have hn : GReg.native ⟨w, b, false⟩ = if b then -w else w := by cases b <;> rfl
    rw [hn]; exact h
  · have h := GReg.q_I (GReg.native ⟨w, b, true⟩) false
    exact h

theorem GReg.q_range (x : GReg) : Q31 x.q.v := by
  have h := (GReg.q_spec x).1
  have r := qOf_range x.native
  rw [← h] at r
  unfold Q31 at *
  split at r <;> omega

/-- An operand aligned to a tag. -/
theorem GReg.q_align (x : GReg) (b : Bool) : x.q.align b = if b then -qOf x.native else qOf x.native := by
  have h := (GReg.q_spec x).1
  unfold Src.align
  cases hb : x.q.tag <;> cases b <;> simp_all; omega

theorem satFlag_one (x : GReg) : satFlag [x.q] = qSat [x.native] := by
  simp [satFlag, qSat, (GReg.q_spec x).2]

theorem satFlag_two (x y : GReg) : satFlag [x.q, y.q] = qSat [x.native, y.native] := by
  simp [satFlag, qSat, (GReg.q_spec x).2, (GReg.q_spec y).2]

theorem satFlag_three (x y z : GReg) : satFlag [x.q, y.q, z.q] = qSat [x.native, y.native, z.native] := by
  simp [satFlag, qSat, (GReg.q_spec x).2, (GReg.q_spec y).2, (GReg.q_spec z).2]

/-! Odd functions. -/

theorem clampI_neg (l x : Int) : clampI (-l) l (-x) = -clampI (-l) l x ∨ l < 0 := by
  unfold clampI; by_cases h : l < 0
  · exact .inr h
  · left; split <;> split <;> (try split) <;> omega

theorem sat31_neg (x : Int) : sat31 (-x) = -sat31 x := by
  unfold sat31 clampI; split <;> split <;> (try split) <;> omega

theorem satOut_neg (x : Int) : satOut (-x) = (-(satOut x).1, (satOut x).2) := by
  simp only [satOut, sat31_neg, Prod.mk.injEq, true_and]
  congr 1
  simp [bne]

theorem rndDiv_neg (a b : Int) (h : 0 < b) : rndDiv (-a) b = -rndDiv a b := by
  unfold rndDiv
  by_cases h0 : a = 0
  · subst h0
    have : b / (2 * b) = 0 := Int.ediv_eq_zero_of_lt (by omega) (by omega)
    simp [this]
  · split <;> split
    · omega
    · rw [neg_neg]; congr 1; ring
    · rw [show -2 * -a = 2 * a by ring]
    · omega

theorem absI_neg (x : Int) : absI (-x) = absI x := by unfold absI; split <;> split <;> omega

theorem sgnI_neg (x : Int) : sgnI (-x) = -sgnI x := by
  unfold sgnI; repeat' split
  all_goals omega

end Sys2Proof.Machine
end

