-- ==== Sys2Proof/Machine/Pins.lean ====
section
/-! DEFINITION. The output pins of R59 that no other file gives: clocks, excitation, emulators, the lines of the host ports
and of the networks. GCMD, BRK, DSC, SOUT, TPO, FAULT_N and HPn_IRQ_N are State.padCmd, brkPad, dscPad, soutOn, tpoRuns,
faultN and irqLow. -/

namespace Sys2Proof.Machine

/-- What a pin of R59 does: a level, high impedance, or the waveform its block gives it. -/
inductive Pin
  | low
  | high
  | highZ
  /-- A clock, and the level it has at this tick. -/
  | clock (level : Bool)
  /-- A sine about VMID: its peak in units of 1.5 V/256, its period, and the ticks since it crossed zero upward (R302). -/
  | sine (amp per at' : Nat)
  /-- As the bus controller or the transaction drives it. -/
  | driven
  /-- Recessive, or electrically idle. -/
  | idle
  deriving DecidableEq, Repr

/-- The mode lets the configured outputs work: not the ramp, BOOT or SLEEP (R59). -/
def State.pinsOn (s : State) : Bool :=
  s.up && (s.mode == mCONFIGURE || s.mode == mREADY || s.mode == mRUN || s.mode == mSAFE)

/-- Every domain but PD_CNPY is switched off (R15, R65). -/
def State.asleep (s : State) : Bool := s.pwr.phase == .sleep

/-- MCLKOc (R59, R272): high for ⌊DIV/2⌋ ticks from each tick t with t mod DIV = PH. -/
def State.mclkoPin (s : State) (c : Nat) : Pin :=
  if s.pinsOn && s.gb DSM.CLK_EN c then
    let d := s.g DSM.CLK_DIV c
    .clock (decide ((s.tbase + d - s.g DSM.CLK_PH c) % d < d / 2))
  else .low

/-- EXCe (R59, R302). -/
def State.excPin (s : State) (e : Nat) : Pin :=
  if s.pinsOn && s.gb POS.EXC_EN e then .sine (s.g POS.EXC_AMP e) (s.g POS.EXC_PER e) (s.tbase % s.g POS.EXC_PER e) else .highZ

/-- A level. -/
def Pin.ofLevel (b : Bool) : Pin := if b then .high else .low

/-- The A, B and Z outputs of emulator `e` (R59, R314, R315). -/
def State.emuPins (s : State) (e : Nat) : Pin × Pin × Pin :=
  let x := s.emul e
  if s.pinsOn && s.gb POS.EMUCFG_EN e then
    (Pin.ofLevel (x.phase == 1 || x.phase == 2), Pin.ofLevel (x.phase == 2 || x.phase == 3), Pin.ofLevel x.z)
  else (.low, .low, .low)

/-- The clock-out pair of port `p`: idle high, and a clock of 2·DIV ticks, its first edge falling, during a frame (R59, R292,
R299). -/
def State.serialClockPin (s : State) (p : Nat) : Pin :=
  if s.asleep then .highZ
  else if s.pinsOn && (s.posMode p == 3 || s.posMode p == 4) then
    match (s.port p).inFrame with
    | some t =>
      let d := s.g POS.SER_DIV p
      let bits := s.g POS.SER_NBITS p + if s.posMode p = 3 then 1 + s.g POS.SER_PAR p else 11
      if s.tbase - t < bits * 2 * d then .clock (decide (d ≤ (s.tbase - t) % (2 * d))) else .high
    | none => .high
  else .high

/-- HPn_IO, given the level of HPn_CS_N (R59). -/
def State.hostIoPin (s : State) (csLow : Bool) : Pin := if s.up && csLow then .driven else .highZ

/-- CANc TX (R59, R366): recessive in MONITOR and LOOPBACK, and while the controller is off or bus-off. -/
def State.canTxPin (s : State) (c : Nat) : Pin :=
  if s.pinsOn && s.canOn c && s.g CAN.STAT_FCS c != 2 && s.g CAN.CFG_MODE c != 1 && s.g CAN.CFG_MODE c != 3 then .driven else .idle

/-- The SGMII transmitter of MAC `m` (R59). -/
def State.sgmiiPin (s : State) (m : Nat) : Pin := if s.pinsOn && s.ethOn m then .driven else .idle

/-- MDC of MAC `m`: a clock while a transaction runs (R59). -/
def State.mdcPin (s : State) (m : Nat) : Pin := if s.pinsOn && s.ethOn m && s.gb ETH.MDIO_BUSY m then .driven else .low

end Sys2Proof.Machine
end

