-- ==== Sys2Proof/WellFormed.lean ====
section
/-! DEFINITION. Which commands are well formed: the operand bounds a type does not carry by itself. The outside
world sends only well-formed commands; the machine has a meaning for every command. -/

namespace Sys2Proof

/-- The payload of a command frame holds at most 1,024 words (R74). -/
def payloadOk (pl : List Word) : Bool := decide (pl.length ≤ 1024)

/-- A CAN frame carries 0–8, 12, 16, 20, 24, 32, 48 or 64 data bytes; classic frames at most 8; remote frames
none; a standard identifier has 11 bits (R363, R368). -/
def CanFrame.ok (f : CanFrame) : Bool :=
  decide (f.data.length ∈ (if f.fdf then [0, 1, 2, 3, 4, 5, 6, 7, 8, 12, 16, 20, 24, 32, 48, 64]
                           else [0, 1, 2, 3, 4, 5, 6, 7, 8]))
  && (!f.rtr || (f.data.isEmpty && !f.fdf)) && (f.xtd || decide (f.id.toNat < 2048)) && (f.fdf || !f.brs)

/-- An Ethernet frame has a header of 14 bytes at least (R377). -/
def EthFrame.ok (f : EthFrame) : Bool := decide (14 ≤ f.bytes.length)

/-- The transaction codes R71 defines are not bad transactions. -/
def badCode (c : BitVec 8) : Bool := !decide (c ∈ [0x5A#8, 0x5B#8, 0xA5#8, 0xA6#8, 0xE5#8, 0xE6#8])

/-- A hardware-loop body is 1–4,095 words long (R131). -/
def loopLenOk (len : BitVec 12) : Bool := decide (len ≠ 0)

/-- The well-formedness of a command. -/
def Instr.wf : Instr → Bool
  | .status _ _ _ pl | .read _ _ _ pl | .write _ _ _ pl | .doorbell _ _ _ pl | .imgLoad _ _ _ pl
  | .imgCommit _ _ _ pl | .taskAdmit _ _ _ pl | .taskRetire _ _ _ pl | .taskMailboxWrite _ _ _ pl
  | .taskMailboxRead _ _ _ pl | .modeReq _ _ _ pl | .nvCommit _ _ _ pl | .bistRun _ _ _ pl | .calRun _ _ _ pl
  | .safeOpen _ _ _ pl | .safeConfirm _ _ _ pl | .safeCommit _ _ _ pl | .telemSub _ _ _ pl | .telemUnsub _ _ _ pl
  | .opStatus _ _ _ pl | .opAbort _ _ _ pl => payloadOk pl
  | .safeUnlock _ _ _ pl | .safeClose _ _ _ pl | .safeSetseed _ _ _ pl => payloadOk pl
  | .spiBadTransaction _ code => badCode code
  | .loop _ _ _ len => loopLenOk len
  | .canFrameReceived _ f => f.ok
  | .ethFrameReceived _ f => f.ok
  | _ => true

end Sys2Proof
end

