-- ==== Sys2Proof/Tests/Slice0.lean ====
section
/-! SUPPORT. The model's own tests: ill-formed commands are refused, and states that meet the hypotheses of the
statements. -/

namespace Sys2Proof.Tests

set_option Elab.async false

open Sys2Proof.Machine

/-! Well-formedness: one ill-formed command for each check. -/

theorem test_wf_payload : (Instr.write 0 1 0 (List.replicate 1025 0)).wf = false := by decide +kernel
theorem test_wf_action_payload : (Instr.safeClose 0 1 0 (List.replicate 1025 0)).wf = false := by decide +kernel
theorem test_wf_transaction_code : (Instr.spiBadTransaction 0 0x5A).wf = false := by decide +kernel
theorem test_wf_loop_length : (Instr.loop 0 false (.imm 1) 0).wf = false := by decide +kernel
theorem test_wf_can_length : (Instr.canFrameReceived 0 ⟨1, false, false, false, false, false, List.replicate 9 0, false, 0⟩).wf = false := by
  decide +kernel
theorem test_wf_ethernet_length : (Instr.ethFrameReceived 0 ⟨[1, 2, 3], true, false, 0⟩).wf = false := by decide +kernel
theorem test_wf_good : (Instr.write 0 1 0 [0]).wf = true := by decide +kernel

/-! Small states. -/

/-- Powered, every supply good, boot over, in mode `m`. -/
def on (m : Nat) : State :=
  State.p { State.reset with pwr := { State.reset.pwr with phase := .running, good := 0xFF }, boot := ⟨7, false, none, false⟩ }
    SYS.MODE_CUR 0 m

/-- A task descriptor: one bridge, one group, two queues, one frame entry, one event and one telemetry signal. -/
def descr (kind cls : Nat) : Descr :=
  ⟨kind, cls, 0, 0, 1000, 0, 0, 128, 0, 64, 0, 8, 8, 0, 1, [(0, false)], [(40, false), (41, true)], [(3, 0)], [0x100], [0]⟩

/-- A task of that descriptor, on engine 0. -/
def task (kind cls : Nat) : Task :=
  ⟨1, 0, descr kind cls, 0, List.replicate 32 0, [], [], [], [], [], [], 0, 0, .localMem, .localMem, .localMem, .localMem,
   .localMem, 0, 0, 0, 0, none, none, [], none, 0, 0, [], [], [], none, none, false, none, [], [], []⟩

/-- A pass with some values in its registers. -/
def pass : Pass :=
  { Pass.init with
    g := ((Pass.init.g.set 5 ⟨0x00000010, false, false⟩).set 9 ⟨0x40000000, false, false⟩).set 31 ⟨8, false, false⟩
    pc := 2, count := 2 }

/-- A step of task 1 in pass A, or in pass B. -/
def stp (b : Bool) : Step :=
  ⟨1, 100, 20000, [⟨7, 1, 90⟩], b, pass, if b then some pass else none, [], [(40, 2), (41, 3)], false, false, false, 0, 0⟩

/-- Engine 0 running that step. -/
def rx (kind cls : Nat) (st : Step) : State :=
  let s := on mRUN
  { s with tasks := [task kind cls], engines := s.engines.set 0 { s.engines[0] with steps := [st] } }

/-! What the statements about Rhaxel ask. -/

theorem test_hyp_running : Running (rx 0 0 (stp false)) 0 (task 0 0) (stp false) := ⟨rfl, rfl, rfl, rfl, rfl, rfl, rfl, rfl⟩
theorem test_hyp_running_b : Running (rx 0 0 (stp true)) 0 (task 0 0) (stp true) := ⟨rfl, rfl, rfl, rfl, rfl, rfl, rfl, rfl⟩
theorem test_hyp_setup : Running (rx 1 2 (stp false)) 0 (task 1 2) (stp false) := ⟨rfl, rfl, rfl, rfl, rfl, rfl, rfl, rfl⟩
theorem test_hyp_AluMovesAndLongForms : longDefined 0x09 31 5 = true ∧ longDefined 0x0B 0 31 = true ∧ longDefined 0x20 0 0 = true := by
  decide +kernel
theorem test_hyp_Accumulators : (stp false).cur.natA 0 ≠ BitVec.intMin 72 ∧ (stp false).cur.natA 7 ≠ BitVec.intMin 72 := by
  decide +kernel
theorem test_hyp_FpuResults : (stp false).cur.nat 5 ≠ 0x80000000 := by decide +kernel
theorem test_hyp_FieldTransforms : (29 : Fin 32).val ≠ 0 ∧ (29 : Fin 32).val + 3 ≤ 32 ∧ (30 : Fin 32).val + 2 ≤ 32 := by
  decide
theorem test_hyp_FieldControllers : (29 : Fin 32).val + 3 ≤ 32 ∧ (30 : Fin 32).val + 2 ≤ 32 ∧ (28 : Fin 32).val + 4 ≤ 32
    ∧ (stp false).cur.natA 7 ≠ BitVec.intMin 72 := by decide +kernel

/-- The last unit of MBOX, and of STATE, by g5 = 16. -/
theorem test_hyp_SegmentLoads :
    let a := ((stp false).cur.nat 5 + (224 : BitVec 16).signExtend 32).toNat
    a / 2 ^ 24 ≤ 2 ∧ a % 2 ^ 24 + 16 ≤ (task 0 0).segSize (a / 2 ^ 24) ∧ a % 2 ^ 24 % 16 = 0
      ∧ (rx 0 0 (stp false)).segPoisoned (task 0 0) false false (a % 2 ^ 24) 16 = false := by decide +kernel
theorem test_hyp_SegmentLoads_const :
    let st := { stp false with cur := { pass with g := pass.g.set 5 ⟨0x0200003F, false, false⟩ } }
    Running (rx 0 0 st) 0 (task 0 0) st ∧ (st.cur.nat 5).toNat / 2 ^ 24 = 2
      ∧ (st.cur.nat 5).toNat % 2 ^ 24 + 1 ≤ (task 0 0).segSize 2 := by
  refine ⟨⟨rfl, rfl, rfl, rfl, rfl, rfl, rfl, rfl⟩, ?_⟩
  decide +kernel
theorem test_hyp_SegmentStores :
    let a := ((stp true).cur.nat 5 + (224 : BitVec 16).signExtend 32).toNat
    (stp true).cur.journal.length < 128 ∧ a / 2 ^ 24 ≤ 1 ∧ a % 2 ^ 24 + 16 ≤ (task 0 0).segSize (a / 2 ^ 24)
      ∧ a % 2 ^ 24 % 16 = 0 := by decide +kernel
theorem test_hyp_SegmentStores_back : (rx 0 0 (stp false)).task? (task 0 0).id = some (task 0 0)
    ∧ (task 0 0).place true true = .localMem := by decide +kernel

theorem test_hyp_AbsoluteLoads : (stp false).cur.logPos = (stp false).log.length ∧ windowOf 0x01FBFFFC = none
    ∧ freeArea 0x01FBFFFC = false ∧ regAt 0x01FBFFFC = none ∧ (rx 0 0 (stp false)).absWord 0x01FBFFFC = .ok 0 := by decide +kernel
theorem test_hyp_AbsoluteLoads_again :
    let st := { stp true with log := [⟨0x100, 5, none, none⟩] }
    Running (rx 0 0 st) 0 (task 0 0) st ∧ st.log[st.cur.logPos]? = some ⟨0x100, 5, none, none⟩ ∧ (st.resA.bind (·.fault)) = none
      ∧ windowOf 0x100 = none := ⟨⟨rfl, rfl, rfl, rfl, rfl, rfl, rfl, rfl⟩, rfl, rfl, by decide +kernel⟩
theorem test_hyp_AbsoluteOutputs : ((stp false).cur.outs.filter OutItem.abs).length < 32 ∧ (task 1 2).d.kind = 1
    ∧ windowOf 0x10000000 = some 0 ∧ ((task 1 2).d.que.find? fun x => x.1 == 40).map (·.2) = some false
    ∧ ((task 1 2).d.que.find? fun x => x.1 == 41).map (·.2) = some true ∧ 4 * 3 < (rx 1 2 (stp false)).qSize 41 := by
  decide +kernel
theorem test_hyp_ControlFlow : (task 0 0).isTarget 8 2 ∧ (task 0 0).isTarget 124 31 ∧ ¬(task 0 0).isTarget 128 32 := by
  refine ⟨⟨rfl, ?_, ?_⟩, ⟨rfl, ?_, ?_⟩, fun h => ?_⟩
  all_goals first | decide +kernel | exact absurd h.2.1 (by decide +kernel)
theorem test_hyp_SystemInstructions :
    let c := (stp false).cur
    let stop := c.pc + 1 + 1
    (c.nat 5).toNat < 32 ∧ stop ≤ (task 0 0).code.length ∧ longSeconds false 0 (task 0 0).code = []
      ∧ endsLoop ((task 0 0).code.getD (stop - 1) 0).toNat = false ∧ c.lc0 = none ∧ c.lc1 = none := by decide +kernel
theorem test_hyp_SystemInstructions_inner :
    let st := { stp false with cur := { pass with lc0 := some ⟨3, 1, 4⟩ } }
    Running (rx 0 0 st) 0 (task 0 0) st ∧ st.cur.lc1 = none ∧ ∃ o, st.cur.lc0 = some o ∧ st.cur.pc + 2 ≤ o.stop ∧ o.stop ≠ 3 :=
  ⟨⟨rfl, rfl, rfl, rfl, rfl, rfl, rfl, rfl⟩, rfl, _, rfl, by decide +kernel, by decide +kernel⟩
theorem test_hyp_PassEndsAndFaults : (stp false).debug = false ∧ (rx 0 0 (stp false)).slotsUsed 0 < 4
    ∧ ((stp true).resA.bind (·.fault)) = none ∧ (task 0 0).d.kind ≠ 1 ∧ longDefined 0x0D 0 0 = false := by decide +kernel
/-- The last place of an access of each size in STATE and in CONST, the first place beyond, and a misaligned one. -/
theorem test_hyp_PassEndsAndFaults_address :
    let p := { pass with g := pass.g.set 6 ⟨0x02000030, false, false⟩ }
    let ea := fun (g : Fin 32) (off : BitVec 16) => (p.nat g + off.signExtend 32).toNat
    let inside := fun (a n : Nat) => a / 2 ^ 24 ≤ 2 ∧ a % 2 ^ 24 + n ≤ (task 0 0).segSize (a / 2 ^ 24)
    inside (ea 5 0xEC) 4 ∧ ea 5 0xEC % 4 = 0 ∧ ¬inside (ea 5 0xED) 4 ∧ inside (ea 5 0xEB) 4 ∧ ea 5 0xEB % 4 ≠ 0
      ∧ inside (ea 6 0) 16 ∧ ea 6 0 % 16 = 0 ∧ ea 6 0 / 2 ^ 24 = 2 ∧ ¬inside (ea 6 1) 16 := by decide +kernel
theorem test_hyp_PassEndsAndFaults_word :
    let t := { task 0 0 with code := [0, 0, 0xFC000000] }
    t.code[(stp false).cur.pc]? = some 0xFC000000 ∧ (stp false).cur.pc ∉ longSeconds false 0 t.code
      ∧ bits (0xFC000000 : Word).toNat 26 6 = 0x3F ∧ ∀ w, ¬t.isTarget ((stp false).cur.nat 5).toNat w := by
  refine ⟨by decide +kernel, by decide +kernel, by decide +kernel, fun w h => ?_⟩
  have h1 : (16 : Int) = 4 * (w : Int) := h.1
  have h2 : w < 3 := h.2.1
  omega
theorem test_hyp_FrameAndQueueReads : (stp false).frame[0]? = some ⟨7, 1, 90⟩ ∧ (stp false).log.length < 32
    ∧ ((task 0 0).d.que.find? fun x => x.1 == 40).map (·.2) = some false ∧ 4 * 3 < (rx 0 0 (stp false)).qSize 40
    ∧ (assocGet (stp false).levels 40).getD 0 = 2 := by decide +kernel
theorem test_hyp_StepOutputs : (task 0 0).d.kind = 0 ∧ (task 0 0).d.cls = 0 ∧ 0 < (task 0 0).d.out.length
    ∧ (rx 0 0 (stp false)).hasSwitch ((task 0 0).d.out.getD 0 (0, false)) 5 = true ∧ 0 < (task 0 0).d.evt.length
    ∧ 0 < (task 0 0).d.tlm.length := by decide +kernel

/-! Events. -/

/-- A raise from island `i`. -/
def raised (src : BitVec 20) (i : Nat) : Raise := ⟨src, 3, 0, 0, 7, i, none, false, none, 0⟩

/-- A raise on its way, with so many entries in the pool. -/
def evS (n : Nat) : State :=
  let s := on mRUN
  { s with tbase := 50, ev := { s.ev with inFlight := [raised 0xB0 20], pool := List.replicate n (raised 0x10000 18) } }

theorem test_hyp_EventIntake : (evS 0).up = true
    ∧ (evS 0).ev.inFlight.find? (fun r => r.island == (20 : Fin 26).val) = some (raised 0xB0 20)
    ∧ (evS 0).poolRoom (raised 0xB0 20) = true := by decide +kernel
theorem test_hyp_EventIntake_full (r : Raise) : (evS 1024).poolRoom r = false := by
  have h : (evS 1024).ev.pool = List.replicate 1024 (raised 0x10000 18) := rfl
  rw [State.poolRoom, h, List.length_replicate]
  rfl
/-- A record in the pool, bound for the event queue of port 1 by target 1, with a group held and a window open. -/
def recS (mask : Bool) : State :=
  let s := ((on mRUN).p EVT.GRP_TGT 32 1).pb EVT.GRP_MASK 32 mask
  { s with tbase := 8, ev := { s.ev with pool := [raised 0x400 18], window := s.ev.window.set 0 (some 9), hold := s.ev.hold.set 5 (some 9) } }
theorem test_hyp_EventTimers : (recS false).ev.window[(0 : Fin 8)].isSome = true := by decide +kernel
theorem test_hyp_EventWriteSlots : chooseRecord (recS false).candidates = some (raised 0x400 18)
    ∧ (recS false).target (raised 0x400 18) = .queue 9 ∧ (recS false).qFull 9 = false := by decide +kernel
theorem test_hyp_EventWriteSlots_discard : chooseRecord (recS true).candidates = some (raised 0x400 18)
    ∧ (recS true).target (raised 0x400 18) = .discard ∧ (raised 0x400 18).num ≠ 1 := by decide +kernel
/-- The dedicated entry of a loss. -/
def lostS : State :=
  let s := (on mRUN).p EVT.GRP_TGT 0 2
  { s with tbase := 12, ev := { s.ev with lost := some (4, 11, false) } }
theorem test_hyp_EventWriteSlots_lost : chooseRecord lostS.candidates = some ⟨1, 0, 4, 0, 11, 18, none, false, none, 11⟩
    ∧ lostS.target ⟨1, 0, 4, 0, 11, 18, none, false, none, 11⟩ = .queue 10 ∧ lostS.qFull 10 = false := by decide +kernel

/-! Axes and command inputs. -/

/-- Axis 0 of bridge 0 and task 1, in state `st`, with the speed its task has reported. -/
def axS (st : Nat) (v : Word) : State :=
  let s := rx 0 0 (stp false)
  let s := { s with tasks := [{ task 0 0 with tlmLast := [(4, v)], evalDue := [0] }]
                    axes := s.axes.set 0 { s.axes[0] with startReq := true, feAt := some 5, reacqAt := some 6 } }
  (((((((s.pb CTL.AXCFG_EN 0 true).p CTL.AXCFG_TASK 0 1).p CTL.AXST_STATE 0 st).p CTL.AXTLM_SPD 0 4).pb CTL.AXTLM_SPDEN 0 true).p
    CTL.AXTIM_CONFN 0 3).p CTL.AXSPD_CATCHSPD 0 100).p CTL.AXSPD_STANDSPD 0 10

theorem test_hyp_AxisStarts :
    let s := axS 1 0x000A0000
    s.up = true ∧ s.gb CTL.AXCFG_EN 0 = true ∧ s.axState 0 = 1 ∧ s.mode = mRUN ∧ (s.axis 0).startReq = true
      ∧ (s.axTask 0).map (fun t => t.evalDue.contains 0) = some true ∧ s.axTlm 0 CTL.AXTLM_SPD = some 0x000A0000
      ∧ posFault (s.axPosAt 0).2 = false ∧ 0 < s.g CTL.AXTIM_CONFN 0 ∧ (s.axis 0).still < s.g CTL.AXTIM_CONFN 0
      ∧ s.axMay 0 9 = true := by decide +kernel
theorem test_hyp_AxisStarts_bounds : (axS 1 0x00640000).axTlm 0 CTL.AXTLM_SPD = some 0x00640000
    ∧ (axS 1 0x0009FFFF).axTlm 0 CTL.AXTLM_SPD = some 0x0009FFFF := by decide +kernel
/-- Axis 0 in state 4, left for state 6 at the next boundary, by a trigger of rank 3. -/
def pendS : State :=
  let s := axS 4 0
  { s with axes := s.axes.set 0 { s.axes[0] with rank := 3, shown := 6 } }
theorem test_hyp_AxisErrors : (axS 2 0).axIn 0 2 = true ∧ (axS 3 0).axIn 0 3 = true ∧ (axS 7 0).axIn 0 7 = true
    ∧ (axS 6 0).axIn 0 6 = true ∧ ((axS 6 0).axis 0).reacqAt.isSome = true ∧ ((axS 4 0).axis 0).feAt.isSome = true
    ∧ (axS 2 0).axMay 0 4 = true ∧ pendS.axMay 0 4 = false ∧ pendS.axMay 0 3 = false ∧ pendS.axIn 0 6 = true
    ∧ pendS.axState 0 ≠ 6 := by decide +kernel
theorem test_hyp_AxisErrors_steps : ((axS 5 0).p CTL.AXCFG_ALT 0 2).g CTL.AXCFG_ALT 0 ≠ 0
    ∧ ((axS 5 0).pb CTL.AXCFG_SS1 0 true).gb CTL.AXCFG_SS1 0 = true ∧ (axS 5 0).gb CTL.AXST_ALTACT 0 = false := by
  decide +kernel
theorem test_hyp_CommandInputs : (on mRUN).up = true ∧ ((on mRUN).p CTL.CMDCFG_MODE 7 1).g CTL.CMDCFG_MODE 7 = 1
    ∧ ((on mRUN).p CTL.CMDCFG_MODE 7 2).g CTL.CMDCFG_MODE 7 = 2 ∧ ((on mRUN).p CTL.CMDCFG_MODE 7 3).g CTL.CMDCFG_MODE 7 = 3
    ∧ (rndDiv 200000000 (4000 : Nat)).toNat = 50000 ∧ (rndDiv 200000000 (3052 : Nat)).toNat = 65531 := by decide +kernel

/-! Gate channels, safe states and links. -/

/-- Bridge 0 in use with its six channels, driven by task 1. -/
def brS (m : Nat) : State :=
  let s := (rx 0 0 (stp false)).p SYS.MODE_CUR 0 m
  let s := (List.range 6).foldl (fun (s : State) n => s.pb GATE.CH_EN n true) (s.p GATE.BRCFG_TOPO 0 1)
  (s.p FBRK.BRXO_XOVER 0 100).p FBRK.BRXO_XHYS 0 10

theorem test_hyp_UpdatePoint : (brS mRUN).up = true ∧ (brS mRUN).isUnit 0 = true ∧ (brS mRUN).unitNormal 0 = true
    ∧ ((brS mRUN).driver 0).map (·.d.upd) = some 0 ∧ (brS mRUN).toReady = false ∧ (brS mRUN).g FBRK.BRST_PAT 0 ≠ 6 := by
  decide +kernel
theorem test_hyp_UpdatePoint_held :
    let s := (brS mRUN).pb PYR.STAT_DBGDIV 0 true
    s.dbgHeld 0 = true ∧ s.unitNormal 0 = false ∧ s.demanded 0 = false ∧ s.forcedSto 0 = false := by decide +kernel
theorem test_hyp_UpdatePoint_forced :
    let s := { brS mRUN with units := (brS mRUN).units.set 0 { (brS mRUN).units[0] with stoIn := true } }
    s.isUnit 0 = true ∧ s.forcedSto 0 = true := by decide +kernel
theorem test_hyp_SwitchFaults : (brS mRUN).gb GATE.CH_EN 5 = true ∧ (brS mRUN).topo (brOf 5) ≠ 0 := by decide +kernel
/-- A latched switch whose class is pending. -/
def fltS : State :=
  let s := State.putClass 5 1 (brS mRUN)
  { s with chans := s.chans.set 5 { s.chans[5] with gflt := true } }
theorem test_hyp_SwitchFaults_class : fltS.chans[(5 : Fin 48)].gflt = true ∧ fltS.swClass 5 = 1 := by decide +kernel
/-- Comparator 31 mapped to phase 2 of bridge 0. -/
def tripS : State :=
  let s := (((brS mRUN).pb FBRK.OCMAP_EN 31 true).p FBRK.OCMAP_PH 31 2)
  let s := (s.pb CMP.CFG_EN 31 true).p CMP.TH_HI 31 3000
  { s with comp := s.comp.set 31 (Comp.start false) }
theorem test_hyp_ProtectionTrips : ∀ v ∈ [(3001 * 65536 : Int), 3000 * 65536 + 1],
    let old := tripS.compSide 31 true
    let new := old.feed (tripS.compNM 31) (tripS.compClass 31 true v)
    tripS.up = true ∧ tripS.gb CMP.CFG_EN 31 = true ∧ tripS.gb FBRK.OCMAP_EN 31 = true
    ∧ tripS.topo (tripS.g FBRK.OCMAP_BR 31) = 1 ∧ tripS.g FBRK.OCMAP_PH 31 < 3
    ∧ tripS.g FBRK.BRST_PAT (tripS.g FBRK.OCMAP_BR 31) ≠ 6 ∧ new.out = true ∧ new.left = true
    ∧ (old.out = true → old.left = false) := by decide +kernel
/-- The protection path of channel 63 mapped to phase 2 of bridge 0, filled and inside its thresholds. -/
def dtripS : State :=
  let s := (((brS mRUN).pb FBRK.OCMAP_EN 95 true).p FBRK.OCMAP_PH 95 2).pb DSM.CH_EN 63 true
  { (s.pb DSM.CLK_EN 0 true).p DSM.PTH_HI 63 20 with tbase := 10000 }
theorem test_hyp_ProtectionTrips_dsm : dtripS.dsmRuns 63 = true ∧ dtripS.protFilled 63 = true ∧ dtripS.gb FBRK.OCMAP_EN 95 = true
    ∧ dtripS.topo (dtripS.g FBRK.OCMAP_BR 95) = 1 ∧ dtripS.g FBRK.OCMAP_PH 95 < 3
    ∧ dtripS.g FBRK.BRST_PAT (dtripS.g FBRK.OCMAP_BR 95) ≠ 6 ∧ dtripS.srcLeft 95 true = false
    ∧ dtripS.gs DSM.PTH_HI 63 ≤ 20 := by decide +kernel
/-- Bridge 0 under a demand in pattern `p`, its speed `v` from port 0. -/
def demS (p : Nat) (v : Word) : State :=
  let s := ((((brS mRUN).pb FBRK.BRST_DEM 0 true).p FBRK.BRST_PAT 0 p).pb FBRK.BRSS_SPDSRC 0 true).setWord POS.SPEED 0 v
  let s := s.p FBRK.BRSS_MODE 0 0
  let s := s.pb POS.STAT_SPD_VALID 0 true
  { s with units := s.units.set 0 { s.units[0] with ascAt := some (9, BitVec.ofNat 3 p) }, tbase := 30 }
theorem test_hyp_SafeStateTimes :
    let s := demS 3 0x0059FFFF
    s.units[(0 : Fin 8)].ascAt = some (9, 3) ∧ s.demanded 0 = true ∧ s.forcedSto 0 = false ∧ s.mode = mRUN ∧ s.isUnit 0 = true
      ∧ s.gb FBRK.BRST_BRKARM 0 = false ∧ s.g FBRK.BRSS_MODE 0 = 0 ∧ s.choiceSpeed 0 = some 0x0059FFFF
      ∧ s.g FBRK.BRST_PAT 0 = 3 ∧ absI 0x0059FFFF < ((s.g FBRK.BRXO_XOVER 0 : Int) - s.g FBRK.BRXO_XHYS 0) * 65536 := by
  decide +kernel
theorem test_hyp_SafeStateTimes_up :
    let s := demS 2 0x006E0000
    s.choiceSpeed 0 = some 0x006E0000 ∧ s.g FBRK.BRST_PAT 0 = 2 ∧ (s.ascOrder 0).find? (s.ascUsable 0) = some 3
      ∧ ((s.g FBRK.BRXO_XOVER 0 : Int) + s.g FBRK.BRXO_XHYS 0) * 65536 ≤ absI 0x006E0000 := by decide +kernel

/-- Link 3 in use, with chopper mode `m`, at `v` codes of VDC16. -/
def lkS (m : Nat) (v : Int) : State :=
  let s := ((((((on mRUN).pb DCL.CFG_EN 3 true).p DCL.BRK_MODE 3 m).p DCL.VTH_VON 3 100).p DCL.VTH_VOFF 3 90).p DCL.OV_VOV 3 200).p
    DCL.OV_VSAFE 3 20
  { s with links := s.links.set 3 { s.links[3] with vdc := ofInt (v * 65536), valid := true, period := some 0 } }
theorem test_hyp_DcLinkSamples :
    let s := lkS 1 0
    s.up = true ∧ s.gb DCL.CFG_EN 3 = true ∧ (199 : Int) < s.g DCL.OV_VOV 3 ∧ s.g DCL.OV_VSAFE 3 < (21 : Int)
      ∧ s.g DCL.VTH_VOFF 3 < s.g DCL.VTH_VON 3 ∧ s.g DCL.BRK_MODE 3 = 1 ∧ s.brkAllowed = true
      ∧ s.links[(3 : Fin 4)].ovForced = false := by decide +kernel
/-- A discharge of link 3 that began at 100 codes. -/
def dsS (d : Disch) : State := { lkS 1 60 with links := (lkS 1 60).links.set 3 { (lkS 1 60).links[3] with dsc := some d } }
theorem test_hyp_ChoppersAndDischarges : (lkS 2 100).peakMode 3 = true ∧ (lkS 2 100).brkAllowed = true
    ∧ (lkS 2 100).links[(3 : Fin 4)].period = some 0 := by decide +kernel
theorem test_hyp_ChoppersAndDischarges_checks :
    let s := (dsS ⟨0, 100, false, false, false, some 4⟩).p DCL.DSC_KCHK 3 128
    s.links[(3 : Fin 4)].dsc = some ⟨0, 100, false, false, false, some 4⟩
      ∧ (100 : Int) * s.g DCL.DSC_KCHK 3 < s.vdc16 3 * 256 ∧ s.gb DCL.DSC_WEN 3 = false := by decide +kernel


/-! Sensing. -/

/-- Channel 63 runs on clock 0, order 3 and ratio 16. -/
def dsmS : State :=
  let s := (((on mRUN).pb DSM.CH_EN 63 true).pb DSM.CLK_EN 0 true).p DSM.RTOL_TOL 31 0x0CCD
  ((s.pb DSM.RGRP_EN 31 true).p DSM.RGRP_A 31 63).p DSM.RGRP_B 31 62
theorem test_hyp_SampleOutputs : dsmS.dsmRuns (63 : Fin 64) = true ∧ 4096 ≤ dsmS.dsmN 63 ^ dsmS.dsmK 63
    ∧ dsmS.dsm[(63 : Fin 64)].stuck = false ∧ dsmS.protFilled 63 = false := by decide +kernel
theorem test_hyp_SampleOutputs_filled :
    let s := { dsmS.p DSM.PTH_HI 63 20 with tbase := 10000 }
    s.dsmRuns (63 : Fin 64) = true ∧ s.protFilled 63 = true ∧ s.gs DSM.PTH_HI 63 ≤ (32 : Int)
      ∧ (18 : Int) < s.gs DSM.PTH_HI 63 - s.g DSM.PTH_PHYS 63 ∧ s.gs DSM.PTH_LO 63 + s.g DSM.PTH_PHYS 63 < (32 : Int) := by
  decide +kernel
/-- Converter 2 in mode 1, paired with converter 3, with timer triggers. -/
def adcS : State :=
  let s := (((on mRUN).p ADC.CFG_MODE 2 1).pb ADC.CFG_PAIR 2 true).p ADC.TRG_SRC 2 1
  s.p ADC.TRG_SRC 3 1
theorem test_hyp_SampleOutputs_converters : adcS.up = true ∧ adcS.convMode (2 : Fin 24) ≠ 0 ∧ adcS.convMode (3 : Fin 24) ≠ 0
    ∧ adcS.g ADC.TRG_SRC (2 : Fin 24) ≠ 0 ∧ (State.capture 2 adcS).2.isSome = true := by decide +kernel
/-- A group of channel 63 and converter 2, both valid. -/
def plS : State :=
  let s := (((dsmS.pb DSM.STAT_VALID 63 true).p DSM.RGRP_B 31 66).p ADC.CFG_MODE 2 1)
  { s with conv := s.conv.set 2 { s.conv[2] with outs := 9 } }
theorem test_hyp_Plausibility : plS.memberSkipped 63 = false ∧ plS.captureAt (memberEntry 63) plS.tbase = none
    ∧ plS.gb DSM.STAT_VALID 63 = true ∧ plS.memberSkipped 66 = false ∧ plS.captureAt (memberEntry 66) plS.tbase = none
    ∧ (State.capture (66 - 64) plS).2.isSome = true ∧ plS.convValid (66 - 64) = true := by decide +kernel
/-- The values of the two members of that group. -/
def plV (a b : Option Int) : Option Int × Option Int :=
  let x := State.memberCapture (plS.g DSM.RGRP_A 31) a plS
  (x.2, (State.memberCapture (plS.g DSM.RGRP_B 31) b x.1).2)
theorem test_hyp_Plausibility_group : plS.up = true ∧ plS.gb DSM.RGRP_EN (31 : Fin 32) = true
    ∧ plS.gb DSM.RGRP_TYPE 31 = false ∧ (plV (some 5) (some 6)).1.isSome = true ∧ (plV (some 5) (some 6)).2.isSome = true
    ∧ (plV (some 5) none).2 = none
    ∧ absI ((0x0CCD0000 : Int) - 0) ≤ (plS.g DSM.RTOL_TOL 31 : Int) * 65536
    ∧ ¬absI ((0x0CCD0001 : Int) - 0) ≤ (plS.g DSM.RTOL_TOL 31 : Int) * 65536 := by decide +kernel
/-- Comparator 31 in use, and the readback. -/
def cmpS : State := ((((on mRUN).pb CMP.CFG_EN 31 true).pb CMP.RDBK_EN 0 true).p CMP.TH_HI 31 3000).p CMP.TH_LO 31 100
theorem test_hyp_Comparators : cmpS.up = true ∧ cmpS.gb CMP.CFG_EN (31 : Fin 32) = true ∧ cmpS.gb CMP.RDBK_EN = true
    ∧ cmpS.rdbkSlice = false
    ∧ ∀ high : Bool, ((cmpS.compSide 31 high).feed (cmpS.compNM 31) (cmpS.compClass 31 high (1000 * 65536))).out = false := by
  decide +kernel
theorem test_hyp_Comparators_filter : ∀ b : Bool,
    let c : CompSide := ⟨!b, true, some b, [b, b], 0, false⟩
    c.left = true ∧ 3 ≤ c.hist.length + 1 ∧ (c.hist.take (3 - 1)).all (· == b) = true := by decide +kernel

/-! Position. -/

/-- Port 7 in mode `m`, in state `r`. -/
def posS (m : Nat) (r : PosPort) : State :=
  let s := ((on mRUN).pb POS.CFG_EN 7 true).p POS.CFG_MODE 7 m
  { s with pos := s.pos.set 7 r, tbase := 1000 }
theorem test_hyp_PositionCounts : (posS 1 PosPort.init).posMode (7 : Fin 8) = 1 ∧ (posS 1 PosPort.init).g POS.CFG_IDX (7 : Fin 8) = 0
    ∧ (posS 2 PosPort.init).posMode (7 : Fin 8) = 2 ∧ (quadPos true false + 4 - quadPos false false) % 4 = 1
    ∧ (quadPos false true + 4 - quadPos false false) % 4 = 3 ∧ (quadPos true true + 4 - quadPos false false) % 4 = 2
    ∧ hallSector (0 : Fin 8) = none ∧ hallSector (7 : Fin 8) = none ∧ hallSector (1 : Fin 8) = some 0 := by decide +kernel
theorem test_hyp_PositionCounts_sector : ((posS 2 { PosPort.init with sector := some 5 }).port (7 : Fin 8)).sector = some 5
    ∧ (0 + 6 - 5) % 6 = 1 ∧ (4 + 6 - 5) % 6 = 5 := by decide +kernel
theorem test_hyp_PositionErrors : (posS 1 PosPort.init).wireChecked (7 : Fin 8) (1 : Fin 3) = true
    ∧ (posS 3 PosPort.init).wireChecked (7 : Fin 8) (1 : Fin 3) = true ∧ (posS 1 PosPort.init).posMode (7 : Fin 8) ≠ 0
    ∧ (posS 1 PosPort.init).posMode (7 : Fin 8) ≠ 5 := by decide +kernel
/-- A frame with and without its start bit. -/
def serF (st : Bool) : SerialFrame := ⟨st, 0, false, true, true, 0⟩
theorem test_hyp_SerialFrames_bad :
    let s := posS 4 { PosPort.init with inFrame := some 990 }
    (s.port (7 : Fin 8)).inFrame.isSome = true ∧ (s.frameErrs 7 (serF false)).1 = true ∧ (s.frameErrs 7 (serF true)).2.1 = true := by
  decide +kernel
theorem test_hyp_SerialFrames : (posS 3 PosPort.init).posMode (7 : Fin 8) = 3 ∧ (posS 4 PosPort.init).posMode (7 : Fin 8) = 4
    ∧ ((posS 3 PosPort.init).port (7 : Fin 8)).inFrame = none ∧ (posS 3 PosPort.init).bgs.slices.contains (.port 7) = false := by
  decide +kernel
/-- Port 7 with a frame in flight, and perhaps data before it. -/
def serS (d : Option Nat) : State := posS 3 { PosPort.init with inFrame := some 990, lastData := d, cntSet := d.isSome }
theorem test_hyp_SerialFrames_data : ((serS none).port (7 : Fin 8)).inFrame = some 990 ∧ (serS none).gb POS.SER_PAR (7 : Fin 8) = false
    ∧ (serS none).gb POS.SER_GRAY (7 : Fin 8) = false ∧ ((serS none).port (7 : Fin 8)).lastData = none
    ∧ ((serS (some 5000)).port (7 : Fin 8)).lastData = some 5000
    ∧ 4 * (sext 24 (6024 + 2 ^ 24 - 5000 % 2 ^ 24)).natAbs ≤ (serS (some 5000)).g POS.REV_CPR 7 + 1 := by decide +kernel
/-- Emulator 3 in use, with a backlog. -/
def emuS : State :=
  let s := ((on mRUN).pb POS.EMUCFG_EN 3 true).p POS.EMUCFG_MINGAP 3 5
  { s with emu := s.emu.set 3 { s.emu[3] with backlog := -2, lastEdge := 10 }, tbase := 15 }
theorem test_hyp_LoopsAndEmulators : (posS 5 PosPort.init).posMode (7 : Fin 8) = 5 ∧ emuS.up = true
    ∧ emuS.gb POS.EMUCFG_EN (3 : Fin 4) = true ∧ emuS.gb POS.EMUST_HOLD (3 : Fin 4) = false
    ∧ emuS.emu[(3 : Fin 4)].backlog ≠ 0 ∧ emuS.emu[(3 : Fin 4)].lastEdge + emuS.g POS.EMUCFG_MINGAP (3 : Fin 4) ≤ emuS.tbase := by
  decide +kernel

/-! Steps and verdicts. -/

/-- Task 1 alone, as `x`. -/
def tkS (x : Task) : State := { on mRUN with tasks := [x], tbase := 20000 }
theorem test_hyp_PeriodBoundaries : (tkS (task 0 0)).up = true ∧ (tkS (task 0 0)).task? (1 : Fin 256) = some (task 0 0)
    ∧ (task 0 0).retire = none ∧ (tkS (task 0 0)).axesOfTask (1 : Fin 256) = [] ∧ (task 0 0).reqs = []
    ∧ ((tkS (task 0 0)).eng (task 0 0).eng).halted = false ∧ (tkS (task 0 0)).stepOf (task 0 0) = none
    ∧ (task 0 0).timedOut ≠ some (tkS (task 0 0)).tbase := by decide +kernel
/-- Task 1 at its boundary, waiting for its frame. -/
def waiting : Task := { task 0 0 with wait := some ⟨20000, [none], [false], [false], [(0, 0)]⟩ }
theorem test_hyp_StepsStart : (tkS waiting).task? (1 : Fin 256) = some waiting
    ∧ ((tkS waiting).frameEntry waiting ⟨20000, [none], [false], [false], [(0, 0)]⟩ [some 9] false 0).isSome = true
    ∧ ((tkS waiting).frameEntry waiting ⟨20000, [none], [false], [false], [(0, 0)]⟩ [none] true 0).isSome = true
    ∧ ((tkS waiting).frameEntry waiting ⟨20000, [none], [false], [false], [(0, 0)]⟩ [none] false 0).isSome = false := by
  decide +kernel
/-- Task 1 in a move to engine 5. -/
def moving (copied : Bool) : Task := { task 0 0 with move := some ⟨5, copied⟩ }
theorem test_hyp_Moves : (tkS (moving false)).task? (1 : Fin 256) = some (moving false) ∧ (moving false).d.cls ≠ 2
    ∧ (tkS (moving true)).task? (1 : Fin 256) = some (moving true) ∧ (tkS (moving true)).stepOf (moving true) = none
    ∧ (tkS (moving true)).copiesMatch (moving true) = true := by decide +kernel
/-- A step of task 1 whose passes ended with these outputs. -/
def judged (a b : List OutItem) : Step :=
  { stp true with cur := { pass with ended := true, outs := b }, resA := some { pass with ended := true, outs := a }, judged := true
                  tick := 100, period := 20000 }
theorem test_hyp_StepsAccepted :
    let st := judged [] []
    let s := rx 0 0 st
    s.up = true ∧ s.nextJudged (0 : Fin 16) = some st ∧ s.firstToJudge (0 : Fin 16) st.endStamp = true
      ∧ s.task? st.task = some (task 0 0) ∧ [(⟨true, true, true⟩ : BufLine), ⟨true, false, false⟩].any badLine = false ∧ st.mismatch = none
      ∧ (st.resA.getD st.cur).wsig = st.cur.wsig ∧ (task 0 0).d.kind = 0 ∧ s.missed (task 0 0) st = false := by
  decide +kernel
/-- A step of engine 5 ends after one of engine 0. -/
theorem test_hyp_StepsAccepted_turn :
    let s := rx 0 0 (judged [] [])
    let y := { judged [] [] with endStamp := 7 }
    let s := { s with engines := s.engines.set 5 { s.engines[5] with steps := [y] } }
    s.nextJudged (5 : Fin 16) = some y ∧ s.firstToJudge (5 : Fin 16) y.endStamp = false := by decide +kernel
theorem test_hyp_StepsAccepted_pwm :
    let st := judged [.pwm3 0 1 2 3] [.pwm3 0 1 2 3]
    (rx 0 0 st).mode = mRUN ∧ st.mismatch = none ∧ st.late = false ∧ (task 0 0).groupBr 0 < 8
      ∧ (rx 0 0 st).g FBRK.BRST_PAT ((rx 0 0 st).unitOf ((task 0 0).groupBr 0)) ≠ 6 := by decide +kernel
theorem test_hyp_StepsRejected :
    let st := judged [.pwm3 0 1 2 3] [.pwm3 0 1 2 4]
    (rx 0 0 st).up = true ∧ (rx 0 0 st).nextJudged (0 : Fin 16) = some st ∧ (rx 0 0 st).firstToJudge (0 : Fin 16) st.endStamp = true
      ∧ st.mismatch = some (2, 0)
      ∧ st.cur.fault = none ∧ [(⟨false, false, false⟩ : BufLine)].any badLine = true
      ∧ ((rx 0 0 (stp true)).eng 0).halted = false
      ∧ ((rx 0 0 (stp true)).eng 0).steps.find? (fun z => z.task == (1 : Fin 256).val && !z.judged && !z.debug) = some (stp true) := by
  decide +kernel
theorem test_hyp_StepsRejected_canary : (on mRUN).up = true ∧ (on mRUN).mode = mRUN := by decide +kernel

/-! The host ports. -/

theorem test_hyp_ready : (on mCONFIGURE).Ready 0 ∧ (on mRUN).Ready 3 := by
  refine ⟨⟨?_, ?_, ?_, ?_, ?_⟩, ⟨?_, ?_, ?_, ?_, ?_⟩⟩ <;> decide +kernel
/-- A pending calibration of port 1, and a finished one, with their tokens. -/
def opS (total : Nat) : State :=
  let s := on mCONFIGURE
  { s with ops := [{ LongOp.init 1 (.cal 2) total with token := 0x40420001, done := 3 }]
           ports := s.ports.set 1 { s.ports[1] with finished := [⟨0x40420000, 1, eOK, 24, 24⟩] } }
theorem test_hyp_HostReadsAndWrites :
    let s := on mREADY
    (∀ i < 4, (s.taken 0 2 7 0x01FBFFF0 [4]).readCode 0 (0x01FBFFF0 + 4 * i) = eOK)
      ∧ (∀ i < 4, freeArea (0x01FBFFF0 + 4 * i) = false)
      ∧ (s.taken 0 3 7 0x01FBFFF8 [1, 2]).writeCode 0 0x01FBFFF8 [1, 2] = eOK
      ∧ (s.taken 0 3 7 0x01FBFFF6 [1, 2]).writeCode 0 0x01FBFFF6 [1, 2] ≠ eOK
      ∧ doorbellCode 3 0x0FF4FFFF = eOK ∧ bits (0x0FF4FFFF : Word).toNat 28 4 = 0 ∧ s.mode ≠ mBOOT := by decide +kernel
theorem test_hyp_HostReadsAndWrites_ops : ((opS 56).pendingOp 0x40420001).isSome = true ∧ (opS 56).pendingOp 0x40420000 = none
    ∧ ((opS 56).finishedOp 0x40420000).isSome = true := by
  decide +kernel
theorem test_hyp_noStep : (on mRUN).noStep ∧ (on mRUN).noDebug := by
  refine ⟨?_, ?_⟩
  · unfold State.noStep; decide +kernel
  · unfold State.noDebug; decide +kernel
/-- A subscription of signal 5. -/
def sig5 : Signal := ⟨5, 7, 0, 0⟩
/-- A stream with its last place free, or with one signal. -/
def subS (l : List Signal) : State := { on mREADY with streams := (on mREADY).streams.set 3 ⟨some 0, l⟩ }
theorem test_hyp_HostStagingAndStreams :
    let s := on mCONFIGURE
    let pl : List Word := [0x49384A4B, 0x00000001, 5, 0x7FFC00]
    s.gb HOST.RIGHTS_IMAGE 0 = true ∧ s.barred true = false ∧ s.staging = none ∧ s.committing = false
      ∧ (pl.getD 3 0).toNat = 0x7FFC00 ∧ (s.taken 0 0x10 7 0 pl).stageFit (0x400 + 0x7FFC00) = some 0 := by decide +kernel
theorem test_hyp_HostStagingAndStreams_sub : (subS [sig5]).gb HOST.RIGHTS_TELEM 0 = true
    ∧ ((subS [sig5]).stream 3).owner = some 0 ∧ (subS [sig5]).sigDefined 63 = true
    ∧ ((subS [sig5]).stream 3).signals.length < 256 ∧ bits (0x00300005 : Word).toNat 20 2 = 3
    ∧ bits (0x00300005 : Word).toNat 22 10 = 0 := by decide +kernel

/-- Bytes from an address on, zeros left out. -/
def cells (a : Nat) (l : List Byte) : List Host.Cell :=
  ((List.range l.length).map fun i => (a + i, l.getD i 0)).filter fun x => x.2 != 0

/-- An image whose one task is of class S, with a period of 1 ms, in bank A. -/
def imgA : List Host.Cell :=
  cells 0x2000000C (leBytes 4 0x800)
  ++ cells 0x20000400 (leBytes 4 0x42384A4B ++ leBytes 4 1 ++ leBytes 4 0x200 ++ leBytes 4 1)
  ++ cells 0x20000600 (leBytes 4 0x200 ++ leBytes 4 (2 ^ 30 + 1000) ++ leBytes 4 16 ++ leBytes 4 0 ++ leBytes 4 0x400
    ++ leBytes 4 4 ++ leBytes 4 0x420 ++ leBytes 4 1 ++ leBytes 4 0 ++ leBytes 4 0x0808)
/-- That image booted, one engine to run its task, and a SPARE one. -/
def imgS : State :=
  let s := (((on mREADY).p SYS.BOOT_IMG 0 1).p PLC.ESTAT_STATE 0 eACTIVE).p PLC.ESTAT_STATE 15 eSPARE
  { s with nv := { s.nv with bytes := imgA } }
/-- Its descriptor. -/
def admitted : List Byte := match (imgS.taken 1 0x20 7 0 [5]).findDescr 0 with
  | .ok l => l
  | .error _ => []
theorem test_hyp_HostTasks_admit :
    let w := imgS.taken 1 0x20 7 0 [5]
    imgS.barred true = false ∧ bits (0 : Word).toNat 16 16 = 0 ∧ admitted.length = 512 ∧ w.admitCode 1 admitted 0 1 = eOK
      ∧ (w.admitTask 1 (descrOf admitted) [5]).toOption.map (·.1) = some 0 := by decide +kernel
theorem test_hyp_HostTasks_descr : (imgS.taken 1 0x20 7 0 [5]).findDescr 0 = .ok admitted := rfl
theorem test_hyp_HostTasks :
    let s := tkS (task 0 0)
    s.task? (bits (0x00000001 : Word).toNat 0 8) = some (task 0 0) ∧ bits (0x00000001 : Word).toNat 8 24 = 0
      ∧ (∀ b ∈ (task 0 0).d.commands, s.owns 0 b = true) ∧ (s.p FBRK.BRST_PAT 0 2).retireUnsafe (task 0 0) = false
      ∧ (task 0 0).retire = none ∧ bits (0x003F0001 : Word).toNat 9 7 = 0 ∧ bits (0x003F0001 : Word).toNat 16 16 = 63
      ∧ mailboxFits (task 0 0) 63 1 = true ∧ mailboxFits (task 0 0) 0 64 = true ∧ s.axisWords 1 63 1 = false
      ∧ s.barred false = false := by decide +kernel

/-- A staging buffer of port 0, and a session of it that has been confirmed. -/
def opnS (unlock conf : Bool) : State :=
  let s := on mCONFIGURE
  { s with staging := some ⟨0, 0x1000, 0x400⟩, safe := { s.safe with sess := some ⟨0xBEEF, 5, List.replicate 12 7, 0, unlock, conf, 0, 0⟩ } }
theorem test_hyp_LongOperationsBegin :
    let s := opnS false true
    s.mode = mCONFIGURE ∧ s.nvFailed = false ∧ s.gb HOST.RIGHTS_SAFEOWN 0 = true ∧ s.gb NVS.KEYSTAT_CLOSED = false
      ∧ s.gb HOST.RIGHTS_IMAGE 0 = true ∧ s.limits 0 .imgCommit = eOK ∧ s.limits 0 (.nvCommit true) = eOK
      ∧ s.limits 0 (.nvCommit false) = eOK ∧ s.userOk = true ∧ s.nextSeq true < 2 ^ 32 ∧ s.nextSeq false < 2 ^ 32
      ∧ bits (0x312 : Word).toNat 0 5 = 18 ∧ (0x312 : Word) &&& 0xFFFFFCE0 = 0 ∧ (0x312 : Word).toNat.testBit 9 = true
      ∧ s.limits 0 (.bist 18 true true) = eOK ∧ s.fuses.burned.length + (s.unburned 18).length ≤ 512 ∧ s.scrapped = false ∧ bits (0x119 : Word).toNat 0 5 = 25
      ∧ (0x119 : Word) &&& 0xFFFFFCE0 = 0 ∧ s.limits 0 (.cal 2) = eOK := by decide +kernel
theorem test_hyp_LongOperationsBegin_safe : ∀ u : Bool,
    ((opnS u true).taken 0 0x52 7 0xBEEF []).commitCode 0 ⟨0xBEEF, 5, List.replicate 12 7, 0, u, true, 0, 0⟩ = (eOK, false) := by
  decide +kernel
theorem test_hyp_LongOperationsRun : ∀ n ∈ [5, 4],
    (opS n).pendingOp 0x40420001 = some { LongOp.init 1 (.cal 2) n with token := 0x40420001, done := 3 } := by decide +kernel
/-- Mode `m` with an image, a locked configuration, and restarts permitted. -/
def modS (m : Nat) : State := (((on m).p SYS.BOOT_IMG 0 1).pb SAFE.STAT_LOCKED 0 true).pb SAFE.STAT_RSTOK 0 true
/-- The transitions that MODE_REQ asks for, by mode and target. -/
def modOk (m : Nat) (a : Word) : Bool :=
  let s := modS m
  let w := s.taken 0 0x30 7 a []
  s.mode == m && !s.toReady && w.modeCode 0 (hostFrame 0x30 7 a []) == eOK && s.bootedBank.isSome && !s.stoDemand
    && !s.gb SAFE.STAT_STOFLT && w.protReady && !w.causePresent && w.allSto && !s.gb PYR.STAT_DBGDIV && w.slowEnough
    && s.pwr.entering == .idle && !w.sleepBarred && !w.watchTpo && !w.watchActive && s.tasks.all fun x => x.d.kind != 1
theorem test_hyp_ModeRequests : ∀ x ∈ [(mCONFIGURE, mREADY), (mREADY, mRUN), (mREADY, mCONFIGURE), (mSAFE, mCONFIGURE), (mSAFE, mREADY),
    (mRUN, mREADY), (mCONFIGURE, mSLEEP), (mREADY, mSLEEP), (mSAFE, mSLEEP), (mRUN, mSAFE)], modOk x.1 (BitVec.ofNat 32 x.2) = true := by
  decide +kernel
/-- A RUN to READY that port 2 waits for, with its bridge off. -/
def leaveS : State :=
  let s := brS mRUN
  { s with ports := s.ports.set 2 { s.ports[2] with busy := some (hostFrame 0x30 7 3 [], .runToReady) }
           units := s.units.set 0 { s.units[0] with stopped := true } }
theorem test_hyp_ModeRequests_done : leaveS.toReady = true ∧ leaveS.allUnits = [0]
    ∧ (∀ k ∈ leaveS.allUnits, (at' leaveS.units k UnitSt.none).stopped = true) ∧ ∀ m : Fin 48, leaveS.padCmd m = false := by
  decide +kernel
theorem test_hyp_SafetySessions :
    let s := on mCONFIGURE
    s.mode = mCONFIGURE ∧ s.gb HOST.RIGHTS_SAFEOWN 0 = true ∧ s.safe.sess = none ∧ s.safe.sessBar ≤ s.tbase
      ∧ s.gb SAFE.STAT_LOCKED = false ∧ (modS mCONFIGURE).gb SAFE.STAT_LOCKED = true ∧ s.gb NVS.KEYSTAT_ZERO = false
      ∧ ([1, 0, 0, 0, 0, 0, 0, 0] : List Word).any (· != 0) = true := by decide +kernel
theorem test_hyp_SafetySessions_confirm :
    let s := opnS false false
    s.safe.sess = some ⟨0xBEEF, 5, List.replicate 12 7, 0, false, false, 0, 0⟩
      ∧ (0x17DDE000 : BitVec 29).toNat = (0xBEEF : BitVec 16).toNat * 2 ^ 13 ∧ s.gb HOST.RIGHTS_SAFEOWN 1 = false
      ∧ s.confirms 1 ⟨0xBEEF, 5, List.replicate 12 7, 0, false, false, 0, 0⟩ (List.replicate 12 7) = true
      ∧ s.confirms 1 ⟨0xBEEF, 5, List.replicate 12 7, 0, false, false, 2, 0⟩ (List.replicate 12 8) = false := by decide +kernel
/-- Two answers and a record wait at port 1; port 3 is carried by MAC 1. -/
def hstS : State :=
  let s := ((on mRUN).pb ETH.HBIND_EN 3 true).p ETH.HBIND_MAC 3 1
  let s := ((s.pb ETH.CFG_EN 1 true).pb QUE.QCFG_EN 19 true).pb ETH.CFG_PROMISC 1 true
  let l : List Resp := [⟨1, 2, eOK, [5, 6]⟩, ⟨1, 3, eOK, []⟩]
  { s.setWord QUE.QTAIL 9 1 with ports := (s.ports.set 1 { s.ports[1] with resps := l }).set 3 { s.ports[3] with resps := l } }
/-- A frame of some other type. -/
def ethF : EthFrame := ⟨List.replicate 12 0 ++ [0x12, 0x34] ++ List.replicate 46 1, true, false, 9⟩
theorem test_hyp_HostTransport : hstS.spiUp = true ∧ (0x5C : BitVec 8) ∉ ([0x5A, 0x5B, 0xA5, 0xA6, 0xE5, 0xE6] : List (BitVec 8))
    ∧ frameCode [0x01070000] false ≠ eOK ∧ frameCode [0x01070000, 0, 0] false ≠ eOK ∧ hstS.spiReads = true
    ∧ (hstS.ports[(1 : Fin 4)]).ovf = none ∧ hstS.ports[(1 : Fin 4)].resps.length = 2 ∧ hstS.qLevel 9 = 1
    ∧ hstS.gb ETH.HBIND_EN 3 = true ∧ hstS.ethOn (hstS.g ETH.HBIND_MAC 3) = true ∧ hstS.ports[(3 : Fin 4)].ovf = none
    ∧ hstS.ports[(3 : Fin 4)].resps.length = 2 := by decide +kernel
theorem test_hyp_HostTransport_ring : hstS.ethOn 1 = true ∧ ethF.cmpErr = false ∧ ethF.fcsOk = true ∧ ethF.bytes.length ≤ 1518
    ∧ hstS.ethTakes 1 ethF.bytes = true ∧ be16 ethF.bytes (etAt ethF.bytes) = 0x1234
    ∧ 0x1234 ≠ hstS.g ETH.ETYPE_SAFEET ∧ 0x1234 ≠ hstS.g ETH.ETYPE_HOSTET ∧ hstS.gb QUE.QCFG_EN 19 = true
    ∧ hstS.qFull 19 = false := by decide +kernel

/-! Register writes. -/

/-- A write of port 0 passes every check. -/
def accB (s : State) (r : Reg) (k : Nat) (v : Word) : Bool :=
  s.up && s.islandUp 18 && s.mode != mBOOT && s.mode != mSLEEP && s.writeCode 0 (r.addr k) [v] == eOK
theorem accepted_of {s : State} {r : Reg} {k : Nat} {v : Word} (h : accB s r k v = true) : Accepted s (.host 0) r k v 0 := by
  simp [accB] at h
  exact ⟨h.1.1.1.1, h.1.1.1.2, ⟨h.1.1.2, h.1.2⟩, rfl, h.2⟩
/-- Queues 16 to 31 enabled, those of networks and of telemetry with `lvl` entries. -/
def queS (lvl : Word) : State := (List.range 16).foldl (fun (s : State) q => (s.pb QUE.QCFG_EN (16 + q) true).setWord QUE.QTAIL (16 + q) lvl)
  (((on mCONFIGURE).p CAN.CFG_HPORTS 3 1).p ETH.CFG_HPORTS 1 1)
/-- Task 1 with queue 15 to consume, engine 3 in debug, halted where `h`. -/
def dbgS (h : Bool) : State :=
  let s := rx 0 0 (stp false)
  let s := (((s.p SYS.MODE_CUR 0 mCONFIGURE).pb PYR.DBGCTL_EN 0 true).p PYR.DBGCTL_ENG 0 0).pb PYR.STAT_DBGDIV 0 true
  let s := s.p PLC.ESTAT_STATE 0 eACTIVE
  { s with engines := s.engines.set 0 { s.engines[0] with halted := h }, tasks := s.tasks.map fun (t : Task) => { t with dbgRan := true, code := [0, 0, 0x04A94800, 0, 0] } }
/-- Axis 7 with all that its enabling asks for, enabled where `en`. -/
def enS (en : Bool) : State :=
  let s := rx 0 0 (stp false)
  let s := (((s.p SYS.MODE_CUR 0 mCONFIGURE).p CTL.AXCFG_TASK 7 1).setWord CTL.AXTLM 7 0x80008080).p CTL.AXRATE_RAMPRATE 7 1
  let s := (s.pb CTL.AXCFG_EN 7 en).p CTL.AXST_STATE 7 (if en then 1 else 0)
  ((s.pb CMP.CFG_EN 0 true).p POS.CFG_IDX 7 2)
/-- A plausibility group that failed and has passed since; stream 3 owned by port 0. -/
def rstS : State :=
  let s := (queS 5).pbit DSM.RSTAT_FAIL 0 31 true
  { s with plaus := s.plaus.set 31 ⟨0, true⟩, streams := s.streams.set 3 ⟨some 0, []⟩ }
theorem test_hyp_RegisterWrites :
    let s := on mREADY
    s.up = true ∧ s.islandUp 18 = true ∧ (on mBOOT).mode = mBOOT ∧ s.writerPort (.host 3) = some 3
      ∧ s.writeCode 3 0x01FBFFFC [5] = eOK ∧ s.writeCode 3 0x01FBFFFE [5] ≠ eOK ∧ s.writeCode 0 0x01FC0000 [5] ≠ eOK
      ∧ regAt (DSM.GAIN.addr 63) = some (DSM.GAIN, 63) ∧ plainReg DSM.GAIN = true
      ∧ (on mCONFIGURE).writeCode 0 (DSM.GAIN.addr 63) [5] = eOK := by decide +kernel
theorem test_hyp_RegisterWrites_task : (tkS (task 0 0)).writerPort (.task 1) = some 0
    ∧ (tkS (task 0 0)).writeCode 0 0x01FBFFFC [5] = eOK := by decide +kernel
theorem test_hyp_QueueAndNetworkWrites : (accB (on mCONFIGURE) QUE.QCFG 16 0x80000104 && accB (queS 5) QUE.QCFG 31 4
    && accB (on mRUN) EVT.DOORBELL 0 0x07A1FFFF && accB (on mRUN) EVT.PSLEEP 0 1 && accB (on mCONFIGURE) EVT.QBIND 3 0
    && accB (on mCONFIGURE) ETH.HBIND 3 0 && accB (queS 0) CAN.TXPUSH 3 3 && accB (queS 5) CAN.RXPOP 3 5
    && accB rstS BGS.TPOP 3 5 && accB (queS 0) ETH.TXPUSH 1 3 && accB (queS 5) ETH.RXPOP 1 5
    && accB (on mRUN) ETH.MDIO 1 0x40000000 && accB (on mCONFIGURE) CAN.CFG 3 0x80800000 && accB (on mRUN) ETH.PTPOFS_LO 0 7
    && accB (on mRUN) ETH.PTPOFS_HI 0 7) = true := by decide +kernel
theorem test_hyp_QueueAndNetworkWrites_port : Accepted (on mRUN) (.host 3) EVT.PSLEEP 3 1 3 :=
  ⟨by decide +kernel, by decide +kernel, by decide +kernel, rfl, by decide +kernel⟩
theorem test_hyp_DebugAndAxisWrites : (accB (((enS false).p PLC.ESTAT_STATE 0 eACTIVE)) PYR.DBGCTL 0 0x10001
    && accB (dbgS false) PYR.DBGCTL 0 0x10001 && accB (dbgS true) PYR.DBGCTL 0 0x10000 && accB (dbgS true) PYR.DBGCTL 0 0x10003
    && accB (dbgS true) PYR.DBGCTL 0 0 && accB (dbgS true) PYR.STAT 0 0x80000000 && accB (enS false) CTL.AXCFG 7 0x80000100
    && accB (enS true) CTL.AXCFG 7 0x00000100 && accB (axS 1 0) CTL.AXCMD 0 1 && accB (axS 6 0) CTL.AXCMD 0 2) = true := by
  decide +kernel
theorem test_hyp_DebugAndAxisWrites_state : (enS false).gb CTL.AXCFG_EN 7 = false ∧ (enS true).gb CTL.AXCFG_EN 7 = true
    ∧ (axS 1 0).axState (0 : Fin 8) = 1 ∧ (axS 6 0).axState (0 : Fin 8) = 6 ∧ (enS false).gb PYR.DBGCTL_EN = false
    ∧ (dbgS true).gb PYR.DBGCTL_EN = true ∧ (dbgS true).g PYR.DBGCTL_ENG = 0 ∧ ((dbgS true).eng 0).halted = true
    ∧ ((dbgS true).atFetch 0).map (fun x => x.2) = some 2 := by decide +kernel
theorem test_hyp_DebugAndAxisWrites_steps : ((enS false).p PLC.ESTAT_STATE 0 eACTIVE).noDebug ∧ (dbgS true).noStep := by
  refine ⟨?_, ?_⟩
  · unfold State.noDebug; decide +kernel
  · unfold State.noStep; decide +kernel
theorem test_hyp_DebugAndAxisWrites_fetch :
    ((dbgS true).atFetch 0).map (fun x => (x.1.fetch x.2).toOption.isSome) = some true := by decide +kernel
theorem test_hyp_BlockWrites : (accB (on mRUN) GATE.SWFLT0 0 0xFFFFFFFF && accB (on mRUN) GATE.SWFLT1 0 0xFFFF
    && accB (on mRUN) FBRK.BRREL 0 0xFF && accB (lkS 1 60) DCL.STAT 3 1 && accB (lkS 1 60) DCL.DSCCMD 0 8
    && accB (lkS 1 60) DCL.DSCCMD 0 0x88 && accB rstS DSM.RSTAT 0 0x80000000 && accB (enS true) CMP.RDBK 0 0x80170000
    && accB (on mCONFIGURE) POS.CFG 7 0x90204FF0 && accB ((on mCONFIGURE).pb POS.CFG_EN 7 true) POS.CFG 7 0x00204FF0
    && accB (enS true) POS.CMD 7 1 && accB (on mRUN) POS.CMPV 31 7 && accB (on mRUN) POS.CMPC 31 0x90000000
    && accB (on mCONFIGURE) NVS.ZEROIZE 0 1 && accB (on mCONFIGURE) NVS.FUSECMD 0 0x40000000
    && accB (on mCONFIGURE) NVS.FUSECMD 0 0x80030000 && accB (on mCONFIGURE) NVS.FUSECMD 0 0xC0000003) = true := by decide +kernel
theorem test_hyp_BlockWrites_state : (lkS 1 60).dscAllowed = true ∧ (lkS 1 60).links[(3 : Fin 4)].dsc = none
    ∧ (enS true).gb CMP.RDBK_EN = false ∧ (on mCONFIGURE).gb POS.CFG_EN 7 = false ∧ (on mRUN).gb POS.CMPC_EN 31 = false
    ∧ (((on mRUN).pb POS.CFG_EN 7 true).p POS.CFG_MODE 7 1).posMode 7 ≠ 0 ∧ (on mRUN).posMode 7 = 0
    ∧ accB (((on mRUN).pb POS.CFG_EN 7 true).p POS.CFG_MODE 7 1) POS.CMPC 31 0x90000000 = true
    ∧ (on mRUN).cmpBehind 7 3 = true ∧ ((on mRUN).setWord POS.CMPV 31 9).cmpBehind 7 3 = false := by decide +kernel

/-! Safety functions. -/

/-- Pair 7 uses both its channels, TPO7 runs; channel 14 in level `l`, in a window where `w`. -/
def sinS (l w : Bool) : State :=
  let s := (((brS mRUN).pb SAFE.SIN_EN 7 true).p SAFE.SIN_TPA 7 7).pbit SAFE.TPO_EN 0 7 true
  { s with safe := { s.safe with sin := (s.safe.sin.set 14 ⟨l, w⟩).set 15 ⟨false, w⟩ } }
theorem test_hyp_SafetyInputs : (sinS true false).up = true ∧ (sinS true false).gb (stoBit true) = false
    ∧ (sinS true false).gb (stoBit false) = false ∧ ((sinS true false).pb (stoBit true) 0 true).gb (stoBit true) = true
    ∧ ((sinS true false).sinCh (14 : Fin 16)).window = false ∧ (sinS true false).tpoRuns (7 : Fin 8) = true
    ∧ ((sinS true true).sinCh (14 : Fin 16)).window = true ∧ (sinS true true).gb SAFE.SINST_PAIRFLT 7 = false
    ∧ (sinS true true).gb SAFE.SIN_EN 7 = true
    ∧ (sinS true false).gb SAFE.SIN_EN (7 : Fin 8) = true
    ∧ (sinS true false).sinDemands (2 * 7) ≠ (sinS true false).sinDemands (2 * 7 + 1) := by decide +kernel
/-- Output 3 in a test that began with it on, or off. -/
def soutS (on' : Bool) : State :=
  let s := (((brS mRUN).p SAFE.SOUT_SRC 3 2).p SAFE.SOUT_AX 3 7).pb SAFE.FN_EN 7 true
  { s with safe := { s.safe with sout := s.safe.sout.set 3 ⟨some on', true, true⟩ } }
theorem test_hyp_SafetyOutputsAndReset : (brS mRUN).safe.sout[(3 : Fin 4)].test = none
    ∧ (soutS false).safe.sout[(3 : Fin 4)].test = some false ∧ (soutS false).gb SAFE.SOUTST_FLT (3 : Fin 4) = false
    ∧ (brS mRUN).gb SAFE.STAT_RSTSTUCK = false := by decide +kernel
theorem test_hyp_SafetyMonitor : (soutS false).up = true ∧ (soutS false).gb SAFE.FN_EN (7 : Fin 8) = true
    ∧ ((soutS false).pb SAFE.STAT_STOA 0 true).stoDemand = true ∧ (soutS false).mode = mRUN := by decide +kernel
/-- A PDU of identifier 5, with the CRC of seed 9. -/
def pdu (seq : Nat) (b : Byte) : List Byte :=
  let l := leBytes 2 5 ++ leBytes 4 seq ++ List.replicate 8 0 ++ [b] ++ List.replicate 6 0 ++ [3] ++ List.replicate 6 0
  l ++ leBytes 4 (crc32cFrom 9 l).toNat
/-- Connection 15, to receive or to transmit, with a window. -/
def conS (dir : Bool) (w : Option (Nat × List Byte × Bool × Nat)) : State :=
  let s := (((((on mRUN).pb SAFE.CONN_EN 15 true).pb SAFE.CONN_DIR 15 dir).p SAFE.CONN_ID 15 5).setWord SAFE.CSEED 15 9).pb SAFE.CST_DEGR 15 true
  { s with safe := { s.safe with conn := s.safe.conn.set 15 { s.safe.conn[15] with window := w, lastSeq := some 6 } } }
theorem test_hyp_SafetyPdus : (conS false none).up = true ∧ (conS false none).gb SAFE.CONN_EN (15 : Fin 16) = true
    ∧ (conS false none).gb SAFE.CONN_DIR (15 : Fin 16) = false ∧ (conS false none).pduWellFormed 15 (pdu 7 1) = true
    ∧ ((conS false none).conn 15).window = none ∧ ((conS false none).conn 15).newer 7 = true
    ∧ byteNat (pdu 7 1) 2 4 = 7 ∧ (conS false none).pduWellFormed 15 (0 :: pdu 7 1) = false
    ∧ (conS false none).gb SAFE.CST_DEGR (15 : Fin 16) = true ∧ (conS true none).gb SAFE.CONN_DIR (15 : Fin 16) = true := by
  decide +kernel
theorem test_hyp_SafetyPdus_second : ((conS false (some (7, (pdu 7 1).take 28, false, 3))).conn 15).window
      = some (7, (pdu 7 1).take 28, false, 3)
    ∧ (conS false none).pduWellFormed 15 (pdu 7 2) = true ∧ (pdu 7 2).take 28 ≠ (pdu 7 1).take 28 := by decide +kernel

/-! Networks. -/

/-- CAN controller 3, with a filter of action `act`, its rings in use, one entry to send. -/
def canS (act : Nat) : State :=
  let s := ((on mRUN).pb CAN.CFG_EN 3 true).p CAN.TREF_ROLE 3 1
  let s := (((s.p CAN.FLTCFG_ACT 255 act).p CAN.FLTCFG_TYPE 255 2).pb QUE.QCFG_EN 27 true).pb QUE.QCFG_EN 26 true
  let s := ((s.setWord QUE.QBASE 27 0x1000).setWord QUE.QBASE 26 0x2000).setWord QUE.QTAIL 26 1
  (s.setWord CAN.RXBUF 3 0x3000).setWord CAN.TXBUF 3 0x4000
/-- A frame to any identifier. -/
def canF : CanFrame := ⟨0, false, false, false, false, false, [1, 2, 3], false, 77⟩
theorem test_hyp_NetworkTraffic_can : ∀ a ∈ [2, 3], (canS a).canOn 3 = true ∧ (canS a).g CAN.STAT_FCS 3 ≠ 2
    ∧ (canS a).canSafety 3 canF = none ∧ (canS a).g CAN.TREF_ROLE 3 = 1
    ∧ (List.range 64).find? (fun k => (canS a).canMatch 3 k canF) = some 63 ∧ (canS a).g CAN.FLTCFG_ACT (64 * 3 + 63) = a
    ∧ (canS a).gb QUE.QCFG_EN 27 = true ∧ (canS a).qFull 27 = false ∧ (canS a).g CAN.CFG_MODE 3 = 0 := by decide +kernel
theorem test_hyp_NetworkTraffic_none : (List.range 64).find? (fun k => (canS 0).canMatch 3 k canF) = none
    ∧ (canS 0).gb CAN.CFG_NOMATCH 3 = false := by decide +kernel
theorem test_hyp_NetworkTraffic_sent : ((canS 0).netHead 26).map (fun x => (x.1, (canS 0).txBad 3 ((canS 0).txEntry 3 x.1 x.2 5)))
    = some (0, false) := by decide +kernel
theorem test_hyp_NetworkTraffic_off : (((canS 0).p CAN.STAT_FCS 3 2).canOn 3 = true) ∧ ((canS 0).p CAN.STAT_FCS 3 2).g CAN.STAT_FCS 3 = 2
    ∧ ((canS 0).p CAN.STAT_FCS 3 2).gb CAN.CFG_AUTOREC 3 = true := by decide +kernel
/-- MAC 1 with a frame of 1,518 bytes to send, and an MDIO transaction. -/
def ethS : State :=
  let s := ((((on mRUN).pb ETH.CFG_EN 1 true).pb QUE.QCFG_EN 18 true).setWord QUE.QBASE 18 0x5000).setWord QUE.QTAIL 18 1
  { (s.setWord ETH.TXBUF 1 0x6000).pb ETH.MDIO_BUSY 1 true with sram := putBytes [] 0x5000 (leBytes 4 1518) }
theorem test_hyp_NetworkTraffic_eth : ethS.ethOn 1 = true
    ∧ (ethS.netHead 18).map (fun x => (x.1, bits (x.2.getD 0 0).toNat 0 11)) = some (0, 1518) ∧ ethS.netUp = true
    ∧ ethS.gb ETH.MDIO_BUSY 1 = true := by decide +kernel

/-! Background. -/

/-- The Percolator at work on a bank, with a port still free. -/
def bgsS : State :=
  let s := (on mRUN).p BGS.PWRCAP_CAP 0 40
  { s with bgs := { s.bgs with slices := [.bank 5] } }
theorem test_hyp_Background : bgsS.up = true ∧ bgsS.percolates = true ∧ blockIsEngine (.port 7) = false
    ∧ chargeOf (.port 7 :: bgsS.bgs.slices) ≤ bgsS.g BGS.PWRCAP_CAP ∧ bgsS.bgs.slices.contains (.port 7) = false
    ∧ bgsS.bgs.slices.any blockIsOther = false ∧ bgsS.bgs.slices.contains (.bank 5) = true ∧ bgsS.mode ≠ mBOOT
    ∧ bgsS.scrubbed (.sram 0xFFFFF) = true ∧ bgsS.bgs.lastCorr.contains (.sram 0xFFFFF, 511) = false
    ∧ bgsS.poison.contains 0xFFFFF = false ∧ bgsS.sliceLeft (sliceIdx (.port 7)) = true := by decide +kernel
/-- The same with every slice of the islands before SENS had. -/
def turnS : State := { bgsS with bgs := { bgsS.bgs with had := bgsS.bgs.had.set 32 200 } }
theorem test_hyp_Background_turn : turnS.sliceLeft (sliceIdx (.port 7)) = true ∧ turnS.sliceTurn (.port 7) = true := by decide +kernel
theorem test_hyp_Background_again :
    let s := { bgsS with bgs := { bgsS.bgs with lastCorr := [(.sram 0xFFFFF, 511)] } }
    s.bgs.lastCorr.contains (.sram 0xFFFFF, 511) = true ∧ s.mapped (memOf 18 0 (locPlace (.sram 0xFFFFF)).2.2) < 23 := by
  decide +kernel
/-- Codeword 3 struck in so many symbols. -/
def hitS (k : Nat) : State := { on mCONFIGURE with upsets := [(.sram 3, k)] }
theorem test_hyp_Background_read : ∀ k ∈ [5, 6], (hitS k).upsets = [(.sram 3, k)] ∧ (100 : Word).toNat / 32 = 3
    ∧ freeArea (100 : Word).toNat = false ∧ ((hitS k).taken 0 2 7 100 [1]).readCode 0 100 = eOK := by decide +kernel
theorem test_hyp_Background_local : (bgsS.p PLC.ESTAT_STATE 15 eACTIVE).scrubbed (.localMem 15 true 8191) = true
    ∧ bgsS.dbgEngine ≠ some 15 := by decide +kernel
theorem test_hyp_Background_scan : let s := (bgsS.pb NVS.KEYSTAT_ZERO 0 true).pb NVS.KEYSTAT_CLOSED 0 true
    s.gb NVS.KEYSTAT_ZERO = true ∧ s.gb NVS.KEYSTAT_CLOSED = true := by decide +kernel
/-- A log entry waits; stream 3 holds signal 0 of a running channel. -/
def recdS (seen : Nat) : State :=
  let s := ((((on mRUN).pb DSM.CH_EN 0 true).pb DSM.CLK_EN 0 true).pb QUE.QCFG_EN 31 true).pb BGS.WCFG_EN 7 true
  { s with nv := { s.nv with logPend := [List.replicate 32 7] }, streams := s.streams.set 3 ⟨some 0, [⟨0, 7, seen, 0xFFFF⟩]⟩ }
theorem test_hyp_Background_records : (recdS 5).percolates = true ∧ (recdS 5).gb BGS.WCFG_EN (7 : Fin 8) = true
    ∧ (recdS 5).islandUp 24 = true ∧ (recdS 5).nv.logPend ≠ [] ∧ ((recdS 5).nv.logPend.take 128).flatten.length ≤ 4096
    ∧ ((recdS 5).sigValue 0 9).isSome = true ∧ (recdS 5).gb QUE.QCFG_EN 31 = true ∧ (recdS 5).qFull 31 = false := by decide +kernel
theorem test_hyp_Background_signal : ∀ n ∈ [5, 6],
    (recdS n).streams[(3 : Fin 4)].signals.find? (fun z => z.sig.toNat == (0 : BitVec 20).toNat) = some ⟨0, 7, n, 0xFFFF⟩ := by
  decide +kernel

/-! Supplies, boot and islands. -/

/-- Canopy's side in phase `p`, supply 1 good. -/
def phS (p : PowerPhase) : State :=
  { State.reset with pwr := { State.reset.pwr with phase := p, good := 0xFF } }
theorem test_hyp_PowerAndSleep : State.reset.pwr.phase = .ramp ∧ (phS .refinWait).pwr.phase = .refinWait
    ∧ (phS .running).pwr.phase ≠ .sleep ∧ (phS .running).pwr.good.getLsbD 1 = true ∧ (on mRUN).up = true
    ∧ (on mRUN).pwr.good.getLsbD (7 : Fin 8) = true ∧ (phS .sleep).pwr.phase = .sleep
    ∧ ((phS .sleep).pbit CNPY.WATCH_EN 0 22 true).gbit CNPY.WATCH_EN 0 (22 : Fin 23) = true
    ∧ ((phS .sleep).wakeMeets (22 : Fin 23) (.level true)).1 = true ∧ ((phS .sleep).wakeMeets (22 : Fin 23) (.level false)).1 = false := by
  decide +kernel
/-- Boot step `n` next. -/
def bootS (n : Nat) : State := { on mBOOT with boot := ⟨n, false, none, false⟩ }
theorem test_hyp_PowerAndSleep_latched :
    let s := (on mREADY).pbit CNPY.WATCH_EN 0 22 true
    let s := { s with pwr := { s.pwr with entering := .accepted } }
    s.up = true ∧ s.pwr.entering ≠ .idle ∧ s.pwr.wakeLatch = none ∧ (s.wakeMeets (22 : Fin 23) (.level true)).1 = true := by
  decide +kernel
theorem test_hyp_BootSteps : (bootS 1).up = true ∧ (bootS 1).boot.step = 1 ∧ (bootS 6).boot.step = 6 ∧ (bootS 1).fuses.svnFloor < 64
    ∧ (bootS 1).fuses.burned.length < 1024 ∧ (bootS 4).mode = mBOOT ∧ (bootS 4).scrapped = false
    ∧ ((bootS 5).pb NVS.KEYSTAT_CLOSED 0 true).gb NVS.KEYSTAT_CLOSED = true ∧ (∀ n : Fin 4, (bootS 6).ports[n].cmds = []) := by
  decide +kernel
/-- A transfer with its check code, or with another. -/
def xfer (w : BitVec 96) (good : Bool) : Transfer := ⟨w, if good then crc16 w else ~~~crc16 w⟩
theorem test_hyp_Failures : (on mRUN).up = true ∧ (on mRUN).mode = mRUN ∧ (on mRUN).xingLive (1 : Fin 26) (19 : Fin 26) = true
    ∧ (on mRUN).xingLive (25 : Fin 26) (0 : Fin 26) = true ∧ crossing (0 : Fin 26) (0 : Fin 26) = false
    ∧ (on mRUN).xferOk 1 19 (xfer 0x123 true) = true ∧ (on mRUN).xferOk 1 19 (xfer 0x123 false) = false
    ∧ (on mRUN).toggleRuns = true ∧ (on mRUN).gb SYS.XSTAT_FAIL = false := by decide +kernel
theorem test_hyp_StepKeepsForm : State.reset.Wf ∧ (recdS 5).Wf := by
  refine ⟨⟨?_, ?_, ?_⟩, ⟨?_, ?_, ?_⟩⟩ <;> decide +kernel
theorem test_hyp_FusesOnlyBurn : ∃ t, step { on mRUN with pending := [.tbaseErr 3] } = .next t := ⟨_, rfl⟩
theorem test_hyp_StepRunsFront : State.reset.pending = [] := rfl
end Sys2Proof.Tests
end

section
/-! The field-control transforms (R141 to R143) on native values: the results an instruction writes one register after
another, the mirror of class L on groups of sources, and the symmetries of the trigonometric codes. -/

namespace Sys2Proof.Machine

/-! Results written one after another. -/

/-- The run with other g registers, STW and write signature in its pass. -/
def Run.withRegs (g : Vector GReg 32) (stw sig : Word) (r : Run) : Run := r.setP { r.p with g := g, stw := stw, wsig := sig }

@[simp] theorem Run.g_withRegs (g : Vector GReg 32) (stw sig : Word) (r : Run) : (r.withRegs g stw sig).p.g = g := rfl

theorem Run.withRegs_wr (g : Vector GReg 32) (stw sig : Word) (r : Run) {i : Nat} (hi : i ≠ 0) (v : Word) (b c : Bool) :
    ∃ sig', (r.withRegs g stw sig).wr i v b c = r.withRegs (upd g i fun _ => ⟨v, b, c⟩) stw sig' :=
  ⟨_, if_neg hi⟩

theorem Run.withRegs_flag (g : Vector GReg 32) (stw sig : Word) (r : Run) (fl : Word) :
    ∃ sig', (r.withRegs g stw sig).flag fl = r.withRegs g ((stw ||| fl) &&& 0x1F) sig' := by
  obtain ⟨sig', hp⟩ := Run.p_putStw (r.withRegs g stw sig) (stw ||| fl)
  have hset : (r.withRegs g stw sig).flag fl = r.setP ((r.withRegs g stw sig).flag fl).p := by
    unfold Run.flag Run.putStw; dsimp only; split <;> rfl
  exact ⟨sig', hset.trans (congrArg r.setP hp)⟩

/-- Run `r` is run `r0` with `xs` in the registers from `gd` up, the flags `fl` added to STW, and another write
signature. -/
structure Run.Results (r0 r : Run) (gd : Nat) (xs : List GReg) (fl : Word) : Prop where
  pass : ∃ g stw sig, r = r0.withRegs g stw sig ∧ stw &&& 0x1F = (r0.p.stw ||| fl) &&& 0x1F
  value : ∀ k, (h : k < xs.length) → (h' : gd + k < 32) → r.p.g[gd + k] = xs[k]
  others : ∀ j, (h : j < 32) → j < gd ∨ gd + xs.length ≤ j → r.p.g[j] = r0.p.g[j]

theorem Run.Results.nil (r : Run) (gd : Nat) : r.Results r gd [] 0 :=
  ⟨⟨r.p.g, r.p.stw, r.p.wsig, rfl, by simp⟩, fun k h => absurd h (Nat.not_lt_zero k), fun _ _ _ => rfl⟩

/-- A write to the next register adds its value. -/
theorem Run.Results.wr {r0 r : Run} {gd : Nat} {xs : List GReg} {fl : Word} (h : r0.Results r gd xs fl) (hgd : gd ≠ 0)
    (v : Word) (b c : Bool) : r0.Results (r.wr (gd + xs.length) v b c) gd (xs ++ [⟨v, b, c⟩]) fl := by
  obtain ⟨⟨g, stw, sig, rfl, hw⟩, hv, ho⟩ := h
  obtain ⟨sig', hr⟩ := Run.withRegs_wr g stw sig r0 (i := gd + xs.length) (by omega) v b c
  rw [hr]
  refine ⟨⟨_, stw, sig', rfl, hw⟩, fun k hk h' => ?_, fun j h' hj => ?_⟩
  · rw [List.length_append, List.length_singleton] at hk
    simp only [Run.g_withRegs] at hv ⊢
    rw [upd_get]
    by_cases hlast : k = xs.length
    · subst hlast; simp
    · rw [if_neg (by omega), List.getElem_append_left (by omega)]
      exact hv k (by omega) h'
  · rw [List.length_append, List.length_singleton] at hj
    simp only [Run.g_withRegs] at ho ⊢
    rw [upd_get, if_neg (by omega)]
    exact ho j h' (by omega)

/-- Flags are added after every other result (R107). -/
theorem Run.Results.flag {r0 r : Run} {gd : Nat} {xs : List GReg} (h : r0.Results r gd xs 0) (fl : Word) :
    r0.Results (r.flag fl) gd xs fl := by
  obtain ⟨⟨g, stw, sig, rfl, hw⟩, hv, ho⟩ := h
  obtain ⟨sig', hr⟩ := Run.withRegs_flag g stw sig r0 fl
  rw [hr]
  refine ⟨⟨g, _, sig', rfl, ?_⟩, hv, ho⟩
  have hw' : stw &&& 0x1F = r0.p.stw &&& 0x1F := by simpa using hw
  have hor : ∀ x y : Word, (x ||| y) &&& 0x1F = (x &&& 0x1F) ||| (y &&& 0x1F) := fun _ _ => BitVec.and_or_distrib_right
  rw [BitVec.and_assoc, BitVec.and_self, hor, hor, hw']

theorem Run.wrGroup_concat (i : Nat) (p : Bool) (l : List Int) (x : Int) (r : Run) :
    r.wrGroup i p (l ++ [x]) = (r.wrGroup i p l).wrI (i + l.length) x p := by
  simp [Run.wrGroup, List.range_succ, List.zip_append]

/-- A group of results with one tag. -/
theorem Run.Results.wrGroup (r : Run) {gd : Nat} (hgd : gd ≠ 0) (p : Bool) (l : List Int) :
    r.Results (r.wrGroup gd p l) gd (l.map fun v => ⟨ofInt v, p, false⟩) 0 := by
  induction l using List.reverseRecOn with
  | nil => exact .nil r gd
  | append_singleton l x ih =>
    have h := ih.wr hgd (ofInt x) p false
    rw [List.length_map] at h
    rw [Run.wrGroup_concat, List.map_append]
    exact h

/-- An instruction that writes registers from `gd` up and sets flags. -/
theorem Writes.of_results {i : Instr} {s : State} {e : Fin 16} {t : Task} {st : Step} {len : Nat} {f : Op} {gd : Fin 32}
    {r : Run} {xs : List GReg} {isF : Bool} {fl : Word} (h : Running s e t st) (hx : exec i s = .next (s.rhax e len f))
    (hf : f (Run.start s e t st) = .ok r) (hgd : gd.val ≠ 0) (hr : (Run.start s e t st).Results r gd xs fl)
    (hF : ∀ x ∈ xs, x.isF = isF) : Writes i s e st len gd (xs.map GReg.native) isF fl := by
  obtain ⟨⟨g, w, sig, rfl, hw⟩, hv, ho⟩ := hr
  obtain ⟨pc, l0, l1, ha, hpc, hl0, hl1⟩ := ((Run.start s e t st).withRegs g w sig).advance_goes len rfl rfl
  have hgo := Pass.goOn_same st.cur { st.cur with g := g, stw := w, wsig := sig } rfl rfl (st.cur.pc + len)
  refine ⟨{ st.cur with g := g, stw := w, wsig := sig, count := st.cur.count + 1, pc := pc, lc0 := l0, lc1 := l1 }, ?_,
    ⟨⟨rfl, hw, ⟨rfl, rfl⟩, ⟨rfl, rfl⟩⟩, ⟨hpc.trans hgo.1, hl0.trans hgo.2.1, hl1.trans hgo.2.2⟩,
      ⟨rfl, ⟨rfl, rfl⟩, ⟨rfl, rfl⟩⟩⟩,
    ⟨fun k hk _ h32 => ?_, fun j hj => ?_, rfl⟩⟩
  · rw [hx, State.rhax_ok h hf rfl h.more]
    exact congrArg _ (congrArg (fun p => State.setStep e { st with cur := p } s) ha)
  · rw [List.length_map] at hk
    have hvk : g[gd.val + k] = xs[k] := hv k hk h32
    rw [List.getElem_map]
    exact ⟨congrArg _ hvk, (congrArg _ hvk).trans (hF _ (List.getElem_mem hk))⟩
  · rw [List.length_map] at hj
    exact ho j.val j.isLt (by omega)

/-! Groups of sources, and the mirror of class L (R112). -/

/-- Groups that lie inside g1–g31 (R137). -/
theorem Run.group_ok {ga na gb nb gd nd : Nat} (ha : ga + na ≤ 32) (hb : gb + nb ≤ 32) (hd : gd + nd ≤ 32) (h0 : gd ≠ 0) :
    Run.group ga na gb nb gd nd = .ok () := by
  simp [Run.group, need, ha, hb, hd, h0]

/-- The same with one group of sources. -/
theorem Run.group_one_ok {ga na gd nd : Nat} (ha : ga + na ≤ 32) (hd : gd + nd ≤ 32) (h0 : gd ≠ 0) :
    Run.group ga na 0 0 gd nd = .ok () :=
  Run.group_ok ha (Nat.zero_le 32) hd h0

/-- The native values of the `n` registers from `i`. -/
def Pass.nats (p : Pass) (i n : Nat) : List Word := (List.range n).map fun k => p.nat (Fin.ofNat 32 (i + k))

/-- A native value as the raw value of tag `p` (R111). -/
def signI (p : Bool) (x : Int) : Int := if p then -x else x

@[simp] theorem signI_zero (p : Bool) : signI p 0 = 0 := by cases p <;> rfl

theorem getD_map_signI (p : Bool) (l : List Int) (n : Nat) : (l.map (signI p)).getD n 0 = signI p (l.getD n 0) := by
  have h := List.getD_map (l := l) (d := 0) (n := n) (signI p)
  rwa [signI_zero] at h

theorem signI_mul_signI (p : Bool) (x : Int) : signI p x * signI p x = x * x := by cases p <;> simp [signI]

theorem signI_eq_zero (p : Bool) (x : Int) : signI p x = 0 ↔ x = 0 := by cases p <;> simp [signI]

/-- A result of tag `p` stands for the native result. -/
theorem native_ofInt_signI (p : Bool) (x : Int) : GReg.native ⟨ofInt (signI p x), p, false⟩ = ofInt x := by
  rw [native_ofInt]; cases p <;> simp [signI]

theorem alignAll_map_q (xs : List GReg) :
    alignAll (xs.map GReg.q) = ((xs.map GReg.native).map qOf).map (signI (firstTag (xs.map GReg.q))) := by
  cases xs with
  | nil => rfl
  | cons x xs => simp [alignAll, firstTag, GReg.q_align, signI]

theorem satFlag_map_q (xs : List GReg) : satFlag (xs.map GReg.q) = qSat (xs.map GReg.native) := by
  simp [satFlag, qSat, List.any_map, Function.comp_def, (GReg.q_spec _).2]

theorem Run.srcs_eq_map_q (r : Run) (i n : Nat) : r.srcs i n = ((List.range n).map fun k => r.gi (i + k)).map GReg.q := by
  simp [Run.srcs]

theorem Run.map_native_gi (s : State) (e : Fin 16) (t : Task) (st : Step) (i n : Nat) :
    ((List.range n).map fun k => (Run.start s e t st).gi (i + k)).map GReg.native = st.cur.nats i n := by
  rw [List.map_map]; rfl

/-- The aligned sources are the native ones, negated where the first tag is 1. -/
theorem Run.alignAll_srcs (s : State) (e : Fin 16) (t : Task) (st : Step) (i n : Nat) :
    alignAll ((Run.start s e t st).srcs i n)
      = ((st.cur.nats i n).map qOf).map (signI (firstTag ((Run.start s e t st).srcs i n))) := by
  rw [Run.srcs_eq_map_q, alignAll_map_q, Run.map_native_gi]

theorem Run.satFlag_srcs (s : State) (e : Fin 16) (t : Task) (st : Step) (i n : Nat) :
    satFlag ((Run.start s e t st).srcs i n) = qSat (st.cur.nats i n) := by
  rw [Run.srcs_eq_map_q, satFlag_map_q, Run.map_native_gi]

theorem sat31_signI (p : Bool) (x : Int) : sat31 (signI p x) = signI p (sat31 x) := by
  cases p <;> simp [signI, sat31_neg]

theorem satAll_map_signI (p : Bool) (l : List Int) :
    satAll (l.map (signI p)) = ((satAll l).1.map (signI p), (satAll l).2) := by
  have hne : ∀ x, (signI p (sat31 x) != signI p x) = (sat31 x != x) := fun x => by cases p <;> simp [signI, bne]
  simp [satAll, sat31_signI, List.any_map, Function.comp_def, hne]

/-- Saturated results of one tag, and the flags of their sources. -/
theorem Writes.of_satAll {i : Instr} {s : State} {e : Fin 16} {t : Task} {st : Step} {len : Nat} {f : Op} {gd : Fin 32}
    {z : List Int} {p : Bool} {fl : Word} (h : Running s e t st) (hx : exec i s = .next (s.rhax e len f)) (hgd : gd.val ≠ 0)
    (hf : f (Run.start s e t st) = .ok (((Run.start s e t st).wrGroup gd p (satAll (z.map (signI p))).1).flag
      ((satAll (z.map (signI p))).2 ||| fl))) :
    Writes i s e st len gd ((satAll z).1.map ofInt) false ((satAll z).2 ||| fl) := by
  have hr := (Run.Results.wrGroup (Run.start s e t st) hgd p (satAll (z.map (signI p))).1).flag
    ((satAll (z.map (signI p))).2 ||| fl)
  have hw := Writes.of_results (isF := false) h hx hf hgd hr (by simp)
  rw [satAll_map_signI] at hw
  simpa only [List.map_map, Function.comp_def, native_ofInt_signI] using hw

/-! The linear transforms (R141). -/

/-- An odd function of a list of values. -/
def OddOnLists (f : List Int → List Int) : Prop := ∀ l, f (l.map (signI true)) = (f l).map (signI true)

theorem OddOnLists.map_signI {f : List Int → List Int} (hf : OddOnLists f) (p : Bool) (l : List Int) :
    f (l.map (signI p)) = (f l).map (signI p) := by
  cases p
  · have hid : signI false = id := rfl
    simp only [hid, List.map_id]
  · exact hf l

theorem rndDiv_odd {a a' b : Int} (hb : 0 < b) (ha : a' = -a) : rndDiv a' b = -rndDiv a b := ha ▸ rndDiv_neg a b hb

theorem clarkeOf_odd : OddOnLists clarkeOf := fun l => by
  simp only [clarkeOf, getD_map_signI, signI, if_true, List.map_cons, List.map_nil, List.cons.injEq, and_true]
  exact ⟨rndDiv_odd (by norm_num) (by ring), rndDiv_odd (by norm_num) (by ring), rndDiv_odd (by norm_num) (by ring)⟩

theorem clarke2Of_odd : OddOnLists clarke2Of := fun l => by
  simp only [clarke2Of, getD_map_signI, signI, if_true, List.map_cons, List.map_nil, List.cons.injEq, and_true, true_and]
  exact rndDiv_odd (by norm_num) (by ring)

theorem iclarkeOf_odd : OddOnLists iclarkeOf := fun l => by
  simp only [iclarkeOf, phases, getD_map_signI, signI, if_true, List.map_cons, List.map_nil, List.cons.injEq, and_true]
  exact ⟨rndDiv_odd (by norm_num) (by ring), rndDiv_odd (by norm_num) (by ring), rndDiv_odd (by norm_num) (by ring)⟩

/-- An odd transform of a group of sources gives its native results, whatever the tags. -/
theorem Writes.of_opLinear {i : Instr} {s : State} {e : Fin 16} {t : Task} {st : Step} {n m : Nat} {f : List Int → List Int}
    {gd ga : Fin 32} (h : Running s e t st) (hx : exec i s = .next (s.rhax e 1 (opLinear n m f gd ga))) (hodd : OddOnLists f)
    (hgd : gd.val ≠ 0) (ha : ga.val + n ≤ 32) (hd : gd.val + m ≤ 32) :
    Writes i s e st 1 gd ((satAll (f ((st.cur.nats ga n).map qOf))).1.map ofInt) false
      ((satAll (f ((st.cur.nats ga n).map qOf))).2 ||| qSat (st.cur.nats ga n)) := by
  refine Writes.of_satAll (p := firstTag ((Run.start s e t st).srcs ga n)) h hx hgd ?_
  rw [← hodd.map_signI, ← Run.alignAll_srcs, ← Run.satFlag_srcs, opLinear, Run.group_one_ok ha hd hgd]
  rfl

/-! Angles (R138, R143). -/

@[simp] theorem GReg.isF_asType (b : Bool) (x : GReg) : (x.asType b).isF = b := by unfold GReg.asType; split <;> simp_all

@[simp] theorem GReg.native_asType (b : Bool) (x : GReg) : (x.asType b).native = x.native := by
  unfold GReg.asType; split <;> rfl

/-- The native value of an operand taken as type I, from its raw value and tag. -/
theorem GReg.native_eq_raw_asType (x : GReg) :
    x.native = if (x.asType false).tag then -(x.asType false).raw else (x.asType false).raw := by
  rw [← GReg.native_asType false x]
  simp only [GReg.native, GReg.isF_asType, mirrorWord, Bool.false_eq_true, if_false]

theorem sinSigned_neg (x : Int) : sinSigned (-x) = -sinSigned x := by simp [sinSigned, sgnI_neg]

theorem toInt_neg_or_min (w : Word) : w = 0x80000000 ∨ (-w).toInt = -w.toInt := by
  by_cases h : w = 0x80000000
  · exact .inl h
  · exact .inr (BitVec.toInt_neg_of_ne_intMin h)

/-- The sine is odd: half a turn, which is its own opposite, has sine 0. -/
theorem sinCode_neg (w : Word) : sinCode (-w) = -sinCode w := by
  obtain rfl | h := toInt_neg_or_min w
  · decide +kernel
  · rw [sinCode, h, sinSigned_neg]; rfl

/-- The cosine is even. -/
theorem cosCode_neg (w : Word) : cosCode (-w) = cosCode w := by
  obtain rfl | h := toInt_neg_or_min w
  · rfl
  · rw [cosCode, h, absI_neg]; rfl

theorem GReg.sinCode_raw (x : GReg) : sinCode (x.asType false).raw = signI (x.asType false).tag (sinCode x.native) := by
  rw [GReg.native_eq_raw_asType, signI]; split
  · rw [sinCode_neg, neg_neg]
  · rfl

theorem GReg.cosCode_raw (x : GReg) : cosCode (x.asType false).raw = cosCode x.native := by
  rw [GReg.native_eq_raw_asType]; split
  · rw [cosCode_neg]
  · rfl

/-- An angle operand gives its native sine and cosine. -/
theorem Run.sin_angle (r : Run) (i : Nat) : (r.angle i).1 = sinCode (r.gi i).native := by
  simp only [Run.angle, GReg.sinCode_raw]
  cases ((r.gi i).asType false).tag <;> simp [signI]

theorem Run.cos_angle (r : Run) (i : Nat) : (r.angle i).2.1 = cosCode (r.gi i).native := GReg.cosCode_raw _

theorem Run.native_gi_start (s : State) (e : Fin 16) (t : Task) (st : Step) (i : Fin 32) :
    ((Run.start s e t st).gi i).native = st.cur.nat i := by
  rw [Run.gi, Fin.ofNat_val_eq_self]; rfl

/-- The group of a Park transform before saturation (R142). -/
def parkOf (inverse : Bool) (sn cs x y : Int) : List Int :=
  [rndDiv (if inverse then x * cs - y * sn else x * cs + y * sn) (2 ^ 31),
   rndDiv (if inverse then x * sn + y * cs else -(x * sn) + y * cs) (2 ^ 31)]

/-- For a given sine and cosine, the transform is odd in the vector. -/
theorem parkOf_signI (inverse p : Bool) (sn cs x y : Int) :
    parkOf inverse sn cs (signI p x) (signI p y) = (parkOf inverse sn cs x y).map (signI p) := by
  cases p
  · rfl
  · simp only [parkOf, signI, if_true, List.map_cons, List.map_nil, List.cons.injEq, and_true]
    refine ⟨rndDiv_odd (by norm_num) ?_, rndDiv_odd (by norm_num) ?_⟩ <;> split <;> ring

theorem opPark_eq {inverse : Bool} {gd ga gb : Fin 32} (r : Run) (hgd : gd.val ≠ 0) (ha : ga.val + 2 ≤ 32)
    (hd : gd.val + 2 ≤ 32) :
    let l := alignAll (r.srcs ga 2)
    let z := satAll (parkOf inverse (r.angle gb).1 (r.angle gb).2.1 (l.getD 0 0) (l.getD 1 0))
    opPark inverse gd ga gb r = .ok ((r.wrGroup gd (firstTag (r.srcs ga 2)) z.1).flag (z.2 ||| satFlag (r.srcs ga 2))) := by
  simp only [opPark, Run.group_one_ok ha hd hgd, parkOf]
  rfl

/-- PARK and IPARK give their native results, whatever the tags. -/
theorem Writes.of_opPark {i : Instr} {s : State} {e : Fin 16} {t : Task} {st : Step} {inverse : Bool} {gd ga gb : Fin 32}
    (h : Running s e t st) (hx : exec i s = .next (s.rhax e 1 (opPark inverse gd ga gb)))
    (hgd : gd.val ≠ 0) (ha : ga.val + 2 ≤ 32) (hd : gd.val + 2 ≤ 32) :
    let q := (st.cur.nats ga 2).map qOf
    let z := parkOf inverse (sinCode (st.cur.nat gb)) (cosCode (st.cur.nat gb)) (q.getD 0 0) (q.getD 1 0)
    Writes i s e st 1 gd ((satAll z).1.map ofInt) false ((satAll z).2 ||| qSat (st.cur.nats ga 2)) := by
  intro q z
  refine Writes.of_satAll (p := firstTag ((Run.start s e t st).srcs ga 2)) h hx hgd ?_
  rw [opPark_eq _ hgd ha hd, Run.alignAll_srcs, Run.satFlag_srcs, getD_map_signI, getD_map_signI, Run.sin_angle,
    Run.cos_angle, Run.native_gi_start, parkOf_signI]

theorem opSincos_eq {gd ga : Fin 32} (r : Run) (hgd : gd.val ≠ 0) (hd : gd.val + 2 ≤ 32) :
    let x := (r.gi ga).asType false
    opSincos gd ga r = .ok ((r.wrI gd (sinCode x.raw) x.tag).wrI (gd.val + 1) (cosCode x.raw) false) := by
  simp only [opSincos, Run.group_one_ok (na := 1) ga.isLt hd hgd]
  rfl

/-- SINCOS gives the native sine and cosine, the tag of the angle going to the sine. -/
theorem Writes.sincos {s : State} {e : Fin 16} {t : Task} {st : Step} (h : Running s e t st) {gd : Fin 32} (ga : Fin 32)
    (hgd : gd.val ≠ 0) (hd : gd.val + 2 ≤ 32) :
    Writes (.sincos e gd ga) s e st 1 gd [ofInt (sinCode (st.cur.nat ga)), ofInt (cosCode (st.cur.nat ga))] false 0 := by
  have hr := fun v w b => ((Run.Results.nil (Run.start s e t st) gd).wr hgd v b false).wr hgd w false false
  have hw := Writes.of_results (i := .sincos e gd ga) (isF := false) h rfl (opSincos_eq _ hgd hd) hgd (hr _ _ _) (by simp)
  simp only [GReg.sinCode_raw, GReg.cosCode_raw, List.nil_append, List.cons_append, List.map_cons, List.map_nil,
    native_ofInt_signI, Run.native_gi_start] at hw
  exact hw

/-! The angle of a vector (R143). -/

/-- A positive sine or cosine at each half step that the search for a vector on the x axis tests. -/
theorem halfStep_pos : ∀ k < 31,
    if 2 * 2 ^ k - 1 ≤ 2 ^ 30 then 0 < sin96 (2 * 2 ^ k - 1) else 0 < cos96 (2 ^ 31 - (2 * 2 ^ k - 1)) := by
  decide +kernel

theorem angleAtLeast_zero_left {x : Nat} (hx : 0 < x) {k : Nat} (hk : k < 31) : angleAtLeast 0 x (2 ^ k) = false := by
  have hpos := halfStep_pos k hk
  have hx' : (0 : Int) < x := by exact_mod_cast hx
  have hlt : ∀ z w : Int, 0 < z → decide ((x : Int) * z ≤ ((0 : Nat) : Int) * w) = false := fun z w hz => by
    rw [decide_eq_false_iff_not, Int.natCast_zero, zero_mul, not_le]
    exact mul_pos hx' hz
  split at hpos
  · exact (if_pos ‹_›).trans (hlt _ _ hpos)
  · exact (if_neg ‹_›).trans (hlt _ _ hpos)

/-- A vector on the x axis is at angle 0 from it. -/
theorem angleSearch_zero_left {x : Nat} (hx : 0 < x) : ∀ k ≤ 31, angleSearch 0 x k 0 = 0
  | 0, _ => rfl
  | k + 1, hk => by
    rw [angleSearch, Nat.zero_add, angleAtLeast_zero_left hx hk, Bool.and_false]
    exact angleSearch_zero_left hx k (by omega)

theorem angleSearch_quarter (y x : Nat) : ∀ k, angleSearch y x k (2 ^ 30) = 2 ^ 30
  | 0 => rfl
  | k + 1 => by
    have hk : ¬2 ^ 30 + 2 ^ k ≤ 2 ^ 30 := by have := Nat.two_pow_pos k; omega
    rw [angleSearch, decide_eq_false hk, Bool.false_and]
    exact angleSearch_quarter y x k

/-- A vector on the y axis is a quarter turn from the x axis. -/
theorem angleSearch_zero_right (y : Nat) : angleSearch y 0 31 0 = 2 ^ 30 := by
  have hsin : (0 : Int) ≤ sin96 1 := by decide +kernel
  have hat : angleAtLeast y 0 (2 ^ 30) = true := by
    unfold angleAtLeast
    dsimp only
    rw [if_neg (by norm_num), decide_eq_true_iff, Int.natCast_zero, zero_mul]
    exact mul_nonneg (Int.natCast_nonneg y) hsin
  rw [angleSearch, Nat.zero_add, hat]
  exact angleSearch_quarter y 0 30

/-- Angles a half turn apart, up to whole turns. -/
theorem ofInt_add_half {a b : Int} (h : a + 2 ^ 31 = b ∨ a + 2 ^ 31 = b + 2 ^ 32) : ofInt a + 0x80000000 = ofInt b := by
  have hhalf : ofInt a + 0x80000000 = ofInt (a + 2 ^ 31) := by rw [ofInt, ofInt, BitVec.ofInt_add]; rfl
  rw [hhalf]
  obtain h | h := h
  · rw [h]
  · have hturn : BitVec.ofInt 32 (2 ^ 32) = 0#32 := rfl
    rw [h, ofInt, BitVec.ofInt_add, hturn, BitVec.add_zero]; rfl

/-- The opposite vector lies a half turn away. -/
theorem atanCode_neg {y x : Int} (h : ¬(x = 0 ∧ y = 0)) : atanCode (-y) (-x) + 0x80000000 = atanCode y x := by
  have hx0 : x = 0 → angleSearch y.natAbs x.natAbs 31 0 = 2 ^ 30 := by
    rintro rfl; exact angleSearch_zero_right _
  have hy0 : y = 0 → angleSearch y.natAbs x.natAbs 31 0 = 0 := by
    rintro rfl; exact angleSearch_zero_left (by omega) 31 le_rfl
  unfold atanCode
  rw [Int.natAbs_neg, Int.natAbs_neg]
  generalize angleSearch y.natAbs x.natAbs 31 0 = n at hx0 hy0
  refine ofInt_add_half ?_
  split_ifs <;> omega

/-- The angle that VEC writes: 0 for the vector 0, else that of the vector (R143). -/
def vecAngle (y x : Int) : Word := if x = 0 ∧ y = 0 then 0 else atanCode y x

/-- The angle of the aligned sources, corrected by a half turn where their tag is 1, is the native one. -/
theorem vecAngle_signI (p : Bool) (y x : Int) :
    (if signI p x = 0 ∧ signI p y = 0 then (0 : Word)
      else atanCode (signI p y) (signI p x) + (if p then 0x80000000 else 0)) = vecAngle y x := by
  simp only [signI_eq_zero, vecAngle]
  split
  · rfl
  · cases p
    · exact BitVec.add_zero _
    · exact atanCode_neg ‹_›

theorem opVec_eq {gd ga : Fin 32} (r : Run) (hgd : gd.val ≠ 0) (ha : ga.val + 2 ≤ 32) (hd : gd.val + 2 ≤ 32) :
    let src := r.srcs ga 2
    let x := (alignAll src).getD 0 0
    let y := (alignAll src).getD 1 0
    let m := satOut (rndSqrt (x * x + y * y).toNat)
    opVec gd ga r = .ok (((r.wrI gd m.1 false).wr (gd.val + 1) (if x = 0 ∧ y = 0 then (0 : Word)
      else atanCode y x + (if firstTag src then 0x80000000 else 0)) false false).flag (m.2 ||| satFlag src)) := by
  simp only [opVec, Run.group_one_ok ha hd hgd]
  rfl

/-- VEC gives the native magnitude and angle. -/
theorem Writes.vec {s : State} {e : Fin 16} {t : Task} {st : Step} (h : Running s e t st) {gd ga : Fin 32}
    (hgd : gd.val ≠ 0) (ha : ga.val + 2 ≤ 32) (hd : gd.val + 2 ≤ 32) :
    let x := ((st.cur.nats ga 2).map qOf).getD 0 0
    let y := ((st.cur.nats ga 2).map qOf).getD 1 0
    let m := satOut (rndSqrt (x * x + y * y).toNat)
    Writes (.vec e gd ga) s e st 1 gd [ofInt m.1, vecAngle y x] false (m.2 ||| qSat (st.cur.nats ga 2)) := by
  intro x y m
  have hf := opVec_eq (Run.start s e t st) hgd ha hd
  dsimp only at hf
  rw [Run.alignAll_srcs, getD_map_signI, getD_map_signI, Run.satFlag_srcs] at hf
  simp only [signI_mul_signI, vecAngle_signI] at hf
  have hr := (((Run.Results.nil (Run.start s e t st) gd).wr hgd (ofInt m.1) false false).wr hgd (vecAngle y x) false false).flag
    (m.2 ||| qSat (st.cur.nats ga 2))
  exact Writes.of_results (isF := false) h rfl hf hgd hr (by simp)

/-! Sums of angles (R138, R140). -/

theorem opAngadd_eq {gd ga gb : Fin 32} (r : Run) (hgd : gd.val ≠ 0) :
    let x := (r.g ga).asType false
    let y := (r.g gb).asType false
    opAngadd gd ga gb r = .ok (r.wr gd (x.raw + (if x.tag = y.tag then y.raw else -y.raw)) x.tag false) := by
  simp only [opAngadd, Run.group_one_ok (ga := 0) (na := 0) (nd := 1) (Nat.zero_le 32) gd.isLt hgd]
  rfl

/-- The sum of two angles aligned to the first tag stands for the sum of the native angles. -/
theorem native_angle_add (x y : GReg) :
    GReg.native ⟨(x.asType false).raw + (if (x.asType false).tag = (y.asType false).tag then (y.asType false).raw
      else -(y.asType false).raw), (x.asType false).tag, false⟩ = x.native + y.native := by
  rw [GReg.native_eq_raw_asType x, GReg.native_eq_raw_asType y]
  cases (x.asType false).tag <;> cases (y.asType false).tag <;> simp [GReg.native, mirrorWord, add_comm]

/-- ANGADD gives the sum of the native angles, modulo a turn. -/
theorem Writes.angadd {s : State} {e : Fin 16} {t : Task} {st : Step} (h : Running s e t st) {gd : Fin 32} (ga gb : Fin 32)
    (hgd : gd.val ≠ 0) : Writes (.angadd e gd ga gb) s e st 1 gd [st.cur.nat ga + st.cur.nat gb] false 0 := by
  have hr := (Run.Results.nil (Run.start s e t st) gd).wr hgd
  have hw := Writes.of_results (i := .angadd e gd ga gb) (isF := false) h rfl (opAngadd_eq _ hgd) hgd (hr _ _ false) (by simp)
  simp only [List.nil_append, List.map_cons, List.map_nil, native_angle_add] at hw
  exact hw

/-- Settles O5: the aligned sources of a transform are its native ones, all negated where the first tag is 1, and each
transform keeps that sign or does not depend on it. -/
theorem fieldTransforms : Obligations.FieldTransforms := by
  intro s e t st h gd ga gb hgd
  exact ⟨Writes.of_opLinear h rfl clarkeOf_odd hgd, Writes.of_opLinear h rfl clarke2Of_odd hgd,
    Writes.of_opLinear h rfl iclarkeOf_odd hgd, Writes.of_opPark (inverse := false) h rfl hgd,
    Writes.of_opPark (inverse := true) h rfl hgd, Writes.sincos h ga hgd, Writes.vec h hgd, Writes.angadd h ga gb hgd⟩

end Sys2Proof.Machine
end

section
/-! Command inputs (R236 to R239): the frame of an operation on the state, a STOP of an axis, and what the counting of a
sample and the taking of a raw value leave in CMDST and in the entry of the input. -/

namespace Sys2Proof.Machine

/-! Frames put together. -/

theorem Part.same_refl (s : State) (p : Part) : p.same s s := by
  cases p with
  | ptp | own => exact ⟨rfl, rfl⟩
  | _ => rfl

theorem Part.same_trans {s t u : State} {p : Part} (h : p.same s t) (k : p.same t u) : p.same s u := by
  cases p with
  | ptp | own => exact ⟨h.1.trans k.1, h.2.trans k.2⟩
  | _ => exact Eq.trans h k

/-- The frame over the parts of the state and the frame over the register file. -/
structure Framed (l : List Part) (rs : List Reg) (s t : State) : Prop where
  parts : OnlyChanges l s t
  regs : OnlyRegsOf rs s t

section
variable {l m : List Part} {rs qs : List Reg} {s t u : State}

theorem Framed.refl (l : List Part) (rs : List Reg) (s : State) : Framed l rs s s :=
  ⟨⟨rfl, fun p _ => p.same_refl s⟩, fun _ _ => rfl⟩

theorem Framed.trans (h : Framed l rs s t) (k : Framed l rs t u) : Framed l rs s u :=
  ⟨⟨k.parts.1.trans h.parts.1, fun p hp => Part.same_trans (h.parts.2 p hp) (k.parts.2 p hp)⟩,
    fun a ha => (k.regs a ha).trans (h.regs a ha)⟩

theorem Framed.mono (hl : l ⊆ m) (hr : rs ⊆ qs) (h : Framed l rs s t) : Framed m qs s t :=
  ⟨⟨h.parts.1, fun p hp => h.parts.2 p fun hm => hp (hl hm)⟩, fun a ha => h.regs a fun r hm => ha r (hr hm)⟩

theorem Framed.p (s : State) {f : FRef} {i : Nat} (x : Nat) (hl : .regs ∈ l) (hf : f.reg ∈ rs)
    (hi : i ≤ f.reg.n1 * f.reg.n2) : Framed l rs s (s.p f i x) := by
  refine ⟨⟨rfl, fun p hp => ?_⟩, fun _ ha => State.regs_setWord_ne s _ (ha f.reg hf i hi)⟩
  cases p with
  | regs => exact absurd hl hp
  | ptp | own => exact ⟨rfl, rfl⟩
  | _ => rfl

/-- A change of the events and axes alone. -/
theorem Framed.of_ev_axes (h : t = { s with ev := t.ev, axes := t.axes }) (he : .ev ∈ l) (ha : .axes ∈ l) :
    Framed l rs s t := by
  refine ⟨⟨by rw [h], fun p hp => ?_⟩, fun _ _ => by rw [h]⟩
  cases p with
  | ev => exact absurd he hp
  | axes => exact absurd ha hp
  | ptp | own => rw [h]; exact ⟨rfl, rfl⟩
  | _ => rw [h]; rfl

/-- A change of the command inputs and of the count of free values alone. -/
theorem Framed.of_cmdin_own (h : t = { s with cmdin := t.cmdin, freeCtr := t.freeCtr }) (hc : .cmdin ∈ l)
    (ho : .own ∈ l) : Framed l rs s t := by
  refine ⟨⟨by rw [h], fun p hp => ?_⟩, fun _ _ => by rw [h]⟩
  cases p with
  | cmdin => exact absurd hc hp
  | own => exact absurd ho hp
  | ptp => rw [h]; exact ⟨rfl, rfl⟩
  | _ => rw [h]; rfl

/-- A field of a register outside the frame reads as before. -/
theorem Framed.g (h : Framed l rs s t) {f : FRef} {i : Nat}
    (hf : ∀ r ∈ rs, ∀ k, k ≤ r.n1 * r.n2 → f.reg.addr i ≠ r.addr k) : t.g f i = s.g f i := by
  unfold State.g State.word
  rw [h.regs _ hf]

end

/-! STOP of an axis. -/

theorem State.holdOff_of_not_held {s : State} {n st : Nat} (h1 : st ≠ 1) (h2 : st ≠ 2) : State.holdOff n st s = s := by
  unfold State.holdOff
  exact if_neg fun h => h.1.elim h1 h2

/-- The frame of what moves an axis without turning its unit off. -/
abbrev AxisFramed : State → State → Prop := Framed [.regs, .ev, .axes] [CTL.AXST]

theorem axisFramed_p (s : State) {f : FRef} (n : Fin 8) (x : Nat) (hf : f.reg = CTL.AXST) : AxisFramed s (s.p f n x) :=
  Framed.p s x (by simp) (by simp [hf]) (by rw [hf]; exact n.isLt.le)

theorem axisFramed_raise (s : State) (isl src tag : Nat) : AxisFramed s (s.raise isl src tag) :=
  Framed.of_ev_axes (by unfold State.raise State.raiseFull; split <;> rfl) (by simp) (by simp)

theorem axisFramed_modAxis (s : State) (n : Nat) (f : Axis → Axis) : AxisFramed s (State.modAxis n f s) :=
  Framed.of_ev_axes rfl (by simp) (by simp)

/-- A state that is not held off changes the axis alone. -/
theorem axisFramed_setAxis (s : State) (n : Fin 8) {st : Nat} (h1 : st ≠ 1) (h2 : st ≠ 2) :
    AxisFramed s (State.setAxis n st s) := by
  unfold State.setAxis
  dsimp only
  split
  · exact Framed.refl _ _ s
  · simp only [State.holdOff_of_not_held h1 h2]
    exact ((axisFramed_p s n st (f := CTL.AXST_STATE) rfl).trans (axisFramed_raise _ 1 0x80 n)).trans
      (axisFramed_modAxis _ n _)

theorem axisFramed_axGo {s : State} (n r : Nat) {f : State → State} (h : AxisFramed s (f s)) :
    AxisFramed s (State.axGo n r f s) := by
  unfold State.axGo
  dsimp only
  split
  · exact Framed.refl _ _ s
  · split
    · exact h
    · exact h.trans (axisFramed_modAxis _ n _)

theorem axisFramed_axStop (s : State) (n : Fin 8) : AxisFramed s (State.axStop n s) := by
  unfold State.axStop
  split
  · split
    · exact axisFramed_axGo n 7 (axisFramed_setAxis s n (by decide) (by decide))
    · exact axisFramed_modAxis s n _
  · exact Framed.refl _ _ s

/-- No AXST word lies among those of CMDST. -/
theorem AxisFramed.g_cmdst {s t : State} (h : AxisFramed s t) {f : FRef} (hf : f.reg = CTL.CMDST) (n : Fin 8) :
    t.g f n = s.g f n := by
  refine Framed.g h fun r hr k hk => ?_
  rw [List.mem_singleton.mp hr] at hk ⊢
  rw [hf]
  simp only [Reg.addr, CTL.AXST, CTL.CMDST] at hk ⊢
  omega

theorem AxisFramed.cin {s t : State} (h : AxisFramed s t) (n : Nat) : t.cin n = s.cin n := by
  have hc : s.cmdin = t.cmdin := h.parts.2 .cmdin (by simp)
  unfold State.cin
  rw [hc]

/-! The words and the entry of a command input. -/

/-- The frame of an operation on a command input. -/
abbrev InputFramed : State → State → Prop :=
  Framed [.regs, .ev, .axes, .cmdin, .chans, .edges, .own] [CTL.AXST, CTL.CMDST, FBRK.BRST]

theorem AxisFramed.input {s t : State} (h : AxisFramed s t) : InputFramed s t := Framed.mono (by simp) (by simp) h

theorem inputFramed_p (s : State) {f : FRef} (n : Fin 8) (x : Nat) (hf : f.reg = CTL.CMDST) :
    InputFramed s (s.p f n x) :=
  Framed.p s x (by simp) (by simp [hf]) (by rw [hf]; exact n.isLt.le)

theorem inputFramed_used (s : State) : InputFramed s s.used := Framed.of_cmdin_own rfl (by simp) (by simp)

/-- Change the entry of a command input. -/
def State.modCin (n : Nat) (f : CmdIn → CmdIn) (s : State) : State := { s with cmdin := upd s.cmdin n f }

theorem inputFramed_modCin (s : State) (n : Nat) (f : CmdIn → CmdIn) : InputFramed s (State.modCin n f s) :=
  Framed.of_cmdin_own rfl (by simp) (by simp)

@[simp] theorem State.modCin_cin (s : State) (n : Fin 8) (f : CmdIn → CmdIn) :
    (State.modCin n f s).cin n = f (s.cin n) := by
  unfold State.cin State.modCin at'
  rw [dif_pos n.isLt, dif_pos n.isLt, upd_get, if_pos rfl]

@[simp] theorem State.modCin_g (s : State) (n : Nat) (f : CmdIn → CmdIn) (h : FRef) (i : Nat) :
    (State.modCin n f s).g h i = s.g h i := rfl

@[simp] theorem State.modCin_gb (s : State) (n : Nat) (f : CmdIn → CmdIn) (h : FRef) (i : Nat) :
    (State.modCin n f s).gb h i = s.gb h i := rfl

@[simp] theorem State.p_cin (s : State) (f : FRef) (i x n : Nat) : (s.p f i x).cin n = s.cin n := by
  unfold State.cin
  rw [State.p_cmdin]

@[simp] theorem State.used_cin (s : State) (n : Nat) : s.used.cin n = s.cin n := by
  unfold State.cin
  rw [State.used_cmdin]

@[simp] theorem State.used_word (s : State) (r : Reg) (i : Nat) : s.used.word r i = s.word r i := by
  unfold State.word
  rw [State.used_regs]

@[simp] theorem State.used_g (s : State) (f : FRef) (i : Nat) : s.used.g f i = s.g f i := by
  unfold State.g
  rw [State.used_word]

theorem State.gb_congr {s t : State} {f : FRef} {i : Nat} (h : t.g f i = s.g f i) : t.gb f i = s.gb f i := by
  unfold State.gb
  rw [h]

/-- Another field of the same register reads as before. -/
theorem State.g_pb_other (s : State) (f h : FRef) (i : Nat) (b : Bool) (hr : h.reg = f.reg) (hf : f.lo + f.w ≤ 32)
    (hd : f.lo + f.w ≤ h.lo ∨ h.lo + h.w ≤ f.lo) : (s.pb f i b).g h i = s.g h i := State.g_p_other s _ hr hf hd

@[simp] theorem State.pb_cin (s : State) (f : FRef) (i n : Nat) (b : Bool) : (s.pb f i b).cin n = s.cin n :=
  State.p_cin ..

theorem State.gb_pb (s : State) (f : FRef) (i : Nat) (b : Bool) (hf : f.lo + f.w ≤ 32) (hw : 0 < f.w) :
    (s.pb f i b).gb f i = b := by
  have hx : (if b then 1 else 0) < 2 ^ f.w := by
    have := Nat.pow_le_pow_right (n := 2) (by decide) hw
    split <;> omega
  unfold State.gb State.pb
  rw [State.g_p s f i _ hf hx]
  cases b <;> rfl

/-! VALID. -/

/-- From `s` to `t`, VALID has become `v`; the other fields that a raw value sets, and the entry but for its last valid
value, are as before. -/
structure InputJudged (n : Fin 8) (v : Bool) (s t : State) : Prop where
  valid : t.gb CTL.CMDST_VALID n = v
  raw : t.g CTL.CMDST_RAW n = s.g CTL.CMDST_RAW n
  clip : t.g CTL.CMDST_CLIP n = s.g CTL.CMDST_CLIP n
  entry : ∃ x, t.cin n = { s.cin n with lastValid := x }
  frame : InputFramed s t

theorem inputJudged_pb (s : State) (n : Fin 8) (v : Bool) : InputJudged n v s (s.pb CTL.CMDST_VALID n v) where
  valid := State.gb_pb s _ _ v (by decide) (by decide)
  raw := State.g_pb_other s _ _ n v rfl (by decide) (by decide)
  clip := State.g_pb_other s _ _ n v rfl (by decide) (by decide)
  entry := ⟨_, State.pb_cin ..⟩
  frame := inputFramed_p s n _ rfl

/-- LOSS is another field of CMDST (R239). -/
theorem InputJudged.loss {n : Fin 8} {v : Bool} {s t : State} (h : InputJudged n v s t) (b : Bool) :
    InputJudged n v s (t.pb CTL.CMDST_LOSS n b) := by
  constructor
  case valid =>
    rw [State.gb_congr (State.g_pb_other t CTL.CMDST_LOSS CTL.CMDST_VALID n b rfl (by decide) (by decide)), h.valid]
  case raw => rw [State.g_pb_other t CTL.CMDST_LOSS CTL.CMDST_RAW n b rfl (by decide) (by decide), h.raw]
  case clip => rw [State.g_pb_other t CTL.CMDST_LOSS CTL.CMDST_CLIP n b rfl (by decide) (by decide), h.clip]
  case entry => rw [State.pb_cin]; exact h.entry
  case frame => exact h.frame.trans (inputFramed_p t n _ rfl)

/-- What moves the axis alone leaves the command input alone. -/
theorem InputJudged.axis {n : Fin 8} {v : Bool} {s t u : State} (h : InputJudged n v s t) (k : AxisFramed t u) :
    InputJudged n v s u where
  valid := (State.gb_congr (k.g_cmdst rfl n)).trans h.valid
  raw := (k.g_cmdst rfl n).trans h.raw
  clip := (k.g_cmdst rfl n).trans h.clip
  entry := by rw [k.cin]; exact h.entry
  frame := h.frame.trans k.input

theorem InputJudged.lastValid {n : Fin 8} {v : Bool} {s t : State} (h : InputJudged n v s t) :
    InputJudged n v s (State.modCin n (fun c => { c with lastValid := c.value }) t) where
  valid := h.valid
  raw := h.raw
  clip := h.clip
  entry := by obtain ⟨x, hx⟩ := h.entry; exact ⟨_, by rw [State.modCin_cin, hx]⟩
  frame := h.frame.trans (inputFramed_modCin t n _)

/-- VALID becomes `v` in each branch: a loss with its reaction, a valid value, and neither (R239). -/
theorem inputJudged_cinValid (s : State) (n : Fin 8) (v : Bool) : InputJudged n v s (State.cinValid n v s) := by
  have h := inputJudged_pb s n v
  unfold State.cinValid
  dsimp only
  split
  · have hl := ((h.loss true).axis (axisFramed_p _ n 1 (f := CTL.AXST_CMDLOSS) rfl)).axis (axisFramed_raise _ 1 0x86 n)
    split
    · exact hl.axis (axisFramed_axStop _ n)
    · exact hl
  · split
    · exact h.lastValid
    · exact h

/-- The count toward VALID after a sample (R238). -/
def State.cinGoodAfter (s : State) (n : Nat) (good : Bool) : Nat := if good then (s.cin n).good + 1 else 0

/-- A sample counts, and VALID follows the count (R238). -/
theorem inputJudged_cinCount (s : State) (n : Fin 8) (good : Bool) :
    InputJudged n (decide (2 ≤ s.cinGoodAfter n good))
      (State.modCin n (fun c => { c with good := s.cinGoodAfter n good }) s) (State.cinCount n good s) :=
  inputJudged_cinValid _ n _

/-! The raw value. -/

/-- The raw values in use with a new one (R237). -/
def State.cinLast (s : State) (n raw : Nat) : List Nat := (raw :: (s.cin n).raws).take (2 ^ s.g CTL.CMDCFG_FILT n)

/-- The linear value of their mean, before it is clipped (R237). -/
def State.cinLinear (s : State) (n raw : Nat) : Int :=
  rndDiv ((meanOf (s.cinLast n raw) - sval (s.word CTL.CMDOFF n)) * sval (s.word CTL.CMDGAIN n))
    (2 ^ s.g CTL.CMDCFG_SH n : Nat)

/-- Their mean lies within the limits (R238). -/
def State.cinWithin (s : State) (n raw : Nat) : Bool :=
  decide ((s.g CTL.CMDLIM_LOLIM n : Int) ≤ meanOf (s.cinLast n raw) ∧ meanOf (s.cinLast n raw) ≤ s.g CTL.CMDLIM_HILIM n)

@[simp] theorem State.used_cinLast (s : State) (n x : Nat) : s.used.cinLast n x = s.cinLast n x := by
  unfold State.cinLast
  rw [State.used_cin, State.used_g]

@[simp] theorem State.used_cinLinear (s : State) (n x : Nat) : s.used.cinLinear n x = s.cinLinear n x := by
  unfold State.cinLinear
  rw [State.used_cinLast, State.used_word, State.used_word, State.used_g]

@[simp] theorem State.used_cinWithin (s : State) (n x : Nat) : s.used.cinWithin n x = s.cinWithin n x := by
  unfold State.cinWithin
  rw [State.used_cinLast, State.used_g, State.used_g]

/-- The step of R237: RAW and CLIP, then the entry; told beside it, whether the mean lies within the limits. -/
theorem State.cinRaw_eq (s : State) (n raw : Nat) :
    State.cinRaw n raw s =
      (State.modCin n
        (fun c => { c with raws := s.cinLast n raw, value := sat31 (s.cinLinear n raw), stamp := s.tbase })
        ((s.p CTL.CMDST_RAW n raw).pb CTL.CMDST_CLIP n (sat31 (s.cinLinear n raw) != s.cinLinear n raw)),
      s.cinWithin n raw) := rfl

/-- From `s` to `t`, command input `n` has taken the raw value `x`. -/
structure InputTook (n : Fin 8) (x : Nat) (s t : State) : Prop where
  raw : t.g CTL.CMDST_RAW n = x
  raws : (t.cin n).raws = s.cinLast n x
  value : (t.cin n).value = sat31 (s.cinLinear n x)
  stamp : (t.cin n).stamp = s.tbase
  clip : t.gb CTL.CMDST_CLIP n = (sat31 (s.cinLinear n x) != s.cinLinear n x)
  frame : InputFramed s t

theorem inputTook_cinRaw (s : State) (n : Fin 8) {x : Nat} (h : x < 2 ^ 16) :
    InputTook n x s (State.cinRaw n x s).1 := by
  rw [State.cinRaw_eq]
  constructor
  case raw =>
    rw [State.modCin_g, State.g_pb_other _ CTL.CMDST_CLIP CTL.CMDST_RAW n _ rfl (by decide) (by decide),
      State.g_p s _ _ _ (by decide) h]
  case raws => rw [State.modCin_cin]
  case value => rw [State.modCin_cin]
  case stamp => rw [State.modCin_cin]
  case clip => rw [State.modCin_gb, State.gb_pb _ _ _ _ (by decide) (by decide)]
  case frame =>
    exact ((inputFramed_p s n x rfl).trans (inputFramed_p _ n _ rfl)).trans (inputFramed_modCin _ n _)

/-- A raw value leaves VALID as it is. -/
theorem State.cinRaw_valid (s : State) (n : Fin 8) (x : Nat) :
    (State.cinRaw n x s).1.gb CTL.CMDST_VALID n = s.gb CTL.CMDST_VALID n := by
  have hclip := fun (t : State) b => State.g_pb_other t CTL.CMDST_CLIP CTL.CMDST_VALID n b rfl (by decide) (by decide)
  have hraw := State.g_p_other s (f := CTL.CMDST_RAW) (h := CTL.CMDST_VALID) (i := n) x rfl (by decide) (by decide)
  rw [State.cinRaw_eq, State.modCin_gb, State.gb_congr (hclip _ _), State.gb_congr hraw]

/-- A raw value leaves the count toward VALID as it is. -/
theorem State.cinRaw_good (s : State) (n : Fin 8) (x : Nat) (good : Bool) :
    (State.cinRaw n x s).1.cinGoodAfter n good = s.cinGoodAfter n good := by
  unfold State.cinGoodAfter
  rw [State.cinRaw_eq, State.modCin_cin, State.pb_cin, State.p_cin]

theorem InputTook.counted {n : Fin 8} {x : Nat} {s t : State} (h : InputTook n x s t) (k : Nat) :
    InputTook n x s (State.modCin n (fun c => { c with good := k }) t) where
  raw := h.raw
  raws := by rw [State.modCin_cin]; exact h.raws
  value := by rw [State.modCin_cin]; exact h.value
  stamp := by rw [State.modCin_cin]; exact h.stamp
  clip := h.clip
  frame := h.frame.trans (inputFramed_modCin t n _)

/-- The judgement of VALID keeps what was taken. -/
theorem InputTook.judged {n : Fin 8} {x : Nat} {v : Bool} {s t u : State} (h : InputTook n x s t)
    (k : InputJudged n v t u) : InputTook n x s u := by
  obtain ⟨y, hy⟩ := k.entry
  exact ⟨k.raw.trans h.raw, by rw [hy]; exact h.raws, by rw [hy]; exact h.value, by rw [hy]; exact h.stamp,
    (State.gb_congr k.clip).trans h.clip, h.frame.trans k.frame⟩

/-- From `s` to `t`, a raw value has been taken and its sample counted. -/
def InputSampled (n : Fin 8) (x : Nat) (good : Bool) (s t : State) : Prop :=
  InputTook n x s t ∧ t.gb CTL.CMDST_VALID n = decide (2 ≤ s.cinGoodAfter n good)

theorem inputSampled_cinCount (s : State) (n : Fin 8) {x : Nat} (h : x < 2 ^ 16) (good : Bool) :
    InputSampled n x good s (State.cinCount n good (State.cinRaw n x s).1) := by
  have k := inputJudged_cinCount (State.cinRaw n x s).1 n good
  exact ⟨((inputTook_cinRaw s n h).counted _).judged k, by rw [k.valid, State.cinRaw_good]⟩

/-- The use of a free value is nothing that a sample reads (log entry 21). -/
theorem InputSampled.of_used {n : Fin 8} {x : Nat} {good : Bool} {s t : State} (h : InputSampled n x good s.used t) :
    InputSampled n x good s t := by
  obtain ⟨ht, hv⟩ := h
  have hg : s.used.cinGoodAfter n good = s.cinGoodAfter n good := by unfold State.cinGoodAfter; rw [State.used_cin]
  exact ⟨⟨ht.raw, ht.raws.trans (s.used_cinLast ..), by rw [ht.value, State.used_cinLinear], ht.stamp,
    by rw [ht.clip, State.used_cinLinear], (inputFramed_used s).trans ht.frame⟩, by rw [hv, hg]⟩

/-! A sample, a period and a missing edge, by MODE (R236). -/

theorem State.cinSample_analogue {s : State} (n : Nat) (code : BitVec 16) (high period : Nat) (hup : s.up = true)
    (h : s.g CTL.CMDCFG_MODE n = 1) :
    State.cinSample n code high period s
      = State.cinCount n (s.cinWithin n code.toNat) (State.cinRaw n code.toNat s).1 := by
  simp only [State.cinSample, hup, h, Bool.not_true, Bool.false_eq_true, if_false, State.cinRaw_eq]

theorem State.cinSample_pwm {s : State} (n : Nat) (code : BitVec 16) (high : Nat) {period x : Nat} {ok : Bool}
    (hup : s.up = true) (hp : 0 < period) (h : 2 ≤ s.g CTL.CMDCFG_MODE n) (hx : s.cinSignal n high period = (x, ok)) :
    State.cinSample n code high period s
      = State.cinCount n (ok && s.used.cinWithin n x) (State.cinRaw n x s.used).1 := by
  unfold State.cinSample
  rw [hup]
  dsimp only
  split
  · contradiction
  · split
    · omega
    · omega
    · rw [if_neg hp.ne', hx, State.cinRaw_eq]

theorem State.cinSignal_duty {s : State} {n : Nat} (high period : Nat) (h : s.g CTL.CMDCFG_MODE n = 2) :
    s.cinSignal n high period
      = (min 65535 (s.openDiv (high * 65536) period), decide (9800 ≤ period ∧ period ≤ 204000)) := if_pos h

theorem State.cinSignal_frequency {s : State} {n : Nat} (high : Nat) {period : Nat} (h : s.g CTL.CMDCFG_MODE n = 3)
    (hz : (rndDiv 200000000 (period : Nat)).toNat < 65536) :
    s.cinSignal n high period
      = ((rndDiv 200000000 (period : Nat)).toNat, decide ((rndDiv 200000000 (period : Nat)).toNat ≤ 50000)) := by
  unfold State.cinSignal
  rw [if_neg (by omega)]
  dsimp only
  rw [if_pos hz]

theorem State.cinTimeout_duty {s : State} {n : Nat} (h : s.g CTL.CMDCFG_MODE n = 2) :
    State.cinTimeout n s = State.cinCount n false s := by
  unfold State.cinTimeout
  rw [h]
  rfl

theorem State.cinTimeout_frequency {s : State} {n : Fin 8} (h : s.g CTL.CMDCFG_MODE n = 3) :
    State.cinTimeout n s =
      if s.gb CTL.CMDCFG_ZEROOK n && s.cinWithin n 0 then
        if s.gb CTL.CMDST_VALID n then State.cinValid n true (State.cinRaw n 0 s).1 else (State.cinRaw n 0 s).1
      else State.cinCount n false (State.cinRaw n 0 s).1 := by
  unfold State.cinTimeout
  rw [h]
  dsimp only
  rw [State.cinRaw_valid, State.cinRaw_eq]
  rfl

/-- Without an edge the duty is not valid, and its value stays (R238). -/
theorem cinCount_false (s : State) (n : Fin 8) :
    let t := State.cinCount n false s
    t.gb CTL.CMDST_VALID n = false ∧ (t.cin n).good = 0 ∧ (t.cin n).value = (s.cin n).value ∧ InputFramed s t := by
  have k := inputJudged_cinCount s n false
  obtain ⟨x, hx⟩ := k.entry
  rw [State.modCin_cin] at hx
  exact ⟨k.valid, by rw [hx]; rfl, by rw [hx], (inputFramed_modCin s n _).trans k.frame⟩

/-- Without an edge the frequency is 0, which stays valid where ZEROOK says so and the mean is within the limits
(R238). -/
theorem inputTook_cinTimeout {s : State} {n : Fin 8} (h : s.g CTL.CMDCFG_MODE n = 3) :
    let t := State.cinTimeout n s
    InputTook n 0 s t ∧ t.gb CTL.CMDST_VALID n
      = (s.gb CTL.CMDST_VALID n && s.gb CTL.CMDCFG_ZEROOK n && s.cinWithin n 0) := by
  have ht := inputTook_cinRaw s n (x := 0) (by decide)
  rw [State.cinTimeout_frequency h, Bool.and_assoc]
  by_cases hz : (s.gb CTL.CMDCFG_ZEROOK n && s.cinWithin n 0) = true
  · rw [if_pos hz, hz, Bool.and_true]
    by_cases hv : s.gb CTL.CMDST_VALID n = true
    · have k := inputJudged_cinValid (State.cinRaw n 0 s).1 n true
      rw [if_pos hv]
      exact ⟨ht.judged k, k.valid.trans hv.symm⟩
    · rw [if_neg hv]
      exact ⟨ht, State.cinRaw_valid s n 0⟩
  · rw [if_neg hz, Bool.eq_false_of_not_eq_true hz, Bool.and_false]
    exact inputSampled_cinCount s n (by decide) false

theorem inputSampled_analogue {s : State} (n : Fin 8) (code : BitVec 16) (high period : Nat) (hup : s.up = true)
    (h : s.g CTL.CMDCFG_MODE n = 1) :
    InputSampled n code.toNat (s.cinWithin n code.toNat) s (State.cinSample n code high period s) := by
  rw [State.cinSample_analogue n code high period hup h]
  exact inputSampled_cinCount s n code.isLt _

theorem inputSampled_pwm {s : State} (n : Fin 8) (code : BitVec 16) {high period x : Nat} {ok : Bool}
    (hup : s.up = true) (hp : 0 < period) (h : 2 ≤ s.g CTL.CMDCFG_MODE n)
    (hx : s.cinSignal n high period = (x, ok)) (hlt : x < 2 ^ 16) :
    InputSampled n x (ok && s.cinWithin n x) s (State.cinSample n code high period s) := by
  rw [State.cinSample_pwm n code high hup hp h hx, State.used_cinWithin]
  exact (inputSampled_cinCount s.used n hlt _).of_used

/-! The statement. -/

/-- What is taken, field by field, as the statement says it. -/
theorem InputTook.fields {n : Fin 8} {x : Nat} {s t : State} (h : InputTook n x s t) :
    t.g CTL.CMDST_RAW n = x ∧ (t.cin n).raws = s.cinLast n x ∧ (t.cin n).value = sat31 (s.cinLinear n x)
      ∧ (t.cin n).stamp = s.tbase ∧ t.gb CTL.CMDST_CLIP n = (sat31 (s.cinLinear n x) != s.cinLinear n x)
      ∧ OnlyChanges [.regs, .ev, .axes, .cmdin, .chans, .edges, .own] s t
      ∧ OnlyRegsOf [CTL.AXST, CTL.CMDST, FBRK.BRST] s t :=
  ⟨h.raw, h.raws, h.value, h.stamp, h.clip, h.frame.parts, h.frame.regs⟩

theorem exec_cmdinSample (s : State) (n : Fin 8) (code : BitVec 16) (high period : Nat) :
    exec (.cmdinSample n code high period) s = .next (State.cinSample n code high period s) := rfl

theorem exec_cmdinEdgeTimeout {s : State} (n : Fin 8) (hup : s.up = true) :
    exec (.cmdinEdgeTimeout n) s = .next (State.cinTimeout n s) := by
  change execCmdinEdgeTimeout n s = _
  unfold execCmdinEdgeTimeout
  rw [if_pos hup]

/-- Settles O20: each way of reading an input takes one raw value and counts one sample; a missing edge counts a bad
sample, or takes the raw value 0. -/
theorem commandInputs : Obligations.CommandInputs := by
  intro s n code high period hup
  dsimp only
  refine ⟨fun h => ?analogue, fun h hp => ?duty, fun h hp hz => ?frequency, fun h => ?noDuty, fun h => ?noFrequency⟩
  case analogue =>
    obtain ⟨ht, hv⟩ := inputSampled_analogue n code high period hup h
    exact ⟨_, exec_cmdinSample .., ht.fields, hv⟩
  case duty =>
    have hx : min 65535 (s.openDiv (high * 65536) period) < 2 ^ 16 := by omega
    obtain ⟨ht, hv⟩ := inputSampled_pwm n code hup hp h.ge (State.cinSignal_duty high period h) hx
    exact ⟨_, exec_cmdinSample .., ht.fields, hv⟩
  case frequency =>
    obtain ⟨ht, hv⟩ := inputSampled_pwm n code hup hp (by omega) (State.cinSignal_frequency high h hz) hz
    exact ⟨_, exec_cmdinSample .., ht.fields, hv⟩
  case noDuty =>
    obtain ⟨hv, hg, hy, hf⟩ := cinCount_false s n
    rw [← State.cinTimeout_duty h] at hv hg hy hf
    exact ⟨_, exec_cmdinEdgeTimeout n hup, hv, hg, hy, hf.parts, hf.regs⟩
  case noFrequency =>
    obtain ⟨ht, hv⟩ := inputTook_cinTimeout h
    exact ⟨_, exec_cmdinEdgeTimeout n hup, ht.fields, hv⟩

end Sys2Proof.Machine
end

section
/-! PEAK choppers and discharges (R265, R267, R289): a change of one link's entry, what a check of a discharge that is
told leaves, and the statement about both. -/

namespace Sys2Proof.Machine

/-! The entry of a link. -/

theorem State.link_eq (s : State) (l : Fin 4) : s.link l = s.links[l] := dif_pos l.isLt

@[simp] theorem State.modLink_links_same (s : State) (l : Fin 4) (f : Link → Link) :
    (State.modLink l f s).links[l] = f s.links[l] := by
  change (upd s.links l f)[l.val] = f s.links[l.val]
  rw [upd_get, if_pos rfl]

theorem State.modLink_modLink (s : State) (l : Nat) (f g : Link → Link) :
    State.modLink l g (State.modLink l f s) = State.modLink l (fun x => g (f x)) s := by
  unfold State.modLink upd
  split
  · simp
  · rfl

@[simp] theorem State.modLink_brkAllowed (s : State) (l : Nat) (f : Link → Link) :
    (State.modLink l f s).brkAllowed = s.brkAllowed := rfl

theorem onlyChanges_modLink (s : State) (l : Nat) (f : Link → Link) : OnlyChanges [.links] s (State.modLink l f s) := by
  refine ⟨rfl, fun p hp => ?_⟩
  cases p with
  | links => exact absurd (by simp) hp
  | ptp | own => exact ⟨rfl, rfl⟩
  | _ => rfl

/-! The PEAK chopper (R265, R289). -/

theorem State.chopOn_of_allowed {s : State} (h : s.brkAllowed = true) (l : Nat) :
    State.chopOn l s = State.modLink l (fun x => { x with chopOn := true }) s := if_pos h

/-- The hysteresis at a period's start: on from VON, and on above VOFF where the period before began with the chopper on,
whatever switched it off since (log entry 51). -/
def State.peakOn (s : State) (l : Fin 4) : Bool :=
  decide ((s.g DCL.VTH_VON l : Int) ≤ s.vdc16 l)
    || (s.links[l].began && decide ((s.g DCL.VTH_VOFF l : Int) < s.vdc16 l))

/-- A period takes its current code and its switching state, where the mode lets BRK be driven. -/
theorem State.chopperPeriod_peak {s : State} {l : Fin 4} (hm : s.peakMode l = true) (hb : s.brkAllowed = true) :
    State.chopperPeriod l s = State.modLink l (fun x =>
      { x with period := some s.tbase, ipk := s.peakCode l, dac := max 0 (s.peakCode l), began := s.peakOn l,
               chopOn := s.peakOn l }) s := by
  unfold State.chopperPeriod
  dsimp only
  rw [hm, State.link_eq, ← State.peakOn]
  cases hon : s.peakOn l with
  | true => exact (State.chopOn_of_allowed ((State.modLink_brkAllowed ..).trans hb) l).trans (State.modLink_modLink ..)
  | false => exact State.modLink_modLink ..

theorem exec_chopperPeriodStart (s : State) (l : Fin 4) :
    exec (.chopperPeriodStart l) s = .next (State.chopperPeriod l s) := rfl

theorem exec_chopperCurrentTrip {s : State} {l : Fin 4} (hm : s.peakMode l = true) :
    exec (.chopperCurrentTrip l) s = .next (State.chopOff l s) := by
  change execChopperCurrentTrip l s = _
  rw [execChopperCurrentTrip, if_pos hm]

theorem exec_chopperPeriodLimit {s : State} {l : Fin 4} (hm : s.peakMode l = true) :
    exec (.chopperPeriodLimit l) s = .next (State.chopOff l s) := by
  change execChopperPeriodLimit l s = _
  rw [execChopperPeriodLimit, if_pos hm]

theorem exec_chopperRampUpdate {s : State} {l : Fin 4} {b : Nat} (hm : s.peakMode l = true)
    (hp : s.links[l].period = some b) :
    exec (.chopperRampUpdate l) s = .next (State.modLink l (fun x => { x with dac := s.rampCode l b }) s) := by
  change execChopperRampUpdate l s = _
  rw [execChopperRampUpdate, State.link_eq, hp]
  dsimp only
  rw [if_pos hm]

/-! A raise alone. -/

@[simp] theorem State.raise_gb (s : State) (isl src tag : Nat) (f : FRef) (i : Nat) :
    (s.raise isl src tag).gb f i = s.gb f i := by
  unfold State.gb State.g State.word
  rw [State.raise_regs]

theorem raised_raise (s : State) (isl : Nat) {src tag : Nat} (hs : src < 2 ^ 20) (ht : tag < 2 ^ 8) :
    Raised src tag s (s.raise isl src tag) := by
  unfold Raised State.raise State.raiseFull
  split
  · exact ⟨_, rfl, (BitVec.toNat_ofNat ..).trans (Nat.mod_eq_of_lt hs),
      (BitVec.toNat_ofNat ..).trans (Nat.mod_eq_of_lt ht), rfl⟩
  · rfl

/-! A check of a discharge that is told (R267). -/

/-- The discharge of link `l` becomes `d`, a flag of its STAT is set, and the event of the check is raised. -/
def State.tellDischarge (l : Nat) (d : Disch) (f : FRef) (src : Nat) (s : State) : State :=
  ((State.modLink l (fun x => { x with dsc := some d }) s).pb f l true).raise 1 src l

theorem onlyChanges_tellDischarge (s : State) (l : Nat) (d : Disch) (f : FRef) (src : Nat) :
    OnlyChanges [.regs, .ev, .links] s (State.tellDischarge l d f src s) := by
  refine ⟨State.raise_pending .., fun p hp => ?_⟩
  have h : State.tellDischarge l d f src s =
      { s with regs := (State.tellDischarge l d f src s).regs, ev := (State.tellDischarge l d f src s).ev,
               links := (State.tellDischarge l d f src s).links } := by
    unfold State.tellDischarge State.raise State.raiseFull
    split <;> rfl
  rw [h]
  cases p with
  | regs | ev | links => exact absurd (by simp) hp
  | ptp | own => exact ⟨rfl, rfl⟩
  | _ => rfl

/-- What a told check leaves, the stamp of its event being TBASE (log entry 101). -/
theorem tellDischarge_spec (s : State) (l : Fin 4) (d : Disch) {f : FRef} {src : Nat} (hr : f.reg = DCL.STAT)
    (hf : f.lo + f.w ≤ 32) (hw : 0 < f.w) (hs : src < 2 ^ 20) :
    let t := State.tellDischarge l d f src s
    t.gb f l = true ∧ t.links[l].dsc = some d ∧ Raised src l.val s t
      ∧ OnlyChanges [.regs, .ev, .links] s t ∧ OnlyRegs [DCL.STAT.addr l] s t := by
  dsimp only
  refine ⟨?flag, ?entry, ?told, onlyChanges_tellDischarge .., fun a ha => ?regs⟩
  case flag => rw [State.tellDischarge, State.raise_gb, State.gb_pb _ _ _ _ hf hw]
  case entry => rw [State.tellDischarge, State.raise_links, State.pb_links, State.modLink_links_same]
  case told => exact raised_raise ((State.modLink l _ s).pb f l true) 1 hs (by omega)
  case regs =>
    rw [State.tellDischarge, State.raise_regs, State.pb, State.p,
      State.regs_setWord_ne _ _ (by rw [hr]; exact List.ne_of_not_mem_cons ha)]
    rfl

/-- A told check of a discharge sets nothing in DSC. -/
theorem State.tellDischarge_wen (s : State) (l : Fin 4) (d : Disch) {f : FRef} (src : Nat) (hr : f.reg = DCL.STAT) :
    (State.tellDischarge l d f src s).gb DCL.DSC_WEN l = s.gb DCL.DSC_WEN l := by
  have hne : DCL.DSC_WEN.reg.addr l ≠ f.reg.addr l := by
    rw [hr]
    simp only [Reg.addr, DCL.DSC_WEN, DCL.DSC, DCL.STAT]
    omega
  rw [State.tellDischarge, State.raise_gb, State.pb, State.gb_congr (State.g_p_ne _ _ hne)]
  rfl

/-- Without WEN the link has no winding path (R268). -/
theorem State.windOk_of_not_wen {s : State} {l : Nat} (h : s.gb DCL.DSC_WEN l = false) : s.windOk l = false := by
  simp [State.windOk, h]

theorem exec_dischargeSlowCheck {s : State} {l : Fin 4} {d : Disch} (hd : s.links[l].dsc = some d)
    (hc : d.checked = false) (hv : (d.v0 : Int) * s.g DCL.DSC_KCHK l < s.vdc16 l * 256)
    (hw : s.gb DCL.DSC_WEN l = false) :
    exec (.dischargeSlowCheck l) s
      = .next (State.tellDischarge l { d with checked := true } DCL.STAT_DSCSLOW 0x94 s) := by
  change Host.Outcome.next (State.dscSlow l s) = _
  have hwind : (State.tellDischarge l { d with checked := true } DCL.STAT_DSCSLOW 0x94 s).windOk l = false :=
    State.windOk_of_not_wen ((State.tellDischarge_wen _ _ _ _ rfl).trans hw)
  unfold State.tellDischarge at hwind ⊢
  simp only [State.dscSlow, State.link_eq, hd, hc, hv, hwind, Bool.false_eq_true, if_false, if_true]

theorem exec_dischargeDone {s : State} {l : Fin 4} {d : Disch} (hd : s.links[l].dsc = some d) (hn : d.done = false)
    (hb : d.belowSince.isSome = true) :
    exec (.dischargeDone l) s = .next (State.tellDischarge l { d with done := true } DCL.STAT_DSCDONE 0x95 s) := by
  change Host.Outcome.next (State.dscDone l s) = _
  have hsince : d.belowSince.isNone = false := by rw [← Option.not_isSome, hb]; rfl
  simp only [State.dscDone, State.link_eq, hd, hn, hsince, Bool.or_false, Bool.false_eq_true, if_false,
    State.tellDischarge]

theorem exec_dischargeFail {s : State} {l : Fin 4} {d : Disch} (hd : s.links[l].dsc = some d) (hn : d.done = false)
    (hf : d.failed = false) :
    exec (.dischargeFail l) s = .next (State.tellDischarge l { d with failed := true } DCL.STAT_DSCFAIL 0x96 s) := by
  change Host.Outcome.next (State.dscFail l s) = _
  simp only [State.dscFail, State.link_eq, hd, hn, hf, Bool.or_false, Bool.false_eq_true, if_false,
    State.tellDischarge]

/-! The statement. -/

/-- Settles O25: each event of a PEAK chopper changes its link's entry alone, and each check of a discharge
that is not yet told sets its flag and raises its event once. -/
theorem choppersAndDischarges : Obligations.ChoppersAndDischarges := by
  refine ⟨fun s l hm hb => ?choppers, fun s l d hd => ?discharges⟩
  case choppers =>
    refine ⟨⟨_, exec_chopperPeriodStart s l, ?period⟩, ⟨_, exec_chopperCurrentTrip hm, ?off⟩,
      ⟨_, exec_chopperPeriodLimit hm, ?off⟩, fun b hp => ⟨_, exec_chopperRampUpdate hm hp, ?ramp⟩⟩
    case period =>
      rw [State.chopperPeriod_peak hm hb]
      exact ⟨State.modLink_links_same .., onlyChanges_modLink ..⟩
    case off => exact ⟨State.modLink_links_same .., onlyChanges_modLink ..⟩
    case ramp =>
      refine ⟨?_, onlyChanges_modLink ..⟩
      rw [State.modLink_links_same, State.rampCode, State.link_eq]
  case discharges =>
    refine ⟨fun hc hv hw => ⟨_, exec_dischargeSlowCheck hd hc hv hw, ?slow⟩,
      fun hn hb => ⟨_, exec_dischargeDone hd hn hb, ?done⟩, fun hn hf => ⟨_, exec_dischargeFail hd hn hf, ?fail⟩⟩
    all_goals exact tellDischarge_spec s l _ rfl (by decide) (by decide) (by decide)

end Sys2Proof.Machine
end

section
/-! Event intake and timers (R320, R324, R325): a change of the events alone, what a raise leaves that finds an entry and one
that finds none, and what the end of a window and of a hold-off leaves. -/

namespace Sys2Proof.Machine

/-! The events alone. -/

theorem Framed.of_ev {l : List Part} (rs : List Reg) (s : State) (e : Events) (he : .ev ∈ l) :
    Framed l rs s { s with ev := e } := by
  refine ⟨⟨rfl, fun p hp => ?_⟩, fun _ _ => rfl⟩
  cases p with
  | ev => exact absurd he hp
  | ptp | own => exact ⟨rfl, rfl⟩
  | _ => rfl

theorem onlyChanges_ev (s : State) (e : Events) : OnlyChanges [.ev] s { s with ev := e } :=
  (Framed.of_ev [] s e (List.mem_singleton_self _)).parts

/-! One entry of an array. -/

theorem at'_fin {α : Type} {n : Nat} (v : Vector α n) (i : Fin n) (d : α) : at' v i d = v[i] := dif_pos i.isLt

theorem upd_fin_same {α : Type} {n : Nat} (v : Vector α n) (i : Fin n) (f : α → α) : (upd v i f)[i] = f v[i] :=
  (upd_get v i f i i.isLt).trans (if_pos rfl)

theorem upd_fin_ne {α : Type} {n : Nat} (v : Vector α n) {i j : Fin n} (f : α → α) (h : j ≠ i) :
    (upd v i f)[j] = v[j] :=
  (upd_get v i f j j.isLt).trans (if_neg (Fin.val_ne_of_ne h.symm))

/-! A counter. -/

theorem State.g_of_regs {s t : State} (h : t.regs = s.regs) (f : FRef) (i : Nat) : t.g f i = s.g f i := by
  unfold State.g State.word
  rw [h]

/-- A counter reads one more, up to its greatest value. -/
theorem State.g_inc (s : State) (f : FRef) (i n : Nat) (hf : f.lo + f.w ≤ 32) :
    (s.inc f i n).g f i = min (2 ^ f.w - 1) (s.g f i + n) := by
  have hx : min (2 ^ f.w - 1) (s.g f i + n) < 2 ^ f.w :=
    (min_le_left _ _).trans_lt (Nat.sub_lt (Nat.two_pow_pos f.w) Nat.one_pos)
  exact State.g_p s f i _ hf hx

/-! A raise that reaches MEMF (R320). -/

/-- There is room: fewer than 1,024 records wait, and fewer than 768 of the sources that are not the KJ8's own, if the raise
is of such a source. -/
theorem State.poolRoom_iff (s : State) (r : Raise) :
    s.poolRoom r = true ↔ s.ev.pool.length < 1024
      ∧ (0x400 ≤ r.num → (s.ev.pool.filter fun x => decide (0x400 ≤ x.num)).length < 768) := by
  simp only [State.poolRoom, Bool.and_eq_true, Bool.or_eq_true, decide_eq_true_eq, ← Nat.not_le, imp_iff_not_or]

/-- The earliest raise of island `i` is no longer on its way. -/
def State.arrived (i : Nat) (s : State) : State :=
  { s with ev := { s.ev with inFlight := dropFirst (fun x => x.island == i) s.ev.inFlight } }

theorem State.arrived_poolRoom (i : Nat) (s : State) (r : Raise) : (State.arrived i s).poolRoom r = s.poolRoom r := by
  unfold State.poolRoom State.arrived
  dsimp only

/-- A raise takes an entry of the pool on the present tick (R321). -/
def State.pooled (r : Raise) (s : State) : State :=
  { s with ev := { s.ev with pool := s.ev.pool ++ [{ r with since := s.tbase }] } }

section
variable {s : State} {i : Nat} {r : Raise} (hup : s.up = true)
  (hr : s.ev.inFlight.find? (fun r => r.island == i) = some r)
include hup hr

theorem State.eventIn_of_up : State.eventIn i s =
    if s.poolRoom r then State.pooled r (State.arrived i s) else (State.arrived i s).loseRaise := by
  unfold State.eventIn
  rw [hr]
  dsimp only
  rw [if_neg (by simp [hup]), ← State.arrived, State.arrived_poolRoom]
  rfl

theorem State.eventIn_of_room (h : s.poolRoom r = true) : State.eventIn i s = State.pooled r (State.arrived i s) :=
  (State.eventIn_of_up hup hr).trans (if_pos h)

theorem State.eventIn_of_full (h : ¬s.poolRoom r = true) : State.eventIn i s = (State.arrived i s).loseRaise :=
  (State.eventIn_of_up hup hr).trans (if_neg h)

end

/-! A loss (R320). -/

theorem State.loseRaise_regs (s : State) : s.loseRaise.regs = (s.inc EVT.STAT_LOST 0).regs := by
  unfold State.loseRaise
  rfl

theorem State.loseRaise_g (s : State) :
    s.loseRaise.g EVT.STAT_LOST = min (2 ^ EVT.STAT_LOST.w - 1) (s.g EVT.STAT_LOST + 1) :=
  (State.g_of_regs s.loseRaise_regs _ _).trans (State.g_inc s EVT.STAT_LOST 0 1 (by decide))

/-- The first loss makes the dedicated entry, with the stamp of its tick. -/
theorem State.loseRaise_first {s : State} (h : s.ev.lost = none) : s.loseRaise.ev.lost = some (1, s.tbase, false) := by
  simp only [State.loseRaise, State.inc_ev, h]

/-- A further loss adds to the count that the entry holds, and to nothing else of it. -/
theorem State.loseRaise_further {s : State} {n b : Nat} {d : Bool} (h : s.ev.lost = some (n, b, d)) :
    s.loseRaise.ev.lost = some (min (2 ^ 32 - 1) (n + 1), b, d) := by
  simp only [State.loseRaise, State.inc_ev, h]

theorem framed_loseRaise (s : State) : Framed [.ev, .regs] [EVT.STAT] s s.loseRaise :=
  (Framed.p s _ (f := EVT.STAT_LOST) (i := 0) (by simp) (List.mem_singleton_self _) (Nat.zero_le _)).trans
    (Framed.of_ev _ _ _ (by simp))

theorem onlyRegs_loseRaise (s : State) : OnlyRegs [EVT.STAT.addr 0] s s.loseRaise :=
  fun _ ha => State.regs_setWord_ne s _ (List.ne_of_not_mem_cons ha)

/-! The ends of a window and of a hold-off (R324, R325). -/

theorem State.windowClose_of_open {s : State} {q : Fin 8} (h : s.ev.window[q].isSome = true) :
    State.windowClose q s = { s with ev := { s.ev with
      window := upd s.ev.window q fun _ => none
      pool := s.ev.pool.map fun r =>
        if s.target r == .queue (8 + q.val) then { r with batch := some (8 + q.val) } else r } } := by
  have hopen : ¬(at' s.ev.window q none).isNone = true := by
    rw [at'_fin, Option.isNone_iff_eq_none]
    exact Option.isSome_iff_ne_none.mp h
  exact if_neg hopen

theorem exec_eventRaise (i : Fin 26) (s : State) : exec (.eventRaise i) s = .next (State.eventIn i s) := rfl

theorem exec_moderationWindowClose (q : Fin 8) (s : State) :
    exec (.moderationWindowClose q) s = .next (State.windowClose q s) := rfl

theorem exec_holdOffExpiry (g : Fin 64) (s : State) :
    exec (.holdOffExpiry g) s = .next { s with ev := { s.ev with hold := upd s.ev.hold g.val fun _ => none } } := rfl

/-! The statement. -/

/-- Settles O16: a raise that arrives takes an entry where there is room and is a loss where there is none; a window
and a hold-off that end change the events alone. -/
theorem eventIntakeAndTimers : Obligations.EventIntakeAndTimers := by
  refine ⟨fun s i r hup hr => ?intake, fun s q g => ⟨fun hq => ?window, ?holdOff⟩⟩
  case intake =>
    dsimp only
    rw [← State.poolRoom_iff]
    refine ⟨_, exec_eventRaise i s, ?_⟩
    by_cases hroom : s.poolRoom r = true
    · rw [State.eventIn_of_room hup hr hroom]
      exact ⟨rfl, fun _ => ⟨rfl, rfl, onlyChanges_ev ..⟩, fun h => absurd hroom h⟩
    · rw [State.eventIn_of_full hup hr hroom]
      refine ⟨rfl, fun h => absurd h hroom, fun _ => ⟨rfl, State.loseRaise_g (State.arrived i s), ?lost, ?frame,
        onlyRegs_loseRaise (State.arrived i s)⟩⟩
      case lost =>
        cases hlost : s.ev.lost with
        | none => exact State.loseRaise_first (s := State.arrived i s) hlost
        | some x => exact State.loseRaise_further (s := State.arrived i s) hlost
      case frame => exact ((Framed.of_ev _ s _ (by simp)).trans (framed_loseRaise (State.arrived i s))).parts
  case window =>
    refine ⟨_, exec_moderationWindowClose q s, ?_⟩
    rw [State.windowClose_of_open hq]
    exact ⟨upd_fin_same .., fun j hj => upd_fin_ne _ _ hj, rfl, rfl, onlyChanges_ev ..⟩
  case holdOff =>
    exact ⟨_, exec_holdOffExpiry g s, upd_fin_same .., fun j hj => upd_fin_ne _ _ hj, rfl, rfl, onlyChanges_ev ..⟩

end Sys2Proof.Machine
end
